-- ==== Sys2Proof/Word.lean ====
section
/-!
DEFINITION. Sys2Proof/Word.lean: the widths the Euquel 940 computes with, and the plainest ways between lists of bytes and
numbers (little-endian, 00_scope R12).
-/

namespace Sys2Proof

/-- A register of 32 bits (R94). -/
abbrev Word := BitVec 32
/-- One byte of storage. -/
abbrev Byte := BitVec 8
/-- A pair of registers, an object address, a window register. -/
abbrev Dword := BitVec 64
/-- A thread mask of a strand: bit t names thread t. -/
abbrev Mask := BitVec 32

/-- The thread numbers of a strand, ascending. -/
def threads : List Nat :=
  [0, 1, 2, 3, 4, 5, 6, 7, 8, 9, 10, 11, 12, 13, 14, 15, 16, 17, 18, 19, 20, 21, 22, 23, 24, 25, 26, 27, 28, 29, 30, 31]

/-- The number little-endian bytes make (R12). -/
def leNat : List Byte → Nat
  | [] => 0
  | b :: bs => b.toNat + 256 * leNat bs

/-- The n little-endian bytes of a number (R12). -/
def leBytes : Nat → Nat → List Byte
  | 0, _ => []
  | n + 1, v => BitVec.ofNat 8 v :: leBytes n (v / 256)

/-- Bits [lo + n - 1 : lo] of a number. -/
def bits (v lo n : Nat) : Nat := v / 2 ^ lo % 2 ^ n

/-- The value of a two's-complement number of n bits. -/
def signed (n v : Nat) : Int := if v % 2 ^ n < 2 ^ (n - 1) then ((v % 2 ^ n : Nat) : Int) else ((v % 2 ^ n : Nat) : Int) - (2 ^ n : Nat)

/-- The n-bit two's-complement encoding of an integer. -/
def unsigned (n : Nat) (v : Int) : Nat := (v % ((2 ^ n : Nat) : Int)).toNat

end Sys2Proof
end

