-- ==== Sys2Proof/Machine/Float.lean ====
section
/-!
DEFINITION. Sys2Proof/Machine/Float.lean: floating-point values as exact numbers, and their rounding into each format
(05_registers R103 to R118). Flags are a number: 1 invalid, 2 division by zero, 4 overflow, 8 underflow, 16 inexact, in the
order of NFR bits [8:4].
-/

namespace Sys2Proof.Machine

/-- A floating-point value: NaN, infinity, or (-1)^neg x m x 2^e; zero keeps its sign. -/
inductive FV where
  | nan (signalling : Bool)
  | inf (neg : Bool)
  | fin (neg : Bool) (m : Nat) (e : Int)
  deriving DecidableEq, Repr

def flagInv : Nat := 1
def flagDiv : Nat := 2
def flagOvf : Nat := 4
def flagUnf : Nat := 8
def flagInx : Nat := 16

/-- An IEEE format: exponent bits, fraction bits. -/
structure FFmt where
  ebits : Nat
  frac : Nat
  deriving DecidableEq, Repr

def fp32 : FFmt := ⟨8, 23⟩
def fp16 : FFmt := ⟨5, 10⟩
def bf16 : FFmt := ⟨8, 7⟩

def FFmt.bias (f : FFmt) : Nat := 2 ^ (f.ebits - 1) - 1
/-- The encoding of +infinity. -/
def FFmt.infEnc (f : FFmt) : Nat := (2 ^ f.ebits - 1) * 2 ^ f.frac
/-- The sign bit. -/
def FFmt.signBit (f : FFmt) : Nat := 2 ^ (f.ebits + f.frac)
/-- The canonical quiet NaN (05 R109). -/
def FFmt.qnan (f : FFmt) : Nat := f.infEnc + 2 ^ (f.frac - 1)
/-- The exponent of the smallest normal number. -/
def FFmt.emin (f : FFmt) : Int := 1 - (f.bias : Int)

/-- The value of an encoding (05 R108, R110). -/
def FFmt.value (f : FFmt) (w : Nat) : FV :=
  let neg := w / f.signBit % 2 == 1
  let ex := w / 2 ^ f.frac % 2 ^ f.ebits
  let fr := w % 2 ^ f.frac
  if ex = 2 ^ f.ebits - 1 then
    if fr = 0 then .inf neg else .nan (fr < 2 ^ (f.frac - 1))
  else if ex = 0 then .fin neg fr (f.emin - f.frac)
  else .fin neg (fr + 2 ^ f.frac) ((ex : Int) - f.bias - f.frac)

/-- A subnormal input read under flush (05 R108). -/
def FFmt.flushIn (f : FFmt) (fz : Bool) (v : FV) : FV :=
  match v with
  | .fin neg m e => if fz && decide (m < 2 ^ f.frac) then .fin neg 0 e else v
  | _ => v

/-- The value of an input, flushed when fz. -/
def FFmt.input (f : FFmt) (fz : Bool) (w : Nat) : FV := f.flushIn fz (f.value w)

/-- Round m / 2^d by a mode (05 R103): nearest-even 0, toward zero 1, up 2, down 3. -/
def roundShift (rm : Nat) (neg : Bool) (m d : Nat) : Nat :=
  let q := m / 2 ^ d
  let r := m % 2 ^ d
  if r = 0 then q
  else
    let up :=
      if rm = 0 then decide (2 ^ d < 2 * r) || (decide (2 * r = 2 ^ d) && q % 2 == 1)
      else if rm = 2 then !neg
      else if rm = 3 then neg
      else false
    if up then q + 1 else q

/-- Round (-1)^neg x m x 2^e to an integer. -/
def roundInt (rm : Nat) (neg : Bool) (m : Nat) (e : Int) : Int :=
  let a : Nat := if 0 ≤ e then m * 2 ^ e.toNat else roundShift rm neg m (-e).toNat
  if neg then -(a : Int) else (a : Int)

/-- (-1)^neg x m x 2^e is an integer. -/
def isIntegral (m : Nat) (e : Int) : Bool := decide (0 ≤ e) || m % 2 ^ (-e).toNat == 0

/-- The exponent of the leading bit of m x 2^e. -/
def leadExp (m : Nat) (e : Int) : Int := (Nat.log2 m : Int) + e

/-- Round an exact nonzero number into an IEEE format: magnitude encoding before overflow is judged, and whether it is inexact. -/
def FFmt.roundMag (f : FFmt) (rm : Nat) (neg : Bool) (m : Nat) (e : Int) : Nat × Bool :=
  let E := leadExp m e
  let q := max E f.emin - f.frac
  let sig := if q ≤ e then m * 2 ^ (e - q).toNat else roundShift rm neg m (q - e).toNat
  let inexact := !decide (q ≤ e) && m % 2 ^ (q - e).toNat != 0
  let enc := if E < f.emin then sig else ((E + f.bias).toNat - 1) * 2 ^ f.frac + sig
  (enc, inexact)

/-- The rounded result is tiny: below the smallest normal after rounding with an unbounded exponent (05 R105; log 25, DEDUCED). -/
def FFmt.tiny (f : FFmt) (rm : Nat) (neg : Bool) (m : Nat) (e : Int) : Bool :=
  let E := leadExp m e
  let q := E - f.frac
  let sig := if q ≤ e then 0 else roundShift rm neg m (q - e).toNat
  decide (E < f.emin) && !(decide (E = f.emin - 1) && sig == 2 ^ (f.frac + 1))

/-- The result of an operation in an IEEE format: rounded once, flushed under fz, NaN canonical (05 R105, R108, R109, R111; log 25, DEDUCED). -/
def FFmt.round (f : FFmt) (rm : Nat) (fz : Bool) (v : FV) : Nat × Nat :=
  match v with
  | .nan _ => (f.qnan, 0)
  | .inf neg => (f.infEnc + (if neg then f.signBit else 0), 0)
  | .fin neg m e =>
    let sgn := if neg then f.signBit else 0
    if m = 0 then (sgn, 0)
    else if fz && decide (leadExp m e < f.emin) then (sgn, flagUnf + flagInx)
    else
      let (enc, inexact) := f.roundMag rm neg m e
      if f.infEnc ≤ enc then
        let toInf := rm == 0 || (rm == 2 && !neg) || (rm == 3 && neg)
        ((if toInf then f.infEnc else f.infEnc - 1) + sgn, flagOvf + flagInx)
      else (enc + sgn, if inexact then flagInx + (if f.tiny rm neg m e then flagUnf else 0) else 0)

def FV.isNan : FV → Bool
  | .nan _ => true
  | _ => false
def FV.isSnan : FV → Bool
  | .nan sg => sg
  | _ => false
def FV.isFinite : FV → Bool
  | .fin .. => true
  | _ => false
def FV.isZero : FV → Bool
  | .fin _ m _ => m == 0
  | _ => false
def FV.neg : FV → FV
  | .nan sg => .nan sg
  | .inf n => .inf (!n)
  | .fin n m e => .fin (!n) m e
def FV.negIf (b : Bool) (v : FV) : FV := if b then v.neg else v
def FV.abs : FV → FV
  | .nan sg => .nan sg
  | .inf _ => .inf false
  | .fin _ m e => .fin false m e
/-- The sign of a number; NaN has none. -/
def FV.sign : FV → Bool
  | .nan _ => false
  | .inf n => n
  | .fin n _ _ => n

/-- The signed mantissa of a finite value at exponent e0 ≤ its own. -/
def signedAt (neg : Bool) (m : Nat) (e e0 : Int) : Int :=
  let a : Int := (m * 2 ^ (e - e0).toNat : Nat)
  if neg then -a else a

/-- A dyadic number from a signed mantissa. -/
def ofInt (i : Int) (e : Int) : FV := .fin (decide (i < 0)) i.natAbs e

/-- The exact product, with the flag of 0 x infinity (08 R189). -/
def FV.mul (a b : FV) : FV × Nat :=
  match a, b with
  | .nan x, .nan y => (.nan false, if x || y then flagInv else 0)
  | .nan x, _ => (.nan false, if x then flagInv else 0)
  | _, .nan y => (.nan false, if y then flagInv else 0)
  | .inf n, .inf k => (.inf (n != k), 0)
  | .inf n, .fin k m _ => if m = 0 then (.nan false, flagInv) else (.inf (n != k), 0)
  | .fin k m _, .inf n => if m = 0 then (.nan false, flagInv) else (.inf (n != k), 0)
  | .fin n m e, .fin k m' e' => (.fin (n != k) (m * m') (e + e'), 0)

/-- The exact sum, with the flag of infinities of opposite sign; an exact zero sum of opposite signs is +0, or -0 under
round-down (08 R189). -/
def FV.add (rm : Nat) (a b : FV) : FV × Nat :=
  match a, b with
  | .nan x, .nan y => (.nan false, if x || y then flagInv else 0)
  | .nan x, _ => (.nan false, if x then flagInv else 0)
  | _, .nan y => (.nan false, if y then flagInv else 0)
  | .inf n, .inf k => if n = k then (.inf n, 0) else (.nan false, flagInv)
  | .inf n, .fin .. => (.inf n, 0)
  | .fin .., .inf n => (.inf n, 0)
  | .fin n m e, .fin k m' e' =>
    if m = 0 ∧ m' = 0 then (.fin (if n = k then n else decide (rm = 3)) 0 0, 0)
    else
      let e0 := min e e'
      let i := signedAt n m e e0 + signedAt k m' e' e0
      if i = 0 then (.fin (decide (rm = 3)) 0 0, 0) else (ofInt i e0, 0)

/-- Union of two sets of flags. -/
def orFlags (a b : Nat) : Nat := Nat.lor a b

/-- a x b + c, unrounded: 0 x infinity is invalid even beside a quiet NaN (08 R189). -/
def FV.mulAdd (rm : Nat) (a b c : FV) : FV × Nat :=
  let (p, f) := a.mul b
  if f != 0 && !a.isNan && !b.isNan then (.nan false, orFlags f (if c.isSnan then flagInv else 0))
  else
    let (r, g) := FV.add rm p c
    (r, orFlags f g)

/-- Less-than of two numbers; false when either is NaN. Zeros are equal. -/
def FV.lt (a b : FV) : Bool :=
  match a, b with
  | .nan _, _ | _, .nan _ => false
  | .inf n, .inf k => n && !k
  | .inf n, .fin .. => n
  | .fin .., .inf k => !k
  | .fin n m e, .fin k m' e' =>
    let e0 := min e e'
    decide (signedAt n m e e0 < signedAt k m' e' e0)

/-- Equality of two numbers; false when either is NaN. -/
def FV.eq (a b : FV) : Bool := !a.isNan && !b.isNan && !a.lt b && !b.lt a

/-- The clamp of SAT to [+0.0, 1.0]: NaN and negative zero become +0.0 (08 R189). -/
def FV.clamp (v : FV) : FV :=
  match v with
  | .nan _ => .fin false 0 0
  | .inf n => if n then .fin false 0 0 else .fin false 1 0
  | .fin n m e => if n || m == 0 then .fin false 0 0 else if (FV.fin false 1 0).lt v then .fin false 1 0 else .fin false m e

/-- Round, and clamp under SAT (08 R189): the clamp raises no flag. -/
def FFmt.finish (f : FFmt) (rm : Nat) (fz sat : Bool) (r : FV × Nat) : Nat × Nat :=
  let (w, g) := f.round rm fz r.1
  let w' := if sat then (f.round 0 false (f.value w).clamp).1 else w
  (w', orFlags r.2 g)

/-- a quotient num / den x 2^e as a dyadic number with at least 80 exact leading bits and a sticky last bit: rounding it to a
format rounds the exact quotient. -/
def quotient (neg : Bool) (num den : Nat) (e : Int) : FV :=
  if num = 0 ∨ den = 0 then .fin neg 0 0
  else
    let k := Nat.log2 den + 80
    let q := num * 2 ^ k / den
    let r := num * 2 ^ k % den
    .fin neg (2 * q + (if r = 0 then 0 else 1)) (e - k - 1)

/-- The value of an F8N code (05 R113). -/
def f8nValue (w : Nat) : FV :=
  let s := w / 128 % 2 == 1
  let e := w / 8 % 16
  let f := w % 8
  if w % 256 = 0x80 then .nan false
  else if w % 128 = 0x7F then .fin s 14 5
  else if e = 0 then .fin s f (-9)
  else .fin s (8 + f) ((e : Int) - 10)

/-- The value of an F8W code (05 R114). -/
def f8wValue (w : Nat) : FV :=
  let s := w / 128 % 2 == 1
  let e := w / 4 % 32
  let f := w % 4
  if w % 256 = 0x80 then .nan false
  else if w % 128 = 0x7F then .fin s 6 14
  else if e = 0 then .fin s f (-16)
  else .fin s (4 + f) ((e : Int) - 17)

/-- A conversion into F8N (narrow) or F8W (05 R115). -/
def toF8 (wide : Bool) (rm : Nat) (v : FV) : Nat × Nat :=
  let f : FFmt := if wide then ⟨5, 2⟩ else ⟨4, 3⟩
  match v with
  | .nan _ => (0x80, 0)
  | .inf n => (if n then 0xFE else 0x7E, flagInv)
  | .fin n m e =>
    if m = 0 then (0, 0)
    else
      let (enc, inexact) := f.roundMag rm n m e
      if 0x7E < enc then (if n then 0xFE else 0x7E, flagOvf + flagInx)
      else if enc = 0 then (0, flagUnf + flagInx)
      else (enc + (if n then 128 else 0), if inexact then flagInx + (if enc < 2 ^ f.frac then flagUnf else 0) else 0)

/-- A TS8 code in units of 2^(S - 7) (05 R116). -/
def ts8Int (w : Nat) : Int :=
  let x : Int := (2 ^ (7 - w / 16 % 8) : Nat)
  let y : Int := (2 ^ (7 - w % 8) : Nat)
  (if w / 128 % 2 = 1 then -x else x) + (if w / 8 % 2 = 1 then -y else y)

/-- The value of a TS8 code at scale exponent S (05 R116). -/
def ts8Value (scale : Int) (w : Nat) : FV := ofInt (ts8Int w) (scale - 7)

/-- The TS8 code nearest y units of 2^e7 (e7 ≤ 0), scanned upward so the lowest byte of equals stays; ties go to the smaller
magnitude (05 R117). -/
def nearestTs8 (y : Int) (unit : Int) : Nat → Nat → Nat → Nat
  | 0, _, best => best
  | k + 1, w, best =>
    let d (c : Nat) : Nat := (ts8Int c * unit - y).natAbs
    let better := decide (d w < d best) || (decide (d w = d best) && decide ((ts8Int w).natAbs < (ts8Int best).natAbs))
    nearestTs8 y unit k (w + 1) (if better then w else best)

/-- A conversion into TS8 at scale exponent S, whatever RM says (05 R117). -/
def toTs8 (scale : Int) (v : FV) : Nat × Nat :=
  match v with
  | .nan _ => (0x08, flagInv)
  | .inf n => (if n then 0x88 else 0x00, flagInv)
  | .fin n m e =>
    if m = 0 then (0x08, 0)
    else
      let e7 := e - scale + 7
      let lo := min e7 0
      let unit : Int := (2 ^ (-lo).toNat : Nat)
      let y := signedAt n m e7 lo
      if 256 * unit < y.natAbs then (if n then 0x88 else 0x00, flagOvf + flagInx)
      else
        let c := nearestTs8 y unit 256 0 0x08
        if ts8Int c = 0 then (0x08, flagUnf + flagInx)
        else (c, if ts8Int c * unit = y then 0 else flagInx)

/-- The range of an integer format code (05 R106). -/
def intRange (c : Nat) : Int × Int :=
  let n : Nat := if c ≤ 2 then 8 else if c ≤ 4 then 16 else if c ≤ 6 then 32 else 64
  if c % 2 = 1 then (0, (2 ^ n : Nat) - 1) else (-(2 ^ (n - 1) : Nat), (2 ^ (n - 1) : Nat) - 1)

/-- A conversion of a float to an integer format; under SAT saturation raises no invalid (05 R112, 08 R195; log 24, DEDUCED). -/
def toIntFmt (c : Nat) (rm : Nat) (sat : Bool) (v : FV) : Int × Nat :=
  let (lo, hi) := intRange c
  let inv := if sat then 0 else flagInv
  match v with
  | .nan _ => (0, flagInv)
  | .inf n => (if n then lo else hi, inv)
  | .fin n m e =>
    let i := roundInt rm n m e
    if i < lo then (lo, inv) else if hi < i then (hi, inv)
    else (i, if isIntegral m e then 0 else flagInx)

/-- One addend on an n-bit grid of exponent w: G, overflow, nonfinite (05 R126). -/
def toGrid (rm : Nat) (v : FV) (w : Int) (n : Nat) : Int × Bool × Bool :=
  match v with
  | .nan _ | .inf _ => (0, false, true)
  | .fin neg m e =>
    let q := roundInt rm neg m (e - w)
    let hi : Int := (2 ^ (n - 1) : Nat) - 1
    if hi < q then (hi, true, false) else if q < -hi - 1 then (-hi - 1, true, false) else (q, false, false)

/-- A grid word as its 128 bits: G [125:0], OVF 126, NF 127 (05 R125). -/
def gridWord (g : Int) (ovf nf : Bool) : Nat :=
  unsigned 126 g + (if ovf then 2 ^ 126 else 0) + (if nf then 2 ^ 127 else 0)

/-- GridAdd (05 R125). -/
def gridAdd (a b : Nat) : Nat :=
  (a % 2 ^ 126 + b % 2 ^ 126) % 2 ^ 126 + Nat.lor (a / 2 ^ 126 % 4) (b / 2 ^ 126 % 4) * 2 ^ 126

/-- IEEE addition rounded to nearest-even with subnormals kept and no flags: atomics, HACC.FADD and LDSUM (07 R164, 04 R91,
02 R52). -/
def plainFadd (a b : Nat) : Nat := (fp32.round 0 false (FV.add 0 (fp32.value a) (fp32.value b)).1).1

end Sys2Proof.Machine
end

