-- ==== Sys2Proof/Syntax.lean ====
section
/-!
DEFINITION. Sys2Proof/Syntax.lean: the instructions and steps of the Euquel 940, one constructor per row of
spec/opcode_table.json. A row with words carries the fields of its word by the table's names (z is the run boundary flag B,
06_encoding R138; x the uniform form R135; l the lookahead R137). The rows of M format also carry `u`, bits [8:5] of the
nine-bit offset of encoding version 1 (06_encoding R148), which is 0 in versions 2 and 3. A row without words is a step that
a unit, a die, the host or the board takes (95_what_each_step_holds); its arguments name what it acts on.
-/

namespace Sys2Proof

/-- An instruction word, a hint word, or a step of the machine. -/
inductive Instr where
  /-- IADD (R183). Adds two registers per active thread, modulo 2^w, or saturating under SAT. -/
  | iadd (z : BitVec 1) (d : BitVec 7) (a : BitVec 7) (b : BitVec 7) (x : BitVec 1)
  /-- ISUB (R183). Subtracts b from a per active thread. -/
  | isub (z : BitVec 1) (d : BitVec 7) (a : BitVec 7) (b : BitVec 7) (x : BitVec 1)
  /-- IMUL (R183). Writes the low w bits of the product a × b. -/
  | imul (z : BitVec 1) (d : BitVec 7) (a : BitVec 7) (b : BitVec 7) (x : BitVec 1)
  /-- IMULH (R183). Writes the high 32 bits of the signed 64-bit product. -/
  | imulh (z : BitVec 1) (d : BitVec 7) (a : BitVec 7) (b : BitVec 7) (x : BitVec 1)
  /-- IMAD (R183). Writes the low 32 bits of a × b plus the THIRD register or d. -/
  | imad (z : BitVec 1) (d : BitVec 7) (a : BitVec 7) (b : BitVec 7) (x : BitVec 1)
  /-- MIN (R183). Writes the signed lesser of a and b. -/
  | min (z : BitVec 1) (d : BitVec 7) (a : BitVec 7) (b : BitVec 7) (x : BitVec 1)
  /-- MAX (R183). Writes the signed greater of a and b. -/
  | max (z : BitVec 1) (d : BitVec 7) (a : BitVec 7) (b : BitVec 7) (x : BitVec 1)
  /-- LEA (R183). Adds a zero-extended 32-bit offset to a 64-bit pair. -/
  | lea (z : BitVec 1) (d : BitVec 7) (a : BitVec 7) (b : BitVec 7) (x : BitVec 1)
  /-- SHL (R183). Shifts a left by a register count. -/
  | shl (z : BitVec 1) (d : BitVec 7) (a : BitVec 7) (b : BitVec 7) (x : BitVec 1)
  /-- SHR (R183). Shifts a right with zero fill by a register count. -/
  | shr (z : BitVec 1) (d : BitVec 7) (a : BitVec 7) (b : BitVec 7) (x : BitVec 1)
  /-- SAR (R183). Shifts a right with sign fill by a register count. -/
  | sar (z : BitVec 1) (d : BitVec 7) (a : BitVec 7) (b : BitVec 7) (x : BitVec 1)
  /-- AND (R183). Bitwise AND of two registers. -/
  | and (z : BitVec 1) (d : BitVec 7) (a : BitVec 7) (b : BitVec 7) (x : BitVec 1)
  /-- OR (R183). Bitwise OR of two registers. -/
  | or (z : BitVec 1) (d : BitVec 7) (a : BitVec 7) (b : BitVec 7) (x : BitVec 1)
  /-- XOR (R183). Bitwise XOR of two registers. -/
  | xor (z : BitVec 1) (d : BitVec 7) (a : BitVec 7) (b : BitVec 7) (x : BitVec 1)
  /-- ANDN (R183). Writes a AND NOT b. -/
  | andn (z : BitVec 1) (d : BitVec 7) (a : BitVec 7) (b : BitVec 7) (x : BitVec 1)
  /-- IABS (R183). Writes the absolute value of int32 a. -/
  | iabs (z : BitVec 1) (d : BitVec 7) (a : BitVec 7) (x : BitVec 1)
  /-- CLZ (R183). Counts the leading zero bits of a. -/
  | clz (z : BitVec 1) (d : BitVec 7) (a : BitVec 7) (x : BitVec 1)
  /-- POPC (R183). Counts the one bits of a. -/
  | popc (z : BitVec 1) (d : BitVec 7) (a : BitVec 7) (x : BitVec 1)
  /-- BREV (R183). Reverses the bits of a. -/
  | brev (z : BitVec 1) (d : BitVec 7) (a : BitVec 7) (x : BitVec 1)
  /-- MOV (R183). Copies a to d. -/
  | mov (z : BitVec 1) (d : BitVec 7) (a : BitVec 7) (x : BitVec 1)
  /-- BFX (R184). Extracts a bit field of a under control of b. -/
  | bfx (z : BitVec 1) (d : BitVec 7) (a : BitVec 7) (b : BitVec 7) (x : BitVec 1)
  /-- BFI (R184). Inserts a bit field of a into the base register under control of b. -/
  | bfi (z : BitVec 1) (d : BitVec 7) (a : BitVec 7) (b : BitVec 7) (x : BitVec 1)
  /-- ICMP (R187). Compares two integers by the condition in f3 and writes a predicate. -/
  | icmp (z : BitVec 1) (c : BitVec 3) (d : BitVec 7) (a : BitVec 7) (b : BitVec 7) (x : BitVec 1)
  /-- SEL (R188). Selects a or b by the predicate named in f3. -/
  | sel (z : BitVec 1) (p : BitVec 3) (d : BitVec 7) (a : BitVec 7) (b : BitVec 7) (x : BitVec 1)
  /-- MOVI (R186). Writes an immediate to a vector register. -/
  | movi (z : BitVec 1) (d : BitVec 7) (i : BitVec 8)
  /-- IADD_I (R186). Adds an immediate to a vector register. -/
  | iaddI (z : BitVec 1) (d : BitVec 7) (a : BitVec 7) (i : BitVec 8)
  /-- SHL_I (R186). Shifts a vector register left by an immediate. -/
  | shlI (z : BitVec 1) (d : BitVec 7) (a : BitVec 7) (i : BitVec 8)
  /-- SHR_I (R186). Shifts a vector register right with zero fill by an immediate. -/
  | shrI (z : BitVec 1) (d : BitVec 7) (a : BitVec 7) (i : BitVec 8)
  /-- SAR_I (R186). Shifts a vector register right with sign fill by an immediate. -/
  | sarI (z : BitVec 1) (d : BitVec 7) (a : BitVec 7) (i : BitVec 8)
  /-- AND_I (R186). ANDs a vector register with an immediate. -/
  | andI (z : BitVec 1) (d : BitVec 7) (a : BitVec 7) (i : BitVec 8)
  /-- OR_I (R186). ORs a vector register with an immediate. -/
  | orI (z : BitVec 1) (d : BitVec 7) (a : BitVec 7) (i : BitVec 8)
  /-- XOR_I (R186). XORs a vector register with an immediate. -/
  | xorI (z : BitVec 1) (d : BitVec 7) (a : BitVec 7) (i : BitVec 8)
  /-- MOVI_U (R186). Writes an immediate to a uniform register. -/
  | moviU (z : BitVec 1) (d : BitVec 7) (i : BitVec 8)
  /-- IADD_IU (R186). Adds an immediate to a uniform register. -/
  | iaddIu (z : BitVec 1) (d : BitVec 7) (a : BitVec 7) (i : BitVec 8)
  /-- SHL_IU (R186). Shifts a uniform register left by an immediate. -/
  | shlIu (z : BitVec 1) (d : BitVec 7) (a : BitVec 7) (i : BitVec 8)
  /-- SHR_IU (R186). Shifts a uniform register right with zero fill by an immediate. -/
  | shrIu (z : BitVec 1) (d : BitVec 7) (a : BitVec 7) (i : BitVec 8)
  /-- SAR_IU (R186). Shifts a uniform register right with sign fill by an immediate. -/
  | sarIu (z : BitVec 1) (d : BitVec 7) (a : BitVec 7) (i : BitVec 8)
  /-- AND_IU (R186). ANDs a uniform register with an immediate. -/
  | andIu (z : BitVec 1) (d : BitVec 7) (a : BitVec 7) (i : BitVec 8)
  /-- OR_IU (R186). ORs a uniform register with an immediate. -/
  | orIu (z : BitVec 1) (d : BitVec 7) (a : BitVec 7) (i : BitVec 8)
  /-- XOR_IU (R186). XORs a uniform register with an immediate. -/
  | xorIu (z : BitVec 1) (d : BitVec 7) (a : BitVec 7) (i : BitVec 8)
  /-- FADD (R189). Adds two FP32 values with one rounding. -/
  | fadd (z : BitVec 1) (d : BitVec 7) (a : BitVec 7) (b : BitVec 7) (x : BitVec 1)
  /-- FSUB (R189). Subtracts two FP32 values with one rounding. -/
  | fsub (z : BitVec 1) (d : BitVec 7) (a : BitVec 7) (b : BitVec 7) (x : BitVec 1)
  /-- FMUL (R189). Multiplies two FP32 values with one rounding. -/
  | fmul (z : BitVec 1) (d : BitVec 7) (a : BitVec 7) (b : BitVec 7) (x : BitVec 1)
  /-- FFMA (R189). Fused multiply-add of FP32 values with one rounding. -/
  | ffma (z : BitVec 1) (d : BitVec 7) (a : BitVec 7) (b : BitVec 7) (x : BitVec 1)
  /-- FMIN (R190). Writes the lesser FP32 value with IEEE NaN handling. -/
  | fmin (z : BitVec 1) (d : BitVec 7) (a : BitVec 7) (b : BitVec 7) (x : BitVec 1)
  /-- FMAX (R190). Writes the greater FP32 value with IEEE NaN handling. -/
  | fmax (z : BitVec 1) (d : BitVec 7) (a : BitVec 7) (b : BitVec 7) (x : BitVec 1)
  /-- FRND (R191). Rounds an FP32 value to an integral value. -/
  | frnd (z : BitVec 1) (d : BitVec 7) (a : BitVec 7) (x : BitVec 1)
  /-- FCLS (R191). Writes the 10-bit class mask of an FP32 value. -/
  | fcls (z : BitVec 1) (d : BitVec 7) (a : BitVec 7) (x : BitVec 1)
  /-- FCMP (R192). Compares two FP32 values by the condition in f3 and writes a predicate. -/
  | fcmp (z : BitVec 1) (c : BitVec 3) (d : BitVec 7) (a : BitVec 7) (b : BitVec 7) (x : BitVec 1)
  /-- HADD2 (R193). Adds two packed 16-bit float pairs. -/
  | hadd2 (z : BitVec 1) (h : BitVec 1) (d : BitVec 7) (a : BitVec 7) (b : BitVec 7) (x : BitVec 1)
  /-- HMUL2 (R193). Multiplies two packed 16-bit float pairs. -/
  | hmul2 (z : BitVec 1) (h : BitVec 1) (d : BitVec 7) (a : BitVec 7) (b : BitVec 7) (x : BitVec 1)
  /-- HFMA2 (R193). Fused multiply-add on packed 16-bit float pairs. -/
  | hfma2 (z : BitVec 1) (h : BitVec 1) (d : BitVec 7) (a : BitVec 7) (b : BitVec 7) (x : BitVec 1)
  /-- FDOT2 (R194). Two-element 16-bit dot product plus an FP32 addend, rounded once. -/
  | fdot2 (z : BitVec 1) (h : BitVec 1) (d : BitVec 7) (a : BitVec 7) (b : BitVec 7) (x : BitVec 1)
  /-- CVT (R195). Converts one element per thread between format codes. -/
  | cvt (z : BitVec 1) (s : BitVec 5) (d : BitVec 7) (a : BitVec 7) (t : BitVec 6)
  /-- PACK (R197). Assembles a register from parts of a and b by arrangement. -/
  | pack (z : BitVec 1) (m : BitVec 3) (d : BitVec 7) (a : BitVec 7) (b : BitVec 7) (x : BitVec 1)
  /-- UNPK (R197). Extracts and extends one packed element of a. -/
  | unpk (z : BitVec 1) (m : BitVec 3) (d : BitVec 7) (a : BitVec 7) (b : BitVec 7) (x : BitVec 1)
  /-- FMT (R196). Converts a group of packed float elements between formats. -/
  | fmt (z : BitVec 1) (s : BitVec 5) (d : BitVec 7) (a : BitVec 7) (t : BitVec 6)
  /-- SHFL (R199). Reads a from a source thread chosen by mode and distance. -/
  | shfl (z : BitVec 1) (m : BitVec 3) (d : BitVec 7) (a : BitVec 7) (b : BitVec 7)
  /-- VOTE (R200). Combines one value from every active thread by mode. -/
  | vote (z : BitVec 1) (m : BitVec 3) (d : BitVec 7) (a : BitVec 7)
  /-- RDFL (R201). Reads a of the lowest active thread into a vector or uniform destination. -/
  | rdfl (z : BitVec 1) (d : BitVec 7) (a : BitVec 7) (b : BitVec 7)
  /-- PRFX (R202). Forms a scan of a over the active threads. -/
  | prfx (z : BitVec 1) (d : BitVec 7) (a : BitVec 7) (b : BitVec 7)
  /-- CONF (R203). Finds equal keys among active threads and marks leaders. -/
  | conf (z : BitVec 1) (d : BitVec 7) (a : BitVec 7) (b : BitVec 7)
  /-- KCOMB (R204). Folds values of equal keys into each leader in ascending thread order. -/
  | kcomb (z : BitVec 1) (d : BitVec 7) (a : BitVec 7) (b : BitVec 7)
  /-- REBAL (R205). Spreads the elements of up to 32 rows over threads. -/
  | rebal (z : BitVec 1) (d : BitVec 7) (a : BitVec 7) (b : BitVec 7)
  /-- MASK (R206). Writes a thread mask selected by b7. -/
  | mask (z : BitVec 1) (d : BitVec 7) (b : BitVec 7)
  /-- SFE (R207). Evaluates a built-in or user-table function per active thread. -/
  | sfe (z : BitVec 1) (d : BitVec 7) (a : BitVec 7) (f : BitVec 5) (l : BitVec 4) (u : BitVec 4)
  /-- STBL (R212). Checks a function table image and copies it into the inactive bank. -/
  | stbl (z : BitVec 1) (t : BitVec 7) (p : BitVec 7) (l : BitVec 4)
  /-- TSWP (R213). Inverts a function table's active-bank bit. -/
  | tswp (z : BitVec 1) (t : BitVec 7) (l : BitVec 4)
  /-- LZ (R216). Zeroes a long accumulator and its state. -/
  | lz (z : BitVec 1) (e : BitVec 1)
  /-- LADD (R216). Folds each active thread's FP32 value or square into a long accumulator. -/
  | ladd (z : BitVec 1) (a : BitVec 7) (e : BitVec 1) (q : BitVec 1)
  /-- LMRG (R217). Reads a spilled long accumulator and adds it. -/
  | lmrg (z : BitVec 1) (a : BitVec 7) (e : BitVec 1) (q : BitVec 1) (l : BitVec 4)
  /-- LST (R217). Writes a long accumulator in its 64-byte form. -/
  | lst (z : BitVec 1) (a : BitVec 7) (e : BitVec 1) (q : BitVec 1) (l : BitVec 4)
  /-- LRD (R218). Reads a long accumulator as FP32 into a uniform register. -/
  | lrd (z : BitVec 1) (d : BitVec 7) (e : BitVec 1)
  /-- LVAR (R219). Computes a variance from l0, l1 and a count. -/
  | lvar (z : BitVec 1) (d : BitVec 7) (a : BitVec 7)
  /-- SRG (R228). Opens a surrogate region, evaluates its model and queues fallbacks and samples. -/
  | srg (z : BitVec 1) (j : BitVec 16) (l : BitVec 4)
  /-- SJN (R230). Waits for the strand's pending merges, or in a recovery strand merges and exits. -/
  | sjn (z : BitVec 1)
  /-- SLD (R241). Checks a model image and copies it into the inactive bank of a slot. -/
  | sld (z : BitVec 1) (s : BitVec 7) (p : BitVec 7) (l : BitVec 4)
  /-- SSW (R241). Inverts a model slot's active bank. -/
  | ssw (z : BitVec 1) (s : BitVec 7) (l : BitVec 4)
  /-- QSET (R242). Writes a region's live quality record. -/
  | qset (z : BitVec 1) (u : BitVec 7) (l : BitVec 4)
  /-- SCTR (R243). Reads or clears a region's counters by op. -/
  | sctr (z : BitVec 1) (u : BitVec 7) (o : BitVec 2) (l : BitVec 4)
  /-- SDIS (R244). Disables a region package-wide. -/
  | sdis (z : BitVec 1)
  /-- LD_G (R160). Loads 1 to 8 bytes per thread from an object. -/
  | ldG (z : BitVec 1) (s : BitVec 2) (d : BitVec 7) (a : BitVec 7) (k : BitVec 5) (l : BitVec 4) (u : BitVec 4)
  /-- LD_G_EXT (R160). Loads 16 bytes, or sign-extended 1 or 2 bytes, per thread from an object. -/
  | ldGExt (z : BitVec 1) (s : BitVec 2) (d : BitVec 7) (a : BitVec 7) (k : BitVec 5) (l : BitVec 4) (u : BitVec 4)
  /-- LD_S (R160). Loads 1 to 8 bytes per thread from the scratchpad. -/
  | ldS (z : BitVec 1) (s : BitVec 2) (d : BitVec 7) (a : BitVec 7) (o : BitVec 5) (l : BitVec 4) (u : BitVec 4)
  /-- LD_S_EXT (R160). Loads 16 bytes, or sign-extended 1 or 2 bytes, per thread from the scratchpad. -/
  | ldSExt (z : BitVec 1) (s : BitVec 2) (d : BitVec 7) (a : BitVec 7) (o : BitVec 5) (l : BitVec 4) (u : BitVec 4)
  /-- ST_G (R160). Stores 1 to 8 bytes per thread into an object's current slot. -/
  | stG (z : BitVec 1) (s : BitVec 2) (d : BitVec 7) (a : BitVec 7) (k : BitVec 5) (l : BitVec 4) (u : BitVec 4)
  /-- ST_S (R160). Stores 1 to 8 bytes per thread into the scratchpad. -/
  | stS (z : BitVec 1) (s : BitVec 2) (d : BitVec 7) (a : BitVec 7) (o : BitVec 5) (l : BitVec 4) (u : BitVec 4)
  /-- ATOM (R163). Applies an atomic operation at the slice and returns the old value. -/
  | atom (z : BitVec 1) (o : BitVec 4) (d : BitVec 7) (a : BitVec 7) (k : BitVec 2) (l : BitVec 4)
  /-- RED (R163). Applies an atomic reduction at the slice with no result. -/
  | red (z : BitVec 1) (o : BitVec 4) (d : BitVec 7) (a : BitVec 7) (k : BitVec 2) (l : BitVec 4)
  /-- ST_G_B128 (R160). Stores 16 bytes per thread into an object. -/
  | stGB128 (z : BitVec 1) (d : BitVec 7) (a : BitVec 7) (k : BitVec 2) (l : BitVec 4)
  /-- ST_S_B128 (R160). Stores 16 bytes per thread into the scratchpad. -/
  | stSB128 (z : BitVec 1) (d : BitVec 7) (a : BitVec 7) (l : BitVec 4)
  /-- AOADD_B32 (R166). Adds the strand's values to a shared cell in rank order, 32-bit. -/
  | aoaddB32 (z : BitVec 1) (d : BitVec 7) (a : BitVec 7) (l : BitVec 4)
  /-- AOADD_B64 (R166). Adds the strand's values to a shared cell in rank order, 64-bit. -/
  | aoaddB64 (z : BitVec 1) (d : BitVec 7) (a : BitVec 7) (l : BitVec 4)
  /-- LDSUM_B32 (R169). Sums an int32 element over every replica of a replicated object. -/
  | ldsumB32 (z : BitVec 1) (d : BitVec 7) (a : BitVec 7) (q : BitVec 2) (l : BitVec 4)
  /-- LDSUM_B64 (R169). Sums an int64 element over every replica. -/
  | ldsumB64 (z : BitVec 1) (d : BitVec 7) (a : BitVec 7) (q : BitVec 2) (l : BitVec 4)
  /-- LDSUM_G (R169). Sums a grid word over every replica. -/
  | ldsumG (z : BitVec 1) (d : BitVec 7) (a : BitVec 7) (q : BitVec 2) (l : BitVec 4)
  /-- LDSUM_F32 (R169). Sums an FP32 element over every replica along the fixed tree. -/
  | ldsumF32 (z : BitVec 1) (d : BitVec 7) (a : BitVec 7) (q : BitVec 2) (l : BitVec 4)
  /-- LDU_B32 (R161). Loads 4 bytes once for the strand into a uniform register. -/
  | lduB32 (z : BitVec 1) (d : BitVec 7) (a : BitVec 7) (k : BitVec 2) (l : BitVec 4)
  /-- LDU_B64 (R161). Loads 8 bytes once for the strand into a uniform pair. -/
  | lduB64 (z : BitVec 1) (d : BitVec 7) (a : BitVec 7) (k : BitVec 2) (l : BitVec 4)
  /-- PREF (R162). Prefetches the line of each active thread's address. -/
  | pref (z : BitVec 1) (a : BitVec 7) (k : BitVec 2)
  /-- CPY_S_FROM_G (R170). Copies 4, 8 or 16 bytes per thread from an object into the scratchpad. -/
  | cpySFromG (z : BitVec 1) (s : BitVec 2) (d : BitVec 7) (a : BitVec 7) (k : BitVec 5) (l : BitVec 4) (u : BitVec 4)
  /-- CPY_G_FROM_S (R170). Copies 4, 8 or 16 bytes per thread from the scratchpad into an object's shadow. -/
  | cpyGFromS (z : BitVec 1) (s : BitVec 2) (d : BitVec 7) (a : BitVec 7) (k : BitVec 5) (l : BitVec 4) (u : BitVec 4)
  /-- CPY_S_FROM_S (R170). Copies 4, 8 or 16 bytes per thread between scratchpad addresses. -/
  | cpySFromS (z : BitVec 1) (s : BitVec 2) (d : BitVec 7) (a : BitVec 7) (l : BitVec 4)
  /-- CPY_G_FROM_G_B4 (R170). Copies 4 bytes per thread from an object into another object's shadow. -/
  | cpyGFromGB4 (z : BitVec 1) (d : BitVec 7) (a : BitVec 7) (k : BitVec 2) (l : BitVec 4)
  /-- CPY_G_FROM_G_B8 (R170). Copies 8 bytes per thread from an object into another object's shadow. -/
  | cpyGFromGB8 (z : BitVec 1) (d : BitVec 7) (a : BitVec 7) (k : BitVec 2) (l : BitVec 4)
  /-- CPY_G_FROM_G_B16 (R170). Copies 16 bytes per thread from an object into another object's shadow. -/
  | cpyGFromGB16 (z : BitVec 1) (d : BitVec 7) (a : BitVec 7) (k : BitVec 2) (l : BitVec 4)
  /-- CPYV_G (R171). Conditionally copies a 128-byte tile from an object under version control. -/
  | cpyvG (z : BitVec 1) (d : BitVec 7) (a : BitVec 7) (k : BitVec 2) (l : BitVec 4)
  /-- CPYV_S (R171). Conditionally copies a 128-byte tile from the scratchpad under version control. -/
  | cpyvS (z : BitVec 1) (d : BitVec 7) (a : BitVec 7) (k : BitVec 2) (l : BitVec 4)
  /-- SEAL (R173). Closes a path's open set into the next batch. -/
  | seal (z : BitVec 1) (p : BitVec 2)
  /-- WAIT (R173). Holds the strand until a path's unfinished batch count is at most N. -/
  | wait (z : BitVec 1) (u : BitVec 7) (p : BitVec 2)
  /-- PUB (R174). Releases at a scope and requests a publish of an object. -/
  | pub (z : BitVec 1) (d : BitVec 7) (s : BitVec 3) (k : BitVec 2) (l : BitVec 4)
  /-- GATH_E (R172). Gathers elements by index through the base-die gather units. -/
  | gathE (z : BitVec 1) (s : BitVec 2) (d : BitVec 7) (a : BitVec 7) (k : BitVec 2) (l : BitVec 4)
  /-- GATH_X_B16 (R172). Two-hop gather of 2-byte elements through an index object. -/
  | gathXB16 (z : BitVec 1) (d : BitVec 7) (a : BitVec 7) (k : BitVec 2) (l : BitVec 4)
  /-- GATH_X_B32 (R172). Two-hop gather of 4-byte elements through an index object. -/
  | gathXB32 (z : BitVec 1) (d : BitVec 7) (a : BitVec 7) (k : BitVec 2) (l : BitVec 4)
  /-- GATH_X_B64 (R172). Two-hop gather of 8-byte elements through an index object. -/
  | gathXB64 (z : BitVec 1) (d : BitVec 7) (a : BitVec 7) (k : BitVec 2) (l : BitVec 4)
  /-- TLOOK (R84). Looks up an object address in the tag table per thread. -/
  | tlook (z : BitVec 1) (d : BitVec 7) (a : BitVec 7)
  /-- TSET (R84). Sets a tag slot to name an object line, as a CORE release. -/
  | tset (z : BitVec 1) (a : BitVec 7) (b : BitVec 7)
  /-- TINV (R84). Invalidates a tag slot. -/
  | tinv (z : BitVec 1) (b : BitVec 7)
  /-- HCLAIM (R86). Claims a key table from the gang's pool and clears it. -/
  | hclaim (z : BitVec 1) (d : BitVec 7) (i : BitVec 5) (j : BitVec 5) (u : BitVec 3)
  /-- HREL (R176). Releases a key table and its descriptor. -/
  | hrel (z : BitVec 1) (h : BitVec 3)
  /-- HINS (R177). Inserts a key and value per thread into a key table. -/
  | hins (z : BitVec 1) (d : BitVec 7) (a : BitVec 7) (p : BitVec 3) (h : BitVec 3)
  /-- HPRB (R177). Probes a key table per thread. -/
  | hprb (z : BitVec 1) (d : BitVec 7) (a : BitVec 7) (p : BitVec 3) (h : BitVec 3)
  /-- HDEL (R177). Deletes a key per thread from a key table. -/
  | hdel (z : BitVec 1) (d : BitVec 7) (a : BitVec 7) (p : BitVec 3) (h : BitVec 3)
  /-- HACC_ADD (R177). Adds a value into a key's entry, inserting it when absent. -/
  | haccAdd (z : BitVec 1) (d : BitVec 7) (a : BitVec 7) (p : BitVec 3) (h : BitVec 3)
  /-- HACC_MIN (R177). Combines a key's entry with a value by signed minimum. -/
  | haccMin (z : BitVec 1) (d : BitVec 7) (a : BitVec 7) (p : BitVec 3) (h : BitVec 3)
  /-- HACC_MAX (R177). Combines a key's entry with a value by signed maximum. -/
  | haccMax (z : BitVec 1) (d : BitVec 7) (a : BitVec 7) (p : BitVec 3) (h : BitVec 3)
  /-- HACC_OR (R177). Combines a key's entry with a value by bitwise OR. -/
  | haccOr (z : BitVec 1) (d : BitVec 7) (a : BitVec 7) (p : BitVec 3) (h : BitVec 3)
  /-- HACC_FADD (R177). Adds an FP32 value into a key's entry. -/
  | haccFadd (z : BitVec 1) (d : BitVec 7) (a : BitVec 7) (p : BitVec 3) (h : BitVec 3)
  /-- HDRN (R178). Drains up to 32 entries of a key table from a cursor. -/
  | hdrn (z : BitVec 1) (d : BitVec 7) (a : BitVec 7) (p : BitVec 3) (h : BitVec 3)
  /-- HDRN_DEL (R178). Drains and deletes up to 32 entries of a key table from a cursor. -/
  | hdrnDel (z : BitVec 1) (d : BitVec 7) (a : BitVec 7) (p : BitVec 3) (h : BitVec 3)
  /-- PLN (R261). Converts the active threads' values into a plane block in the scratchpad. -/
  | pln (z : BitVec 1) (a : BitVec 7) (u : BitVec 6) (p : BitVec 4) (e : BitVec 1) (s : BitVec 2)
  /-- UPLN (R262). Reads a plane block and writes each element to its thread. -/
  | upln (z : BitVec 1) (d : BitVec 7) (u : BitVec 6) (t : BitVec 2)
  /-- MZ (R263). Zeroes this core's quarter of a tile and sets its window. -/
  | mz (z : BitVec 1) (n : BitVec 3) (w : BitVec 9)
  /-- MRD (R266). Converts rows of this core's tile quarter into vector registers. -/
  | mrd (z : BitVec 1) (d : BitVec 7) (n : BitVec 3) (r : BitVec 4) (l : BitVec 3) (h : BitVec 1) (f : BitVec 1)
  /-- MLD (R264). Queues a write of this core's tile quarter from the scratchpad. -/
  | mld (z : BitVec 1) (n : BitVec 3) (u : BitVec 6) (g : BitVec 1) (l : BitVec 4)
  /-- MMA (R265). Issues one member's part of a joint plane matrix operation. -/
  | mma (z : BitVec 1) (n : BitVec 3) (u : BitVec 5) (a : BitVec 1) (b : BitVec 1) (p : BitVec 4) (l : BitVec 4)
  /-- MMT (R265). Issues one member's part of a joint TS8 matrix operation. -/
  | mmt (z : BitVec 1) (n : BitVec 3) (u : BitVec 5) (a : BitVec 1) (b : BitVec 1) (p : BitVec 4) (l : BitVec 4)
  /-- BR (R310). Branches unconditionally. -/
  | br (z : BitVec 1) (o : BitVec 20)
  /-- BRC (R310). Branches the whole path on the lowest active thread's predicate. -/
  | brc (z : BitVec 1) (p : BitVec 3) (o : BitVec 20)
  /-- BRD (R294). Divergent branch that splits the strand or pushes a stack entry. -/
  | brd (z : BitVec 1) (p : BitVec 3) (o : BitVec 20)
  /-- CALL (R311). Writes the link and branches. -/
  | call (z : BitVec 1) (k : BitVec 3) (o : BitVec 20)
  /-- JOIN (R295). Switches sides, rejoins a level, or rejoins a split. -/
  | join (z : BitVec 1)
  /-- BRX (R313). Branches through a bounded jump table to a landing pad. -/
  | brx (z : BitVec 1) (i : BitVec 6) (o : BitVec 14)
  /-- LPAD (R314). Landing pad that does nothing when executed. -/
  | lpad (z : BitVec 1) (c : BitVec 1) (l : BitVec 12)
  /-- CALLX (R312). Indirect call to a checked landing pad. -/
  | callx (z : BitVec 1) (k : BitVec 7) (t : BitVec 7)
  /-- RET (R312). Returns to the link of the lowest active thread. -/
  | ret (z : BitVec 1) (k : BitVec 7)
  /-- EXIT (R315). Removes qualifying threads and ends the strand when none remain. -/
  | exit (z : BitVec 1)
  /-- YLD (R316). Ends the run and resets the path's age. -/
  | yld (z : BitVec 1)
  /-- NOP (R316). Has no effect. -/
  | nop (z : BitVec 1)
  /-- BAR_ARRIVE (R339). Arrives at a barrier slot as a release. -/
  | barArrive (z : BitVec 1) (n : BitVec 7) (d : BitVec 1) (s : BitVec 3) (t : BitVec 6)
  /-- BAR_WAIT (R339). Waits for a barrier phase to complete, then acquires. -/
  | barWait (z : BitVec 1) (s : BitVec 3) (t : BitVec 6)
  /-- BAR_ARRIVE_WAIT (R339). Arrives at a barrier slot and waits for the phase. -/
  | barArriveWait (z : BitVec 1) (n : BitVec 7) (d : BitVec 1) (s : BitVec 3) (t : BitVec 6)
  /-- BART (R341). Adds to or initialises a CORE slot's pending-byte counter. -/
  | bart (z : BitVec 1) (v : BitVec 7) (i : BitVec 1) (s : BitVec 5)
  /-- FENCE (R278). Scoped acquire, release, acq-rel or sequentially consistent fence. -/
  | fence (z : BitVec 1) (s : BitVec 3) (k : BitVec 2)
  /-- SPWN (R333). Forms one task record per active thread, splitting weight, and enqueues it. -/
  | spwn (z : BitVec 1) (a : BitVec 7) (h : BitVec 1) (c : BitVec 1) (l : BitVec 4)
  /-- TAKE (R334). Takes a matching queued record from the quad's queue. -/
  | take (z : BitVec 1) (d : BitVec 7) (a : BitVec 7) (l : BitVec 4)
  /-- DONE (R335). Returns weight and decrements a successor counter. -/
  | done (z : BitVec 1) (a : BitVec 7) (s : BitVec 1)
  /-- WAITQ (R337). Returns the secondary holding and waits for the domain to quiesce. -/
  | waitq (z : BitVec 1) (d : BitVec 7)
  /-- QDOM (R336). Allocates a quiescence domain and a secondary holding. -/
  | qdom (z : BitVec 1) (d : BitVec 7)
  /-- GIVE (R300). Returns register blocks from the strand's allotment. -/
  | give (z : BitVec 1) (n : BitVec 4)
  /-- CLAIM (R301). Requests register blocks for the strand's allotment. -/
  | claim (z : BitVec 1) (n : BitVec 4)
  /-- SRD (R361). Reads a special register into a vector destination. -/
  | srd (z : BitVec 1) (d : BitVec 7) (i : BitVec 8)
  /-- SRD_U (R361). Reads a special register into a uniform destination. -/
  | srdU (z : BitVec 1) (d : BitVec 7) (i : BitVec 8)
  /-- SWR (R362). Writes a uniform register to NFR or RSEL. -/
  | swr (z : BitVec 1) (a : BitVec 7) (i : BitVec 8)
  /-- TRAP (R359). Raises 0xBF for each qualifying active thread. -/
  | trap (z : BitVec 1) (i : BitVec 16)
  /-- RSM (R356). Handler resumes the stopped strand, with or without re-execution. -/
  | rsm (z : BitVec 1) (r : BitVec 1)
  /-- KILL (R357). Handler removes faulting or all threads and resumes the strand. -/
  | kill (z : BitVec 1) (a : BitVec 1)
  /-- BKPT (R375). Raises 0xB0 for the whole strand when breakpoints are enabled. -/
  | bkpt (z : BitVec 1)
  /-- HX (R358). Handler passes the stopped strand's records to the host. -/
  | hx (z : BitVec 1)
  /-- HINT_WIDE (R140). Hint word giving a wide immediate or offset to the next instruction. -/
  | hintWide (w : BitVec 21)
  /-- HINT_MOD (R140). Hint word giving rounding, saturation, negation, cache and D64 modifiers. -/
  | hintMod (e : BitVec 1) (c : BitVec 2) (n : BitVec 1) (m : BitVec 1) (a : BitVec 1) (s : BitVec 1) (r : BitVec 1) (q : BitVec 2)
  /-- HINT_THIRD (R140). Hint word naming a third source register. -/
  | hintThird (t : BitVec 7)
  /-- HINT_GUARD (R141). Hint word guarding the next instruction by a predicate. -/
  | hintGuard (n : BitVec 1) (p : BitVec 3)
  /-- HINT_RTAG (R140). Hint word naming a surrogate region. -/
  | hintRtag (r : BitVec 8)
  /-- HINT_TTAG (R140). Hint word naming a team tag. -/
  | hintTtag (t : BitVec 16)
  /-- HINT_CREDIT (R140). Hint word crediting bytes to a CORE barrier slot. -/
  | hintCredit (s : BitVec 5)
  /-- LANE_RUN_START (R290). The free lane chooses a ready path by arbitration and starts its run. -/
  | laneRunStart (core : Nat) (lane : Nat)
  /-- STALL_CAP_EXPIRY (R286). A path held 512 die cycles by the scoreboard ends its run and counts a stalled-run event. -/
  | stallCapExpiry (strand : Nat) (path : Nat)
  /-- LOAD_DATA_RETURN (R160). Load data returns from the L1, slice, bank or host and writes the destination. -/
  | loadDataReturn (op : Nat)
  /-- L1_FILL_RETURN (R76). A fill returns, serves its threads, and is installed unless an invalidation intervened. -/
  | l1FillReturn (core : Nat) (line : Nat)
  /-- STORE_AT_HOME (R269). A store takes effect at its home slice, bank or host memory. -/
  | storeAtHome (op : Nat)
  /-- STORE_ACK (R269). A store acknowledgement returns, updates a present L1 line and finishes the operation. -/
  | storeAck (op : Nat)
  /-- SLICE_ATOMIC_LINE_OP (R47). A slice applies one atomic line operation, elements in thread order. -/
  | sliceAtomicLineOp (op : Nat) (line : Nat)
  /-- ATOMIC_RESULT_RETURN (R164). An atomic's old values or acknowledgement return to the core. -/
  | atomicResultReturn (op : Nat)
  /-- AOADD_SLICE_APPLY (R166). The slice applies a parked AOADD request when TURN equals its rank. -/
  | aoaddSliceApply (op : Nat)
  /-- AOADD_RESEND (R166). A returned AOADD request is sent again after 256 die cycles. -/
  | aoaddResend (op : Nat)
  /-- KEY_SPILL_APPEND (R89). The home slice reserves a spill entry atomically or reports it full. -/
  | keySpillAppend (op : Nat)
  /-- COPY_ENGINE_ACCEPT (R60). A copy engine accepts a line operation from a core's coalescer. -/
  | copyEngineAccept (op : Nat) (line : Nat)
  /-- COPY_LINE_OP_COMPLETE (R60). A copy engine finishes a line operation's reads and writes. -/
  | copyLineOpComplete (op : Nat) (line : Nat)
  /-- CPYV_TILE_OP (R61). The destination slice applies a tile operation's compares and commits in thread order. -/
  | cpyvTileOp (op : Nat) (line : Nat)
  /-- GATHER_UNIT_REQUEST (R40). A stack's gather unit receives a request part and reads its elements. -/
  | gatherUnitRequest (op : Nat) (part : Nat)
  /-- GATHER_FORWARD (R40). A forwarded second-hop GATH.x request reaches the unit that holds the value. -/
  | gatherForward (op : Nat) (part : Nat)
  /-- GATHER_BURST_RETURN (R39). A gather burst returns and its elements are placed in their destinations. -/
  | gatherBurstReturn (op : Nat) (part : Nat)
  /-- LDSUM_REQUEST (R53). The local reduction point receives an LDSUM request or fails it when full. -/
  | ldsumRequest (op : Nat)
  /-- LDSUM_MEMBER_REQUEST (R53). A member allocates an entry, forwards to its children and reads its element. -/
  | ldsumMemberRequest (tag : Nat)
  /-- LDSUM_PARTIAL (R52). A member receives a child's partial and, when complete, sends its own partial. -/
  | ldsumPartial (tag : Nat) (child : Nat)
  /-- LDSUM_RESULT (R53). The root's P(0) reaches the requester, which writes destinations and predicates. -/
  | ldsumResult (op : Nat)
  /-- LDSUM_TIMEOUT (R54). A reduction exceeds 2^TOLOG die cycles and completes as failed. -/
  | ldsumTimeout (op : Nat)
  /-- LDSUM_ENTRY_TIMEOUT (R54). A member frees a reduction entry after 2^TOLOG of its own die cycles. -/
  | ldsumEntryTimeout (tag : Nat)
  /-- PUBLISH_REQUEST (R31). The home unit receives a publish request from PUB or the port. -/
  | publishRequest (pub : Nat)
  /-- PUBLISH_SWAP (R31). After retirement, unpinning and shadow drain, the home unit checks the shadow and swaps CUR. -/
  | publishSwap (pub : Nat)
  /-- PUBLISH_INVALIDATE_DIE (R31). A die drops the record from its caches, invalidates ROL lines and acknowledges. -/
  | publishInvalidateDie (pub : Nat) (die : Nat)
  /-- PUBLISH_COMPLETE (R31). All dies have acknowledged and the publish completes. -/
  | publishComplete (pub : Nat)
  /-- GENERATION_RETIRED (R34). The previous generation's in-flight counts reach zero with no pin. -/
  | generationRetired (ctx : Nat) (obj : Nat)
  /-- PUBLISH_PORT_REQUEST (R36). A write of OPCMD requests a host publish, or is dropped while busy. -/
  | publishPortRequest (value : Nat)
  /-- PIN_RELEASE (R33). A graph pin is released and a waiting pin request or publish may proceed. -/
  | pinRelease (ctx : Nat) (obj : Nat) (gen : Nat)
  /-- DIE_LINK_FAILURE (R49). A die link fails at run time and accesses crossing it raise 0xB2. -/
  | dieLinkFailure (link : Nat)
  /-- WILMO_PORT_FAILURE (R50). A Wilmo port fails and is removed from the routes. -/
  | wilmoPortFailure (port : Nat)
  /-- L1_SOFT_ERROR (R75). A soft error in an L1 line drops the line. -/
  | l1SoftError (core : Nat) (line : Nat)
  /-- CORRECTED_ERROR (R369). A unit's ECC corrects an error and its window count rises. -/
  | correctedError (die : Nat) (cls : Nat) (unit : Nat)
  /-- SOFT_ERROR_WINDOW (R369). A 2^34-cycle window starts and the die's error counts clear. -/
  | softErrorWindow (die : Nat)
  /-- HCLAIM_CLEAR_DONE (R176). HCLAIM's 16u-cycle table clearing completes. -/
  | hclaimClearDone (op : Nat)
  /-- STBL_COPY_DONE (R212). An STBL copy into the inactive bank completes. -/
  | stblCopyDone (op : Nat)
  /-- SLD_COPY_DONE (R241). An SLD copy into a model slot's inactive bank completes. -/
  | sldCopyDone (op : Nat)
  /-- BANK_SWAP_NOTICE (R211). A core takes a table or model slot's new active-bank bit. -/
  | bankSwapNotice (op : Nat) (core : Nat)
  /-- BANK_SWAP_COMPLETE (R211). TSWP or SSW completes once every run on the old bank has ended. -/
  | bankSwapComplete (op : Nat)
  /-- RECOVERY_STRAND_FORM (R232). A free recovery slot forms a recovery strand from up to 32 queued entries. -/
  | recoveryStrandForm (core : Nat) (slot : Nat)
  /-- REGION_COUNTER_UPDATE (R235). A region state record's slice applies an SRG or merge increment. -/
  | regionCounterUpdate (upd : Nat)
  /-- REGION_DISABLE_NOTICE (R236). A core is told a region is disabled and its later SRGs fall through. -/
  | regionDisableNotice (core : Nat) (ctx : Nat) (region : Nat)
  /-- REGEN_WRITE (R237). Host write re-enables a region, optionally clearing VIOL or INIT. -/
  | regenWrite (value : Nat)
  /-- REGION_ENABLE_NOTICE (R237). A core is told of a region's re-enable. -/
  | regionEnableNotice (core : Nat) (ctx : Nat) (region : Nat)
  /-- QSET_COMPLETE (R242). QSET completes when every core has dropped the region's quality record. -/
  | qsetComplete (op : Nat)
  /-- JOINT_OP_COMMIT (R256). A joint operation's sub-steps end and it commits to all four tiles, or aborts on an error. -/
  | jointOpCommit (op : Nat)
  /-- MLD_COMPLETE (R264). An MLD writes its tile quarter and finishes. -/
  | mldComplete (op : Nat)
  /-- CLAIM_GRANT (R301). A lane grants the CLAIM request at its head once blocks are free. -/
  | claimGrant (core : Nat) (lane : Nat)
  /-- CLAIM_STARVATION (R301). A CLAIM at the head for 2^16 die cycles marks other gangs for swap. -/
  | claimStarvation (core : Nat) (lane : Nat)
  /-- TKPORT_WRITE (R320). A 64-byte posted write to TKPORT submits a host task record, or is dropped. -/
  | tkportWrite (off : Nat) (size : Nat) (data : Nat)
  /-- DISPATCHER_TAKE (R318). The dispatcher takes a task record, checks it and its header, and pins graphs. -/
  | dispatcherTake
  /-- LAUNCH_EXPAND (R319). The dispatcher issues the next gang record of a LAUNCH when there is room. -/
  | launchExpand (launch : Nat)
  /-- TASK_SPILL_TAKE (R322). A quad with room below the ceiling takes the spilled record at HEAD. -/
  | taskSpillTake (quad : Nat) (ctx : Nat)
  /-- OVERFLOW_BUFFER_RETRY (R322). A released record waiting in the overflow buffer is dispatched when room appears. -/
  | overflowBufferRetry
  /-- GANG_PLACE (R304). A quad places the oldest fitting record on a core, restoring or starting the gang. -/
  | gangPlace (quad : Nat)
  /-- OLDEST_RECORD_HOLD (R304). The oldest record has waited one quantum and blocks younger placements. -/
  | oldestRecordHold (quad : Nat)
  /-- QUANTUM_EXPIRY (R306). A gang's quantum ends and it is marked for swap when a queued record needs room. -/
  | quantumExpiry (core : Nat)
  /-- GANG_SWAP_SAVE (R363). A marked gang, once drained and undeferred, is saved and its record requeued. -/
  | gangSwapSave (gang : Nat)
  /-- STEAL_START (R323). An idle quad below the ceiling chooses a victim record to steal. -/
  | stealStart (quad : Nat)
  /-- STEAL_COPY_ARRIVE (R324). A lent copy reaches the thief, which holds it pending and sends ACK. -/
  | stealCopyArrive (steal : Nat)
  /-- STEAL_ACK_ARRIVE (R324). An ACK reaches the victim, which frees the entry and confirms, or refuses. -/
  | stealAckArrive (steal : Nat)
  /-- STEAL_HANDOFF_TIMEOUT (R324). A lent entry's 2^HOLOG timer expires and it is queued again. -/
  | stealHandoffTimeout (steal : Nat)
  /-- STEAL_CONFIRM_ARRIVE (R324). CONFIRM reaches the thief and the copy becomes queued. -/
  | stealConfirmArrive (steal : Nat)
  /-- STEAL_REFUSE_ARRIVE (R324). REFUSE reaches the thief and the copy is discarded. -/
  | stealRefuseArrive (steal : Nat)
  /-- SUCCESSOR_DECREMENT (R325). A decrement reaches the counter's slice, passing weight or releasing a record. -/
  | successorDecrement (msg : Nat)
  /-- DOMAIN_RETURN (R328). A Beacon adds returned weight to RETURNED and wakes a WAITQ when it equals ISSUED. -/
  | domainReturn (msg : Nat)
  /-- STRAND_STOP (R345). After draining, a stopped strand's image and fault records are written and routed. -/
  | strandStop (strand : Nat)
  /-- FAULT_QUEUE_APPEND (R350). A record is appended to the context fault queue once room exists. -/
  | faultQueueAppend (ctx : Nat)
  /-- HRSM_RSM (R360). Host resumes a host-stopped strand without re-execution. -/
  | hrsmRsm (value : Nat)
  /-- HRSM_RSM_RX (R360). Host resumes a host-stopped strand with re-execution. -/
  | hrsmRsmRx (value : Nat)
  /-- HRSM_KILL (R360). Host kills the faulting threads of a stopped strand and resumes it. -/
  | hrsmKill (value : Nat)
  /-- HRSM_KILL_ALL (R360). Host kills every thread of a stopped strand. -/
  | hrsmKillAll (value : Nat)
  /-- CTXCTL_NONE (R363). CTXCTL operation 0 completes at once. -/
  | ctxctlNone (value : Nat)
  /-- CTXCTL_STOP (R363). Host marks every gang of a context for swap and places none of its records. -/
  | ctxctlStop (value : Nat)
  /-- CTXCTL_START (R363). Host starts a context after checking its record's VALID, or refuses. -/
  | ctxctlStart (value : Nat)
  /-- CTXCTL_KILL (R363). Host kills every strand of a context and discards its records. -/
  | ctxctlKill (value : Nat)
  /-- CTXCTL_COMPLETE (R363). A stop or kill finishes, sets DONE and posts a kind-8 interrupt record. -/
  | ctxctlComplete
  /-- ENERGY_WINDOW (R368). Every 4,096 die cycles a core divides static units and adds charges to PSUM. -/
  | energyWindow (core : Nat)
  /-- DSTOP_STOP (R373). Host requests a stop of a strand or every strand of a gang. -/
  | dstopStop (value : Nat)
  /-- DSTOP_STEP (R373). Host sets the step flag of a stopped strand. -/
  | dstopStep (value : Nat)
  /-- INTERRUPT_RECORD_APPEND (R388). An interrupt record is appended to the host ring when room exists and MSI-X is signalled. -/
  | interruptRecordAppend
  /-- APERTURE_ACCESS (R386). A host read or write through BAR2 reaches the system space via the memory-side cache. -/
  | apertureAccess (write : Nat) (addr : Nat) (size : Nat) (data : Nat)
  /-- REGISTER_WRITE (R14). A host write to a window register with no row of its own, by its access type. -/
  | registerWrite (off : Nat) (size : Nat) (value : Nat)
  /-- CLKCTL_RATE_WRITE (R396). Host requests a clock rate, stored during a thermal hold. -/
  | clkctlRateWrite (value : Nat)
  /-- CLOCK_CHANGE_EFFECTIVE (R396). An announced clock change takes effect at its cycle. -/
  | clockChangeEffective
  /-- POWER_WINDOW (R396). Every 4,096 die cycles the power manager compares power with LIMIT and adjusts the gated share. -/
  | powerWindow (watts : Nat)
  /-- SENSOR_SAMPLE (R395). Every 4,096 die cycles the quad-column sensors are read. -/
  | sensorSample (quad : Nat) (tcd : Nat) (tbd : Nat)
  /-- THERMAL_HOLD_END (R396). All readings stay below 110 °C for 2^20 cycles and the hold ends. -/
  | thermalHoldEnd
  /-- PACKAGE_RESET (R393). A reset starts the security processor's boot sequence. -/
  | packageReset
  /-- BOOTCLR_CLEAR (R394). Host removes a failed mark or step-8 entry from the boot log. -/
  | bootclrClear (value : Nat)
  /-- BOOTCLR_RESET (R394). Host resets the package and starts a new boot. -/
  | bootclrReset (value : Nat)
  /-- ATTEST_REQUEST (R398). A write of ATTCMD[0] asks the security processor to sign a report. -/
  | attestRequest (value : Nat)
  /-- ATTEST_DONE (R398). The security processor finishes signing the report and sets DONE. -/
  | attestDone
  /-- SIDEBAND_REQUEST (R397). A board management controller reaches permitted registers over MCTP. -/
  | sidebandRequest (off : Nat) (write : Nat) (value : Nat)
  /-- PCIE_COMPLETION_TIMEOUT (R346). A host-placed access gets no PCIe completion in time and raises 0x28 for the threads concerned. -/
  | pcieCompletionTimeout (op : Nat)
  /-- HARD_FAULT (R330). A hard fault, such as a quad reset, destroys a record or holding; its weight is added to RETURNED, the domain is marked BROKEN and a 0x61 record reports the loss. -/
  | hardFault (quad : Nat) (item : Nat)
  /-- POD_BARRIER_ARRIVAL (R338). An arrival at a POD-scope barrier slot made in another package reaches this package over the Wilmo links, and may complete the phase and release local waiters. -/
  | podBarrierArrival (ctx : Nat) (slot : Nat) (expected : Nat)
  deriving DecidableEq, Repr

end Sys2Proof
end

