-- ==== Sys2Proof/WellFormed.lean ====
section
/-!
DEFINITION. Sys2Proof/WellFormed.lean: which instructions have a word of encoding version 3. The checks are those of
06_encoding R146 orders 3, 5 and 6 that the word alone decides: reserved function and variant codes, register codes by their
role (R134), even and aligned group codes (R155, R157), scope codes (R10) and the special cases of each instruction's entry.
-/

namespace Sys2Proof

/-- A vector destination: codes 112-127 raise 0x01 (R134). -/
def vdst (c : BitVec 7) : Bool := decide (c.toNat < 112)
/-- A uniform operand: codes 64-127 raise 0x01 (R134). -/
def uni (c : BitVec 7) : Bool := decide (c.toNat < 64)
/-- A predicate named in a register field: codes 8-127 raise 0x01 (R134). -/
def pred (c : BitVec 7) : Bool := decide (c.toNat < 8)
/-- The code of a pair (R95, R157). -/
def even (c : BitVec 7) : Bool := decide (c.toNat % 2 = 0)
/-- The code of a group of four (R157). -/
def quad (c : BitVec 7) : Bool := decide (c.toNat % 4 = 0)
/-- An even uniform code, naming a pair. -/
def upair (c : BitVec 7) : Bool := uni c && even c
/-- A uniform code, a multiple of 4 up to 60 (R240). -/
def uquad (c : BitVec 7) : Bool := uni c && quad c
/-- A broadcast pair code (R165). -/
def bpair (c : BitVec 7) : Bool := decide (112 ≤ c.toNat) && even c
/-- Three register operands of an ALU major: all uniform when x = 1, else a vector destination (R134, R135). -/
def rrr (x : BitVec 1) (d a b : BitVec 7) : Bool := if x == 1 then uni d && uni a && uni b else vdst d
/-- Two register operands of an ALU major. -/
def rr (x : BitVec 1) (d a : BitVec 7) : Bool := if x == 1 then uni d && uni a else vdst d
/-- The size in bytes of a format code that has a fixed size, 0 for every other code (05_registers R106). -/
def formatBytes (c : Nat) : Nat :=
  if c = 0x01 ∨ c = 0x02 then 1 else if c = 0x03 ∨ c = 0x04 then 2 else if c = 0x05 ∨ c = 0x06 then 4
  else if c = 0x07 ∨ c = 0x08 then 8 else if c = 0x10 then 4 else if c = 0x11 ∨ c = 0x12 then 2
  else if c = 0x13 ∨ c = 0x14 ∨ c = 0x15 then 1 else 0
/-- The codes a conversion accepts: every defined code but PLN and GRID (R107). -/
def cvtFormat (c : Nat) : Bool := formatBytes c != 0
/-- The codes FMT accepts (R196). -/
def floatFormat (c : Nat) : Bool := decide (0x10 ≤ c) && decide (c ≤ 0x15)
/-- A 64-bit integer format. -/
def wide64 (c : Nat) : Bool := c == 0x07 || c == 0x08
/-- The element count of FMT: 4 when either format has 8 bits, else 2 (R196). -/
def fmtCount (s t : Nat) : Nat := if formatBytes s = 1 ∨ formatBytes t = 1 then 4 else 2
/-- The registers FMT's group of format c takes (R196). -/
def fmtRegs (s t c : Nat) : Nat := (fmtCount s t * formatBytes c + 3) / 4
/-- The alignment of a group of n registers (R157). -/
def groupAligned (n : Nat) (c : BitVec 7) : Bool := if n = 4 then quad c else if n = 2 then even c else true
/-- The alignment of an atomic's d7 (R163), the grid form of ATOM apart. -/
def atomAligned (o : BitVec 4) (d : BitVec 7) : Bool :=
  if o == 1 || o == 10 || o == 11 then even d else if o == 12 then quad d else true
/-- The special registers SRD reads (R101). -/
def specialRegister (c : Nat) : Bool :=
  decide (c ≤ 0x15) || c == 0x18 || c == 0x1F || (decide (0x20 ≤ c) && decide (c ≤ 0x26))

/-- The instruction has a word of encoding version 3. A step without words has none. -/
def Instr.wf : Instr → Bool
  | .iadd z d a b x => rrr x d a b && !(z == 0 && d == 0 && a == 0 && b == 0 && x == 0)
  | .isub _ d a b x => rrr x d a b
  | .imul _ d a b x => rrr x d a b
  | .imulh _ d a b x => rrr x d a b
  | .imad _ d a b x => rrr x d a b
  | .min _ d a b x => rrr x d a b
  | .max _ d a b x => rrr x d a b
  | .lea _ d a b x => rrr x d a b && even d && even a
  | .shl _ d a b x => rrr x d a b
  | .shr _ d a b x => rrr x d a b
  | .sar _ d a b x => rrr x d a b
  | .and _ d a b x => rrr x d a b
  | .or _ d a b x => rrr x d a b
  | .xor _ d a b x => rrr x d a b
  | .andn _ d a b x => rrr x d a b
  | .iabs _ d a x => rr x d a
  | .clz _ d a x => rr x d a
  | .popc _ d a x => rr x d a
  | .brev _ d a x => rr x d a
  | .mov _ d a x => rr x d a
  | .bfx _ d a b x => rrr x d a b
  | .bfi _ d a b x => rrr x d a b
  | .icmp _ _ d a b x => pred d && (x == 0 || (uni a && uni b))
  | .sel _ _ d a b x => rrr x d a b
  | .movi _ d _ => vdst d
  | .iaddI _ d _ _ => vdst d
  | .shlI _ d _ _ => vdst d
  | .shrI _ d _ _ => vdst d
  | .sarI _ d _ _ => vdst d
  | .andI _ d _ _ => vdst d
  | .orI _ d _ _ => vdst d
  | .xorI _ d _ _ => vdst d
  | .moviU _ d _ => uni d
  | .iaddIu _ d a _ => uni d && uni a
  | .shlIu _ d a _ => uni d && uni a
  | .shrIu _ d a _ => uni d && uni a
  | .sarIu _ d a _ => uni d && uni a
  | .andIu _ d a _ => uni d && uni a
  | .orIu _ d a _ => uni d && uni a
  | .xorIu _ d a _ => uni d && uni a
  | .fadd _ d a b x => rrr x d a b
  | .fsub _ d a b x => rrr x d a b
  | .fmul _ d a b x => rrr x d a b
  | .ffma _ d a b x => rrr x d a b
  | .fmin _ d a b x => rrr x d a b
  | .fmax _ d a b x => rrr x d a b
  | .frnd _ d a x => rr x d a
  | .fcls _ d a x => rr x d a
  | .fcmp _ _ d a b x => pred d && (x == 0 || (uni a && uni b))
  | .hadd2 _ _ d a b x => rrr x d a b
  | .hmul2 _ _ d a b x => rrr x d a b
  | .hfma2 _ _ d a b x => rrr x d a b
  | .fdot2 _ _ d a b x => rrr x d a b
  | .cvt _ s d a t => cvtFormat s.toNat && cvtFormat t.toNat && vdst d && (!wide64 s.toNat || even a) && (!wide64 t.toNat || even d)
  | .pack _ _ d a b x => rrr x d a b
  | .unpk _ m d a b x => decide (m.toNat < 6) && rrr x d a b
  | .fmt _ s d a t => floatFormat s.toNat && floatFormat t.toNat && (formatBytes s.toNat != formatBytes t.toNat) && vdst d && groupAligned (fmtRegs s.toNat t.toNat s.toNat) a && groupAligned (fmtRegs s.toNat t.toNat t.toNat) d
  | .shfl _ m d _ _ => decide (m.toNat < 5) && vdst d
  | .vote _ m d a => decide (m.toNat < 5) && (if m == 3 then true else pred a) && (if m == 0 || m == 1 || m == 3 then pred d else vdst d)
  | .rdfl _ d _ b => (b == 0 && vdst d) || (b == 1 && uni d)
  | .prfx _ d _ b => decide (b.toNat < 4) && vdst d
  | .conf _ d _ b => pred b && vdst d
  | .kcomb _ d _ b => decide (b.toNat < 4) && vdst d
  | .rebal _ d _ _ => even d && vdst d
  | .mask _ d b => decide (b.toNat < 4) && vdst d
  | .sfe _ d _ f _ u => vdst d && (decide (f.toNat < 12) || (decide (16 ≤ f.toNat) && decide (f.toNat < 24))) && u == 0
  | .stbl _ t p _ => decide (t.toNat < 8) && upair p
  | .tswp _ t _ => decide (t.toNat < 8)
  | .lz _ _ => true
  | .ladd _ _ _ _ => true
  | .lmrg _ a _ q _ => uni a && (q == 0 || even a)
  | .lst _ a _ q _ => uni a && (q == 0 || even a)
  | .lrd _ d _ => uni d
  | .lvar _ d a => uni d && uni a
  | .srg _ j _ => j != 0
  | .sjn _ => true
  | .sld _ s p _ => uni s && upair p
  | .ssw _ s _ => uni s
  | .qset _ u _ => uquad u
  | .sctr _ u o _ => uquad u && o != 3
  | .sdis _ => true
  | .ldG _ s d _ _ _ u => vdst d && (s != 3 || even d) && u == 0
  | .ldGExt _ s d _ _ _ u => s != 3 && vdst d && (s != 0 || quad d) && u == 0
  | .ldS _ s d _ _ _ u => vdst d && (s != 3 || even d) && u == 0
  | .ldSExt _ s d _ _ _ u => s != 3 && vdst d && (s != 0 || quad d) && u == 0
  | .stG _ s d _ _ _ u => (s != 3 || even d) && u == 0
  | .stS _ s d _ _ _ u => (s != 3 || even d) && u == 0
  | .atom _ o d _ _ _ => o != 15 && vdst d && atomAligned o d && (o != 14 || quad d)
  | .red _ o d _ _ _ => !(o == 9 || o == 10 || o == 11 || o == 12 || o == 15) && atomAligned o d
  | .stGB128 _ d _ _ _ => quad d
  | .stSB128 _ d _ _ => quad d
  | .aoaddB32 _ d a _ => bpair a && vdst d
  | .aoaddB64 _ d a _ => bpair a && vdst d && even d
  | .ldsumB32 _ d a _ _ => even a && vdst d
  | .ldsumB64 _ d a _ _ => even a && vdst d && even d
  | .ldsumG _ d a _ _ => even a && vdst d && quad d
  | .ldsumF32 _ d a _ _ => even a && vdst d
  | .lduB32 _ d a _ _ => uni d && uni a
  | .lduB64 _ d a _ _ => uni d && uni a && even d
  | .pref _ _ _ => true
  | .cpySFromG _ s _ _ _ _ u => s != 3 && u == 0
  | .cpyGFromS _ s _ _ _ _ u => s != 3 && u == 0
  | .cpySFromS _ s _ _ _ => s != 3
  | .cpyGFromGB4 _ _ _ _ _ => true
  | .cpyGFromGB8 _ _ _ _ _ => true
  | .cpyGFromGB16 _ _ _ _ _ => true
  | .cpyvG _ d _ _ _ => vdst d && even d
  | .cpyvS _ d _ _ _ => vdst d && even d
  | .seal _ _ => true
  | .wait _ u _ => uni u
  | .pub _ d s _ _ => uni d && decide (s.toNat < 6)
  | .gathE _ s d _ _ _ => s != 3 && vdst d && (s != 2 || even d)
  | .gathXB16 _ d _ _ _ => vdst d
  | .gathXB32 _ d _ _ _ => vdst d
  | .gathXB64 _ d _ _ _ => vdst d && even d
  | .tlook _ d a => vdst d && even a
  | .tset _ a _ => even a
  | .tinv _ _ => true
  | .hclaim _ d _ _ _ => uni d
  | .hrel _ _ => true
  | .hins _ d a _ _ => vdst d && even d && even a
  | .hprb _ d a _ _ => vdst d && even d && even a
  | .hdel _ d a _ _ => vdst d && even d && even a
  | .haccAdd _ d a _ _ => even d && even a
  | .haccMin _ d a _ _ => even d && even a
  | .haccMax _ d a _ _ => even d && even a
  | .haccOr _ d a _ _ => even d && even a
  | .haccFadd _ d a _ _ => even d && even a
  | .hdrn _ d a _ _ => vdst d && quad d && uni a
  | .hdrnDel _ d a _ _ => vdst d && quad d && uni a
  | .pln _ _ _ p _ s => s != 3 || p == 8
  | .upln _ d _ _ => vdst d
  | .mz _ _ _ => true
  | .mrd _ d _ r l h f => vdst d && decide (l.toNat ≤ 4) && decide (r.toNat + 2 ^ l.toNat ≤ 16) && !(f == 1 && h == 1)
  | .mld _ _ _ _ _ => true
  | .mma _ _ _ _ _ _ _ => true
  | .mmt _ _ _ _ _ _ _ => true
  | .br _ _ => true
  | .brc _ _ _ => true
  | .brd _ _ _ => true
  | .call _ _ _ => true
  | .join _ => true
  | .brx _ _ o => o != 0
  | .lpad _ _ _ => true
  | .callx _ k _ => vdst k
  | .ret _ _ => true
  | .exit _ => true
  | .yld _ => true
  | .nop _ => true
  | .barArrive _ n d s _ => decide (1 ≤ s.toNat) && decide (s.toNat < 6) && uni n && (d == 0 || (n == 0 && decide (s.toNat < 3)))
  | .barWait _ s _ => decide (1 ≤ s.toNat) && decide (s.toNat < 6)
  | .barArriveWait _ n d s _ => decide (1 ≤ s.toNat) && decide (s.toNat < 6) && uni n && (d == 0 || (n == 0 && decide (s.toNat < 3)))
  | .bart _ v _ _ => uni v
  | .fence _ s _ => decide (s.toNat < 6)
  | .spwn _ _ _ _ _ => true
  | .take _ d a _ => uni d && uni a
  | .done _ a s => uni a && (s == 1 || a == 0)
  | .waitq _ d => uni d
  | .qdom _ d => uni d
  | .give _ n => decide (1 ≤ n.toNat) && decide (n.toNat ≤ 13)
  | .claim _ n => decide (1 ≤ n.toNat) && decide (n.toNat ≤ 13)
  | .srd _ d i => vdst d && specialRegister i.toNat
  | .srdU _ d i => uni d && specialRegister i.toNat
  | .swr _ a i => uni a && (i == 0x18 || i == 0x1F)
  | .trap _ _ => true
  | .rsm _ _ => true
  | .kill _ _ => true
  | .bkpt _ => true
  | .hx _ => true
  | .hintWide _ => true
  | .hintMod _ c _ _ _ _ _ _ => c != 3
  | .hintThird _ => true
  | .hintGuard _ _ => true
  | .hintRtag _ => true
  | .hintTtag _ => true
  | .hintCredit _ => true
  | .laneRunStart _ _ => false
  | .stallCapExpiry _ _ => false
  | .loadDataReturn _ => false
  | .l1FillReturn _ _ => false
  | .storeAtHome _ => false
  | .storeAck _ => false
  | .sliceAtomicLineOp _ _ => false
  | .atomicResultReturn _ => false
  | .aoaddSliceApply _ => false
  | .aoaddResend _ => false
  | .keySpillAppend _ => false
  | .copyEngineAccept _ _ => false
  | .copyLineOpComplete _ _ => false
  | .cpyvTileOp _ _ => false
  | .gatherUnitRequest _ _ => false
  | .gatherForward _ _ => false
  | .gatherBurstReturn _ _ => false
  | .ldsumRequest _ => false
  | .ldsumMemberRequest _ => false
  | .ldsumPartial _ _ => false
  | .ldsumResult _ => false
  | .ldsumTimeout _ => false
  | .ldsumEntryTimeout _ => false
  | .publishRequest _ => false
  | .publishSwap _ => false
  | .publishInvalidateDie _ _ => false
  | .publishComplete _ => false
  | .generationRetired _ _ => false
  | .publishPortRequest _ => false
  | .pinRelease _ _ _ => false
  | .dieLinkFailure _ => false
  | .wilmoPortFailure _ => false
  | .l1SoftError _ _ => false
  | .correctedError _ _ _ => false
  | .softErrorWindow _ => false
  | .hclaimClearDone _ => false
  | .stblCopyDone _ => false
  | .sldCopyDone _ => false
  | .bankSwapNotice _ _ => false
  | .bankSwapComplete _ => false
  | .recoveryStrandForm _ _ => false
  | .regionCounterUpdate _ => false
  | .regionDisableNotice _ _ _ => false
  | .regenWrite _ => false
  | .regionEnableNotice _ _ _ => false
  | .qsetComplete _ => false
  | .jointOpCommit _ => false
  | .mldComplete _ => false
  | .claimGrant _ _ => false
  | .claimStarvation _ _ => false
  | .tkportWrite _ _ _ => false
  | .dispatcherTake => false
  | .launchExpand _ => false
  | .taskSpillTake _ _ => false
  | .overflowBufferRetry => false
  | .gangPlace _ => false
  | .oldestRecordHold _ => false
  | .quantumExpiry _ => false
  | .gangSwapSave _ => false
  | .stealStart _ => false
  | .stealCopyArrive _ => false
  | .stealAckArrive _ => false
  | .stealHandoffTimeout _ => false
  | .stealConfirmArrive _ => false
  | .stealRefuseArrive _ => false
  | .successorDecrement _ => false
  | .domainReturn _ => false
  | .strandStop _ => false
  | .faultQueueAppend _ => false
  | .hrsmRsm _ => false
  | .hrsmRsmRx _ => false
  | .hrsmKill _ => false
  | .hrsmKillAll _ => false
  | .ctxctlNone _ => false
  | .ctxctlStop _ => false
  | .ctxctlStart _ => false
  | .ctxctlKill _ => false
  | .ctxctlComplete => false
  | .energyWindow _ => false
  | .dstopStop _ => false
  | .dstopStep _ => false
  | .interruptRecordAppend => false
  | .apertureAccess _ _ _ _ => false
  | .registerWrite _ _ _ => false
  | .clkctlRateWrite _ => false
  | .clockChangeEffective => false
  | .powerWindow _ => false
  | .sensorSample _ _ _ => false
  | .thermalHoldEnd => false
  | .packageReset => false
  | .bootclrClear _ => false
  | .bootclrReset _ => false
  | .attestRequest _ => false
  | .attestDone => false
  | .sidebandRequest _ _ _ => false
  | .pcieCompletionTimeout _ => false
  | .hardFault _ _ => false
  | .podBarrierArrival _ _ _ => false

end Sys2Proof
end

