-- ==== Sys2Proof/Decode.lean ====
section
/-!
DEFINITION. Sys2Proof/Decode.lean: from words to instructions and back (06_encoding R132 to R149). Orders 1 to 6 of R146 all
end in cause 0x01, and a hint word with B = 1 in 0x03; each way to fail has a name. The checks that need more than the word
(hints, guards, the allotment, D64) are made when the instruction issues (Machine/Ops).
-/

namespace Sys2Proof

/-- Why a word is no instruction (06_encoding R146). -/
inductive Reject where
  /-- order 1: the word 0x00000000 -/
  | zeroWord
  /-- order 2: a reserved major -/
  | reservedMajor
  /-- orders 3 and 4: a reserved function value or hint kind -/
  | reservedFunction
  /-- orders 4 and 6: a non-zero unused field or reserved payload bit -/
  | unusedField
  /-- orders 3, 5 and 6: a code of a field that its entry does not allow -/
  | badField
  /-- order 7: a hint word with B = 1 -/
  | hintBoundary
  deriving DecidableEq, Repr

/-- The cause a rejected word raises (R146). -/
def Reject.cause : Reject → Nat
  | .hintBoundary => 0x03
  | _ => 0x01

/-- Bits [lo + n - 1 : lo] of a word. -/
def field (n lo w : Nat) : BitVec n := BitVec.ofNat n (w / 2 ^ lo)

/-- The checks of the fields of a decoded instruction. -/
def decodable (i : Instr) : Bool := i.wf

/-- An instruction whose unused bits are zero and whose fields are allowed. -/
def checked (unusedZero : Bool) (i : Instr) : Except Reject Instr :=
  if unusedZero then (if decodable i then .ok i else .error .badField) else .error .unusedField

/-- Major 0x00 (R143). -/
def decodeMajor00 (w : Nat) : Except Reject Instr :=
  let f := w / 2 ^ 22 % 8
  if f = 0 then checked (true) (.iadd (field 1 31 w) (field 7 15 w) (field 7 8 w) (field 7 1 w) (field 1 0 w))
  else if f = 1 then checked (true) (.isub (field 1 31 w) (field 7 15 w) (field 7 8 w) (field 7 1 w) (field 1 0 w))
  else if f = 2 then checked (true) (.imul (field 1 31 w) (field 7 15 w) (field 7 8 w) (field 7 1 w) (field 1 0 w))
  else if f = 3 then checked (true) (.imulh (field 1 31 w) (field 7 15 w) (field 7 8 w) (field 7 1 w) (field 1 0 w))
  else if f = 4 then checked (true) (.imad (field 1 31 w) (field 7 15 w) (field 7 8 w) (field 7 1 w) (field 1 0 w))
  else if f = 5 then checked (true) (.min (field 1 31 w) (field 7 15 w) (field 7 8 w) (field 7 1 w) (field 1 0 w))
  else if f = 6 then checked (true) (.max (field 1 31 w) (field 7 15 w) (field 7 8 w) (field 7 1 w) (field 1 0 w))
  else if f = 7 then checked (true) (.lea (field 1 31 w) (field 7 15 w) (field 7 8 w) (field 7 1 w) (field 1 0 w))
  else .error .reservedFunction

/-- Major 0x01 (R143). -/
def decodeMajor01 (w : Nat) : Except Reject Instr :=
  let f := w / 2 ^ 22 % 8
  if f = 0 then checked (true) (.shl (field 1 31 w) (field 7 15 w) (field 7 8 w) (field 7 1 w) (field 1 0 w))
  else if f = 1 then checked (true) (.shr (field 1 31 w) (field 7 15 w) (field 7 8 w) (field 7 1 w) (field 1 0 w))
  else if f = 2 then checked (true) (.sar (field 1 31 w) (field 7 15 w) (field 7 8 w) (field 7 1 w) (field 1 0 w))
  else if f = 3 then checked (true) (.and (field 1 31 w) (field 7 15 w) (field 7 8 w) (field 7 1 w) (field 1 0 w))
  else if f = 4 then checked (true) (.or (field 1 31 w) (field 7 15 w) (field 7 8 w) (field 7 1 w) (field 1 0 w))
  else if f = 5 then checked (true) (.xor (field 1 31 w) (field 7 15 w) (field 7 8 w) (field 7 1 w) (field 1 0 w))
  else if f = 6 then checked (true) (.andn (field 1 31 w) (field 7 15 w) (field 7 8 w) (field 7 1 w) (field 1 0 w))
  else .error .reservedFunction

/-- Major 0x02 (R143). -/
def decodeMajor02 (w : Nat) : Except Reject Instr :=
  let f := w / 2 ^ 22 % 8
  if f = 0 then checked (w / 2 ^ 1 % 128 == 0) (.iabs (field 1 31 w) (field 7 15 w) (field 7 8 w) (field 1 0 w))
  else if f = 1 then checked (w / 2 ^ 1 % 128 == 0) (.clz (field 1 31 w) (field 7 15 w) (field 7 8 w) (field 1 0 w))
  else if f = 2 then checked (w / 2 ^ 1 % 128 == 0) (.popc (field 1 31 w) (field 7 15 w) (field 7 8 w) (field 1 0 w))
  else if f = 3 then checked (w / 2 ^ 1 % 128 == 0) (.brev (field 1 31 w) (field 7 15 w) (field 7 8 w) (field 1 0 w))
  else if f = 4 then checked (w / 2 ^ 1 % 128 == 0) (.mov (field 1 31 w) (field 7 15 w) (field 7 8 w) (field 1 0 w))
  else if f = 5 then checked (true) (.bfx (field 1 31 w) (field 7 15 w) (field 7 8 w) (field 7 1 w) (field 1 0 w))
  else if f = 6 then checked (true) (.bfi (field 1 31 w) (field 7 15 w) (field 7 8 w) (field 7 1 w) (field 1 0 w))
  else .error .reservedFunction

/-- Major 0x03 (R143). -/
def decodeMajor03 (w : Nat) : Except Reject Instr :=

  checked (true) (.icmp (field 1 31 w) (field 3 22 w) (field 7 15 w) (field 7 8 w) (field 7 1 w) (field 1 0 w))

/-- Major 0x04 (R143). -/
def decodeMajor04 (w : Nat) : Except Reject Instr :=

  checked (true) (.sel (field 1 31 w) (field 3 22 w) (field 7 15 w) (field 7 8 w) (field 7 1 w) (field 1 0 w))

/-- Major 0x05 (R143). -/
def decodeMajor05 (w : Nat) : Except Reject Instr :=
  let f := w / 2 ^ 22 % 8
  if f = 0 then checked (w / 2 ^ 8 % 128 == 0) (.movi (field 1 31 w) (field 7 15 w) (field 8 0 w))
  else if f = 1 then checked (true) (.iaddI (field 1 31 w) (field 7 15 w) (field 7 8 w) (field 8 0 w))
  else if f = 2 then checked (true) (.shlI (field 1 31 w) (field 7 15 w) (field 7 8 w) (field 8 0 w))
  else if f = 3 then checked (true) (.shrI (field 1 31 w) (field 7 15 w) (field 7 8 w) (field 8 0 w))
  else if f = 4 then checked (true) (.sarI (field 1 31 w) (field 7 15 w) (field 7 8 w) (field 8 0 w))
  else if f = 5 then checked (true) (.andI (field 1 31 w) (field 7 15 w) (field 7 8 w) (field 8 0 w))
  else if f = 6 then checked (true) (.orI (field 1 31 w) (field 7 15 w) (field 7 8 w) (field 8 0 w))
  else if f = 7 then checked (true) (.xorI (field 1 31 w) (field 7 15 w) (field 7 8 w) (field 8 0 w))
  else .error .reservedFunction

/-- Major 0x06 (R143). -/
def decodeMajor06 (w : Nat) : Except Reject Instr :=
  let f := w / 2 ^ 22 % 8
  if f = 0 then checked (w / 2 ^ 8 % 128 == 0) (.moviU (field 1 31 w) (field 7 15 w) (field 8 0 w))
  else if f = 1 then checked (true) (.iaddIu (field 1 31 w) (field 7 15 w) (field 7 8 w) (field 8 0 w))
  else if f = 2 then checked (true) (.shlIu (field 1 31 w) (field 7 15 w) (field 7 8 w) (field 8 0 w))
  else if f = 3 then checked (true) (.shrIu (field 1 31 w) (field 7 15 w) (field 7 8 w) (field 8 0 w))
  else if f = 4 then checked (true) (.sarIu (field 1 31 w) (field 7 15 w) (field 7 8 w) (field 8 0 w))
  else if f = 5 then checked (true) (.andIu (field 1 31 w) (field 7 15 w) (field 7 8 w) (field 8 0 w))
  else if f = 6 then checked (true) (.orIu (field 1 31 w) (field 7 15 w) (field 7 8 w) (field 8 0 w))
  else if f = 7 then checked (true) (.xorIu (field 1 31 w) (field 7 15 w) (field 7 8 w) (field 8 0 w))
  else .error .reservedFunction

/-- Major 0x08 (R143). -/
def decodeMajor08 (w : Nat) : Except Reject Instr :=
  let f := w / 2 ^ 22 % 8
  if f = 0 then checked (true) (.fadd (field 1 31 w) (field 7 15 w) (field 7 8 w) (field 7 1 w) (field 1 0 w))
  else if f = 1 then checked (true) (.fsub (field 1 31 w) (field 7 15 w) (field 7 8 w) (field 7 1 w) (field 1 0 w))
  else if f = 2 then checked (true) (.fmul (field 1 31 w) (field 7 15 w) (field 7 8 w) (field 7 1 w) (field 1 0 w))
  else if f = 3 then checked (true) (.ffma (field 1 31 w) (field 7 15 w) (field 7 8 w) (field 7 1 w) (field 1 0 w))
  else if f = 4 then checked (true) (.fmin (field 1 31 w) (field 7 15 w) (field 7 8 w) (field 7 1 w) (field 1 0 w))
  else if f = 5 then checked (true) (.fmax (field 1 31 w) (field 7 15 w) (field 7 8 w) (field 7 1 w) (field 1 0 w))
  else if f = 6 then checked (w / 2 ^ 1 % 128 == 0) (.frnd (field 1 31 w) (field 7 15 w) (field 7 8 w) (field 1 0 w))
  else if f = 7 then checked (w / 2 ^ 1 % 128 == 0) (.fcls (field 1 31 w) (field 7 15 w) (field 7 8 w) (field 1 0 w))
  else .error .reservedFunction

/-- Major 0x09 (R143). -/
def decodeMajor09 (w : Nat) : Except Reject Instr :=

  checked (true) (.fcmp (field 1 31 w) (field 3 22 w) (field 7 15 w) (field 7 8 w) (field 7 1 w) (field 1 0 w))

/-- Major 0x0A (R143). -/
def decodeMajor0A (w : Nat) : Except Reject Instr :=
  let f := w / 2 ^ 22 % 8
  if f = 0 ∨ f = 4 then checked (true) (.hadd2 (field 1 31 w) (field 1 24 w) (field 7 15 w) (field 7 8 w) (field 7 1 w) (field 1 0 w))
  else if f = 1 ∨ f = 5 then checked (true) (.hmul2 (field 1 31 w) (field 1 24 w) (field 7 15 w) (field 7 8 w) (field 7 1 w) (field 1 0 w))
  else if f = 2 ∨ f = 6 then checked (true) (.hfma2 (field 1 31 w) (field 1 24 w) (field 7 15 w) (field 7 8 w) (field 7 1 w) (field 1 0 w))
  else if f = 3 ∨ f = 7 then checked (true) (.fdot2 (field 1 31 w) (field 1 24 w) (field 7 15 w) (field 7 8 w) (field 7 1 w) (field 1 0 w))
  else .error .reservedFunction

/-- Major 0x10 (R143). -/
def decodeMajor10 (w : Nat) : Except Reject Instr :=

  checked (true) (.cvt (field 1 31 w) (field 5 20 w) (field 7 13 w) (field 7 6 w) (field 6 0 w))

/-- Major 0x11 (R143). -/
def decodeMajor11 (w : Nat) : Except Reject Instr :=

  checked (true) (.pack (field 1 31 w) (field 3 22 w) (field 7 15 w) (field 7 8 w) (field 7 1 w) (field 1 0 w))

/-- Major 0x12 (R143). -/
def decodeMajor12 (w : Nat) : Except Reject Instr :=

  checked (true) (.unpk (field 1 31 w) (field 3 22 w) (field 7 15 w) (field 7 8 w) (field 7 1 w) (field 1 0 w))

/-- Major 0x13 (R143). -/
def decodeMajor13 (w : Nat) : Except Reject Instr :=

  checked (true) (.fmt (field 1 31 w) (field 5 20 w) (field 7 13 w) (field 7 6 w) (field 6 0 w))

/-- Major 0x14 (R143). -/
def decodeMajor14 (w : Nat) : Except Reject Instr :=

  checked (w / 2 ^ 0 % 2 == 0) (.shfl (field 1 31 w) (field 3 22 w) (field 7 15 w) (field 7 8 w) (field 7 1 w))

/-- Major 0x15 (R143). -/
def decodeMajor15 (w : Nat) : Except Reject Instr :=

  checked (w / 2 ^ 0 % 256 == 0) (.vote (field 1 31 w) (field 3 22 w) (field 7 15 w) (field 7 8 w))

/-- Major 0x16 (R143). -/
def decodeMajor16 (w : Nat) : Except Reject Instr :=
  let f := w / 2 ^ 22 % 8
  if f = 0 then checked (w / 2 ^ 0 % 2 == 0) (.rdfl (field 1 31 w) (field 7 15 w) (field 7 8 w) (field 7 1 w))
  else if f = 1 then checked (w / 2 ^ 0 % 2 == 0) (.prfx (field 1 31 w) (field 7 15 w) (field 7 8 w) (field 7 1 w))
  else if f = 2 then checked (w / 2 ^ 0 % 2 == 0) (.conf (field 1 31 w) (field 7 15 w) (field 7 8 w) (field 7 1 w))
  else if f = 3 then checked (w / 2 ^ 0 % 2 == 0) (.kcomb (field 1 31 w) (field 7 15 w) (field 7 8 w) (field 7 1 w))
  else if f = 4 then checked (w / 2 ^ 0 % 2 == 0) (.rebal (field 1 31 w) (field 7 15 w) (field 7 8 w) (field 7 1 w))
  else if f = 5 then checked (w / 2 ^ 0 % 2 == 0 && w / 2 ^ 8 % 128 == 0) (.mask (field 1 31 w) (field 7 15 w) (field 7 1 w))
  else .error .reservedFunction

/-- Major 0x18 (R143). -/
def decodeMajor18 (w : Nat) : Except Reject Instr :=
  let f := w / 2 ^ 23 % 4
  if f = 0 then checked (true) (.sfe (field 1 31 w) (field 7 16 w) (field 7 9 w) (field 5 4 w) (field 4 0 w) 0)
  else .error .reservedFunction

/-- Major 0x19 (R143). -/
def decodeMajor19 (w : Nat) : Except Reject Instr :=
  let f := w / 2 ^ 20 % 32
  if f = 0 then checked (w / 2 ^ 4 % 4 == 0) (.stbl (field 1 31 w) (field 7 13 w) (field 7 6 w) (field 4 0 w))
  else if f = 1 then checked (w / 2 ^ 4 % 512 == 0) (.tswp (field 1 31 w) (field 7 13 w) (field 4 0 w))
  else if f = 2 then checked (w / 2 ^ 0 % 32 == 0 && w / 2 ^ 6 % 16384 == 0) (.lz (field 1 31 w) (field 1 5 w))
  else if f = 3 then checked (w / 2 ^ 0 % 16 == 0 && w / 2 ^ 13 % 128 == 0) (.ladd (field 1 31 w) (field 7 6 w) (field 1 5 w) (field 1 4 w))
  else if f = 4 then checked (w / 2 ^ 13 % 128 == 0) (.lmrg (field 1 31 w) (field 7 6 w) (field 1 5 w) (field 1 4 w) (field 4 0 w))
  else if f = 5 then checked (w / 2 ^ 13 % 128 == 0) (.lst (field 1 31 w) (field 7 6 w) (field 1 5 w) (field 1 4 w) (field 4 0 w))
  else if f = 6 then checked (w / 2 ^ 0 % 32 == 0 && w / 2 ^ 6 % 128 == 0) (.lrd (field 1 31 w) (field 7 13 w) (field 1 5 w))
  else if f = 7 then checked (w / 2 ^ 0 % 64 == 0) (.lvar (field 1 31 w) (field 7 13 w) (field 7 6 w))
  else .error .reservedFunction

/-- Major 0x1C (R143). -/
def decodeMajor1C (w : Nat) : Except Reject Instr :=
  let f := w / 2 ^ 20 % 32
  if f = 0 then checked (true) (.srg (field 1 31 w) (field 16 4 w) (field 4 0 w))
  else if f = 1 then checked (w / 2 ^ 0 % 1048576 == 0) (.sjn (field 1 31 w))
  else if f = 2 then checked (w / 2 ^ 4 % 4 == 0) (.sld (field 1 31 w) (field 7 13 w) (field 7 6 w) (field 4 0 w))
  else if f = 3 then checked (w / 2 ^ 4 % 512 == 0) (.ssw (field 1 31 w) (field 7 13 w) (field 4 0 w))
  else if f = 4 then checked (w / 2 ^ 4 % 4 == 0 && w / 2 ^ 13 % 128 == 0) (.qset (field 1 31 w) (field 7 6 w) (field 4 0 w))
  else if f = 5 then checked (w / 2 ^ 6 % 128 == 0) (.sctr (field 1 31 w) (field 7 13 w) (field 2 4 w) (field 4 0 w))
  else if f = 6 then checked (w / 2 ^ 0 % 1048576 == 0) (.sdis (field 1 31 w))
  else .error .reservedFunction

/-- Major 0x20 (R143). -/
def decodeMajor20 (w : Nat) : Except Reject Instr :=

  checked (true) (.ldG (field 1 31 w) (field 2 23 w) (field 7 16 w) (field 7 9 w) (field 5 4 w) (field 4 0 w) 0)

/-- Major 0x21 (R143). -/
def decodeMajor21 (w : Nat) : Except Reject Instr :=

  checked (true) (.ldGExt (field 1 31 w) (field 2 23 w) (field 7 16 w) (field 7 9 w) (field 5 4 w) (field 4 0 w) 0)

/-- Major 0x22 (R143). -/
def decodeMajor22 (w : Nat) : Except Reject Instr :=

  checked (true) (.ldS (field 1 31 w) (field 2 23 w) (field 7 16 w) (field 7 9 w) (field 5 4 w) (field 4 0 w) 0)

/-- Major 0x23 (R143). -/
def decodeMajor23 (w : Nat) : Except Reject Instr :=

  checked (true) (.ldSExt (field 1 31 w) (field 2 23 w) (field 7 16 w) (field 7 9 w) (field 5 4 w) (field 4 0 w) 0)

/-- Major 0x24 (R143). -/
def decodeMajor24 (w : Nat) : Except Reject Instr :=

  checked (true) (.stG (field 1 31 w) (field 2 23 w) (field 7 16 w) (field 7 9 w) (field 5 4 w) (field 4 0 w) 0)

/-- Major 0x25 (R143). -/
def decodeMajor25 (w : Nat) : Except Reject Instr :=

  checked (true) (.stS (field 1 31 w) (field 2 23 w) (field 7 16 w) (field 7 9 w) (field 5 4 w) (field 4 0 w) 0)

/-- Major 0x26 (R143). -/
def decodeMajor26 (w : Nat) : Except Reject Instr :=
  let f := w / 2 ^ 20 % 32
  if f < 16 then checked (true) (.atom (field 1 31 w) (field 4 20 w) (field 7 13 w) (field 7 6 w) (field 2 4 w) (field 4 0 w))
  else if 16 ≤ f then checked (true) (.red (field 1 31 w) (field 4 20 w) (field 7 13 w) (field 7 6 w) (field 2 4 w) (field 4 0 w))
  else .error .reservedFunction

/-- Major 0x27 (R143). -/
def decodeMajor27 (w : Nat) : Except Reject Instr :=
  let f := w / 2 ^ 20 % 32
  if f = 0 then checked (true) (.stGB128 (field 1 31 w) (field 7 13 w) (field 7 6 w) (field 2 4 w) (field 4 0 w))
  else if f = 1 then checked (w / 2 ^ 4 % 4 == 0) (.stSB128 (field 1 31 w) (field 7 13 w) (field 7 6 w) (field 4 0 w))
  else if f = 2 then checked (w / 2 ^ 4 % 4 == 0) (.aoaddB32 (field 1 31 w) (field 7 13 w) (field 7 6 w) (field 4 0 w))
  else if f = 3 then checked (w / 2 ^ 4 % 4 == 0) (.aoaddB64 (field 1 31 w) (field 7 13 w) (field 7 6 w) (field 4 0 w))
  else if f = 4 then checked (true) (.ldsumB32 (field 1 31 w) (field 7 13 w) (field 7 6 w) (field 2 4 w) (field 4 0 w))
  else if f = 5 then checked (true) (.ldsumB64 (field 1 31 w) (field 7 13 w) (field 7 6 w) (field 2 4 w) (field 4 0 w))
  else if f = 6 then checked (true) (.ldsumG (field 1 31 w) (field 7 13 w) (field 7 6 w) (field 2 4 w) (field 4 0 w))
  else if f = 7 then checked (true) (.ldsumF32 (field 1 31 w) (field 7 13 w) (field 7 6 w) (field 2 4 w) (field 4 0 w))
  else if f = 8 then checked (true) (.lduB32 (field 1 31 w) (field 7 13 w) (field 7 6 w) (field 2 4 w) (field 4 0 w))
  else if f = 9 then checked (true) (.lduB64 (field 1 31 w) (field 7 13 w) (field 7 6 w) (field 2 4 w) (field 4 0 w))
  else if f = 10 then checked (w / 2 ^ 0 % 16 == 0 && w / 2 ^ 13 % 128 == 0) (.pref (field 1 31 w) (field 7 6 w) (field 2 4 w))
  else .error .reservedFunction

/-- Major 0x28 (R143). -/
def decodeMajor28 (w : Nat) : Except Reject Instr :=

  checked (true) (.cpySFromG (field 1 31 w) (field 2 23 w) (field 7 16 w) (field 7 9 w) (field 5 4 w) (field 4 0 w) 0)

/-- Major 0x29 (R143). -/
def decodeMajor29 (w : Nat) : Except Reject Instr :=

  checked (true) (.cpyGFromS (field 1 31 w) (field 2 23 w) (field 7 16 w) (field 7 9 w) (field 5 4 w) (field 4 0 w) 0)

/-- Major 0x2A (R143). -/
def decodeMajor2A (w : Nat) : Except Reject Instr :=
  let f := w / 2 ^ 20 % 32
  if f < 3 then checked (w / 2 ^ 4 % 4 == 0) (.cpySFromS (field 1 31 w) (field 2 20 w) (field 7 13 w) (field 7 6 w) (field 4 0 w))
  else if f = 3 then checked (true) (.cpyGFromGB4 (field 1 31 w) (field 7 13 w) (field 7 6 w) (field 2 4 w) (field 4 0 w))
  else if f = 4 then checked (true) (.cpyGFromGB8 (field 1 31 w) (field 7 13 w) (field 7 6 w) (field 2 4 w) (field 4 0 w))
  else if f = 5 then checked (true) (.cpyGFromGB16 (field 1 31 w) (field 7 13 w) (field 7 6 w) (field 2 4 w) (field 4 0 w))
  else if f = 6 then checked (true) (.cpyvG (field 1 31 w) (field 7 13 w) (field 7 6 w) (field 2 4 w) (field 4 0 w))
  else if f = 7 then checked (true) (.cpyvS (field 1 31 w) (field 7 13 w) (field 7 6 w) (field 2 4 w) (field 4 0 w))
  else if f = 8 then checked (w / 2 ^ 2 % 262144 == 0) (.seal (field 1 31 w) (field 2 0 w))
  else if f = 9 then checked (w / 2 ^ 2 % 2048 == 0) (.wait (field 1 31 w) (field 7 13 w) (field 2 0 w))
  else if f = 10 then checked (w / 2 ^ 9 % 16 == 0) (.pub (field 1 31 w) (field 7 13 w) (field 3 6 w) (field 2 4 w) (field 4 0 w))
  else .error .reservedFunction

/-- Major 0x2B (R143). -/
def decodeMajor2B (w : Nat) : Except Reject Instr :=
  let f := w / 2 ^ 20 % 32
  if f < 3 then checked (true) (.gathE (field 1 31 w) (field 2 20 w) (field 7 13 w) (field 7 6 w) (field 2 4 w) (field 4 0 w))
  else if f = 3 then checked (true) (.gathXB16 (field 1 31 w) (field 7 13 w) (field 7 6 w) (field 2 4 w) (field 4 0 w))
  else if f = 4 then checked (true) (.gathXB32 (field 1 31 w) (field 7 13 w) (field 7 6 w) (field 2 4 w) (field 4 0 w))
  else if f = 5 then checked (true) (.gathXB64 (field 1 31 w) (field 7 13 w) (field 7 6 w) (field 2 4 w) (field 4 0 w))
  else .error .reservedFunction

/-- Major 0x2C (R143). -/
def decodeMajor2C (w : Nat) : Except Reject Instr :=
  let f := w / 2 ^ 22 % 8
  if f = 0 then checked (w / 2 ^ 0 % 256 == 0) (.tlook (field 1 31 w) (field 7 15 w) (field 7 8 w))
  else if f = 1 then checked (w / 2 ^ 0 % 2 == 0 && w / 2 ^ 15 % 128 == 0) (.tset (field 1 31 w) (field 7 8 w) (field 7 1 w))
  else if f = 2 then checked (w / 2 ^ 0 % 2 == 0 && w / 2 ^ 8 % 16384 == 0) (.tinv (field 1 31 w) (field 7 1 w))
  else .error .reservedFunction

/-- Major 0x2D (R143). -/
def decodeMajor2D (w : Nat) : Except Reject Instr :=
  let f := w / 2 ^ 20 % 32
  if f = 0 then checked (true) (.hclaim (field 1 31 w) (field 7 13 w) (field 5 8 w) (field 5 3 w) (field 3 0 w))
  else if f = 1 then checked (w / 2 ^ 3 % 131072 == 0) (.hrel (field 1 31 w) (field 3 0 w))
  else if f = 2 then checked (true) (.hins (field 1 31 w) (field 7 13 w) (field 7 6 w) (field 3 3 w) (field 3 0 w))
  else if f = 3 then checked (true) (.hprb (field 1 31 w) (field 7 13 w) (field 7 6 w) (field 3 3 w) (field 3 0 w))
  else if f = 4 then checked (true) (.hdel (field 1 31 w) (field 7 13 w) (field 7 6 w) (field 3 3 w) (field 3 0 w))
  else if f = 5 then checked (true) (.haccAdd (field 1 31 w) (field 7 13 w) (field 7 6 w) (field 3 3 w) (field 3 0 w))
  else if f = 6 then checked (true) (.haccMin (field 1 31 w) (field 7 13 w) (field 7 6 w) (field 3 3 w) (field 3 0 w))
  else if f = 7 then checked (true) (.haccMax (field 1 31 w) (field 7 13 w) (field 7 6 w) (field 3 3 w) (field 3 0 w))
  else if f = 8 then checked (true) (.haccOr (field 1 31 w) (field 7 13 w) (field 7 6 w) (field 3 3 w) (field 3 0 w))
  else if f = 9 then checked (true) (.haccFadd (field 1 31 w) (field 7 13 w) (field 7 6 w) (field 3 3 w) (field 3 0 w))
  else if f = 10 then checked (true) (.hdrn (field 1 31 w) (field 7 13 w) (field 7 6 w) (field 3 3 w) (field 3 0 w))
  else if f = 11 then checked (true) (.hdrnDel (field 1 31 w) (field 7 13 w) (field 7 6 w) (field 3 3 w) (field 3 0 w))
  else .error .reservedFunction

/-- Major 0x2E (R143). -/
def decodeMajor2E (w : Nat) : Except Reject Instr :=
  let f := w / 2 ^ 20 % 32
  if f = 0 then checked (true) (.pln (field 1 31 w) (field 7 13 w) (field 6 7 w) (field 4 3 w) (field 1 2 w) (field 2 0 w))
  else if f = 1 then checked (w / 2 ^ 2 % 32 == 0) (.upln (field 1 31 w) (field 7 13 w) (field 6 7 w) (field 2 0 w))
  else if f = 2 then checked (w / 2 ^ 0 % 256 == 0) (.mz (field 1 31 w) (field 3 17 w) (field 9 8 w))
  else if f = 3 then checked (w / 2 ^ 0 % 2 == 0) (.mrd (field 1 31 w) (field 7 13 w) (field 3 10 w) (field 4 6 w) (field 3 3 w) (field 1 2 w) (field 1 1 w))
  else if f = 4 then checked (w / 2 ^ 4 % 64 == 0) (.mld (field 1 31 w) (field 3 17 w) (field 6 11 w) (field 1 10 w) (field 4 0 w))
  else .error .reservedFunction

/-- Major 0x2F (R143). -/
def decodeMajor2F (w : Nat) : Except Reject Instr :=
  let f := w / 2 ^ 20 % 32
  if f = 0 then checked (w / 2 ^ 8 % 4 == 0) (.mma (field 1 31 w) (field 3 17 w) (field 5 12 w) (field 1 11 w) (field 1 10 w) (field 4 4 w) (field 4 0 w))
  else if f = 1 then checked (w / 2 ^ 8 % 4 == 0) (.mmt (field 1 31 w) (field 3 17 w) (field 5 12 w) (field 1 11 w) (field 1 10 w) (field 4 4 w) (field 4 0 w))
  else .error .reservedFunction

/-- Major 0x32 (R143). -/
def decodeMajor32 (w : Nat) : Except Reject Instr :=
  let f := w / 2 ^ 23 % 4
  if f = 0 then checked (w / 2 ^ 20 % 8 == 0) (.br (field 1 31 w) (field 20 0 w))
  else if f = 1 then checked (true) (.brc (field 1 31 w) (field 3 20 w) (field 20 0 w))
  else if f = 2 then checked (true) (.brd (field 1 31 w) (field 3 20 w) (field 20 0 w))
  else if f = 3 then checked (true) (.call (field 1 31 w) (field 3 20 w) (field 20 0 w))
  else .error .reservedFunction

/-- Major 0x33 (R143). -/
def decodeMajor33 (w : Nat) : Except Reject Instr :=
  let f := w / 2 ^ 20 % 32
  if f = 0 then checked (w / 2 ^ 0 % 1048576 == 0) (.join (field 1 31 w))
  else if f = 1 then checked (true) (.brx (field 1 31 w) (field 6 14 w) (field 14 0 w))
  else if f = 2 then checked (w / 2 ^ 13 % 128 == 0) (.lpad (field 1 31 w) (field 1 12 w) (field 12 0 w))
  else if f = 3 then checked (w / 2 ^ 0 % 64 == 0) (.callx (field 1 31 w) (field 7 13 w) (field 7 6 w))
  else if f = 4 then checked (w / 2 ^ 0 % 64 == 0 && w / 2 ^ 13 % 128 == 0) (.ret (field 1 31 w) (field 7 6 w))
  else if f = 5 then checked (w / 2 ^ 0 % 1048576 == 0) (.exit (field 1 31 w))
  else if f = 6 then checked (w / 2 ^ 0 % 1048576 == 0) (.yld (field 1 31 w))
  else if f = 7 then checked (w / 2 ^ 0 % 1048576 == 0) (.nop (field 1 31 w))
  else .error .reservedFunction

/-- Major 0x38 (R143). -/
def decodeMajor38 (w : Nat) : Except Reject Instr :=
  let f := w / 2 ^ 20 % 32
  if f = 0 then checked (w / 2 ^ 9 % 8 == 0) (.barArrive (field 1 31 w) (field 7 13 w) (field 1 12 w) (field 3 6 w) (field 6 0 w))
  else if f = 1 then checked (w / 2 ^ 9 % 2048 == 0) (.barWait (field 1 31 w) (field 3 6 w) (field 6 0 w))
  else if f = 2 then checked (w / 2 ^ 9 % 8 == 0) (.barArriveWait (field 1 31 w) (field 7 13 w) (field 1 12 w) (field 3 6 w) (field 6 0 w))
  else if f = 3 then checked (w / 2 ^ 6 % 128 == 0) (.bart (field 1 31 w) (field 7 13 w) (field 1 5 w) (field 5 0 w))
  else if f = 4 then checked (w / 2 ^ 2 % 16 == 0 && w / 2 ^ 9 % 2048 == 0) (.fence (field 1 31 w) (field 3 6 w) (field 2 0 w))
  else .error .reservedFunction

/-- Major 0x39 (R143). -/
def decodeMajor39 (w : Nat) : Except Reject Instr :=
  let f := w / 2 ^ 20 % 32
  if f = 0 then checked (w / 2 ^ 13 % 128 == 0) (.spwn (field 1 31 w) (field 7 6 w) (field 1 5 w) (field 1 4 w) (field 4 0 w))
  else if f = 1 then checked (w / 2 ^ 4 % 4 == 0) (.take (field 1 31 w) (field 7 13 w) (field 7 6 w) (field 4 0 w))
  else if f = 2 then checked (w / 2 ^ 0 % 32 == 0 && w / 2 ^ 13 % 128 == 0) (.done (field 1 31 w) (field 7 6 w) (field 1 5 w))
  else if f = 3 then checked (w / 2 ^ 0 % 8192 == 0) (.waitq (field 1 31 w) (field 7 13 w))
  else if f = 4 then checked (w / 2 ^ 0 % 8192 == 0) (.qdom (field 1 31 w) (field 7 13 w))
  else if f = 5 then checked (w / 2 ^ 4 % 65536 == 0) (.give (field 1 31 w) (field 4 0 w))
  else if f = 6 then checked (w / 2 ^ 4 % 65536 == 0) (.claim (field 1 31 w) (field 4 0 w))
  else .error .reservedFunction

/-- Major 0x3C (R143). -/
def decodeMajor3C (w : Nat) : Except Reject Instr :=
  let f := w / 2 ^ 22 % 8
  if f = 0 then checked (w / 2 ^ 8 % 128 == 0) (.srd (field 1 31 w) (field 7 15 w) (field 8 0 w))
  else if f = 1 then checked (w / 2 ^ 8 % 128 == 0) (.srdU (field 1 31 w) (field 7 15 w) (field 8 0 w))
  else if f = 2 then checked (w / 2 ^ 15 % 128 == 0) (.swr (field 1 31 w) (field 7 8 w) (field 8 0 w))
  else .error .reservedFunction

/-- Major 0x3D (R143). -/
def decodeMajor3D (w : Nat) : Except Reject Instr :=
  let f := w / 2 ^ 20 % 32
  if f = 0 then checked (w / 2 ^ 16 % 16 == 0) (.trap (field 1 31 w) (field 16 0 w))
  else if f = 1 then checked (w / 2 ^ 1 % 524288 == 0) (.rsm (field 1 31 w) (field 1 0 w))
  else if f = 2 then checked (w / 2 ^ 1 % 524288 == 0) (.kill (field 1 31 w) (field 1 0 w))
  else if f = 3 then checked (w / 2 ^ 0 % 1048576 == 0) (.bkpt (field 1 31 w))
  else if f = 4 then checked (w / 2 ^ 0 % 1048576 == 0) (.hx (field 1 31 w))
  else .error .reservedFunction

/-- Major 0x3F (R143). -/
def decodeMajor3F (w : Nat) : Except Reject Instr :=
  let f := w / 2 ^ 21 % 16
  let boundary (i : Except Reject Instr) : Except Reject Instr :=
    if w / 2 ^ 31 % 2 = 1 then (match i with | .ok _ => .error .hintBoundary | e => e) else i
  if f = 0 then boundary (checked (true) (.hintWide (field 21 0 w)))
  else if f = 1 then boundary (checked (w / 2 ^ 10 % 2048 == 0) (.hintMod (field 1 9 w) (field 2 7 w) (field 1 6 w) (field 1 5 w) (field 1 4 w) (field 1 3 w) (field 1 2 w) (field 2 0 w)))
  else if f = 2 then boundary (checked (w / 2 ^ 7 % 16384 == 0) (.hintThird (field 7 0 w)))
  else if f = 3 then boundary (checked (w / 2 ^ 4 % 131072 == 0) (.hintGuard (field 1 3 w) (field 3 0 w)))
  else if f = 4 then boundary (checked (w / 2 ^ 8 % 8192 == 0) (.hintRtag (field 8 0 w)))
  else if f = 5 then boundary (checked (w / 2 ^ 16 % 32 == 0) (.hintTtag (field 16 0 w)))
  else if f = 6 then boundary (checked (w / 2 ^ 5 % 65536 == 0) (.hintCredit (field 5 0 w)))
  else .error .reservedFunction

/-- The word of encoding version 3 (R143), the word 0x00000000 apart (R146 order 1). -/
def decodeV3 (w : Nat) : Except Reject Instr :=
  if w = 0 then .error .zeroWord else
  match w / 2 ^ 25 % 64 with
  | 0x00 => decodeMajor00 w
  | 0x01 => decodeMajor01 w
  | 0x02 => decodeMajor02 w
  | 0x03 => decodeMajor03 w
  | 0x04 => decodeMajor04 w
  | 0x05 => decodeMajor05 w
  | 0x06 => decodeMajor06 w
  | 0x08 => decodeMajor08 w
  | 0x09 => decodeMajor09 w
  | 0x0A => decodeMajor0A w
  | 0x10 => decodeMajor10 w
  | 0x11 => decodeMajor11 w
  | 0x12 => decodeMajor12 w
  | 0x13 => decodeMajor13 w
  | 0x14 => decodeMajor14 w
  | 0x15 => decodeMajor15 w
  | 0x16 => decodeMajor16 w
  | 0x18 => decodeMajor18 w
  | 0x19 => decodeMajor19 w
  | 0x1C => decodeMajor1C w
  | 0x20 => decodeMajor20 w
  | 0x21 => decodeMajor21 w
  | 0x22 => decodeMajor22 w
  | 0x23 => decodeMajor23 w
  | 0x24 => decodeMajor24 w
  | 0x25 => decodeMajor25 w
  | 0x26 => decodeMajor26 w
  | 0x27 => decodeMajor27 w
  | 0x28 => decodeMajor28 w
  | 0x29 => decodeMajor29 w
  | 0x2A => decodeMajor2A w
  | 0x2B => decodeMajor2B w
  | 0x2C => decodeMajor2C w
  | 0x2D => decodeMajor2D w
  | 0x2E => decodeMajor2E w
  | 0x2F => decodeMajor2F w
  | 0x32 => decodeMajor32 w
  | 0x33 => decodeMajor33 w
  | 0x38 => decodeMajor38 w
  | 0x39 => decodeMajor39 w
  | 0x3C => decodeMajor3C w
  | 0x3D => decodeMajor3D w
  | 0x3F => decodeMajor3F w
  | _ => .error .reservedMajor

/-- The majors of M format (R132). -/
def mFormat (major : Nat) : Bool := major == 0x18 || (decide (0x20 ≤ major) && decide (major ≤ 0x25)) || major == 0x28 || major == 0x29

/-- The instruction with bits [8:5] of a version-1 offset set (R148); SFE takes no such bits. -/
def Instr.withOffset (u : BitVec 4) : Instr → Option Instr
  | .sfe z d a f l _ => if u = 0 then some (.sfe z d a f l 0) else none
  | .ldG z s d a k l _ => some (.ldG z s d a k l u)
  | .ldGExt z s d a k l _ => some (.ldGExt z s d a k l u)
  | .ldS z s d a o l _ => some (.ldS z s d a o l u)
  | .ldSExt z s d a o l _ => some (.ldSExt z s d a o l u)
  | .stG z s d a k l _ => some (.stG z s d a k l u)
  | .stS z s d a o l _ => some (.stS z s d a o l u)
  | .cpySFromG z s d a k l _ => some (.cpySFromG z s d a k l u)
  | .cpyGFromS z s d a k l _ => some (.cpyGFromS z s d a k l u)
  | i => if u = 0 then some i else none

/-- The matrix majors of versions 1 and 2, 0x30 and 0x31, moved to 0x2E and 0x2F; 0x2E and 0x2F are reserved there (R148). -/
def moveMatrix (w : Nat) : Option Nat :=
  let m := w / 2 ^ 25 % 64
  if m = 0x2E ∨ m = 0x2F then none else if m = 0x30 ∨ m = 0x31 then some (w - 2 * 2 ^ 25) else some w

/-- A version-1 word of M format as version 3 has it: off9[4:0] in off5, lookahead 15 (R148). -/
def widenV1 (w : Nat) : Nat := w / 2 ^ 9 * 2 ^ 9 + w % 32 * 16 + 15

/-- The instruction a word stands for under an encoding version (R148; log 23, DEDUCED). -/
def decode (version : Nat) (word : BitVec 32) : Except Reject Instr :=
  let w := word.toNat
  if version = 3 then decodeV3 w else
  match moveMatrix w with
  | none => .error .reservedMajor
  | some w' =>
    if version = 1 ∧ mFormat (w' / 2 ^ 25 % 64) then
      match decodeV3 (widenV1 w') with
      | .error e => .error e
      | .ok i => match i.withOffset (BitVec.ofNat 4 (w / 2 ^ 5)) with
                 | some j => .ok j
                 | none => .error .unusedField
    else decodeV3 w'

/-- A word: its fixed bits and each field at its lowest bit (R132). -/
def pack (fixed : Nat) : List (Nat × Nat) → Option (BitVec 32)
  | [] => some (BitVec.ofNat 32 fixed)
  | (v, lo) :: fs => pack (fixed + v * 2 ^ lo) fs

/-- The word of an instruction in encoding version 3 (R132, R143); a step without words has none (log 23, DEDUCED). -/
def encode : Instr → Option (BitVec 32)
  | .iadd z d a b x => pack 0x00000000 [(z.toNat, 31), (d.toNat, 15), (a.toNat, 8), (b.toNat, 1), (x.toNat, 0)]
  | .isub z d a b x => pack 0x00400000 [(z.toNat, 31), (d.toNat, 15), (a.toNat, 8), (b.toNat, 1), (x.toNat, 0)]
  | .imul z d a b x => pack 0x00800000 [(z.toNat, 31), (d.toNat, 15), (a.toNat, 8), (b.toNat, 1), (x.toNat, 0)]
  | .imulh z d a b x => pack 0x00C00000 [(z.toNat, 31), (d.toNat, 15), (a.toNat, 8), (b.toNat, 1), (x.toNat, 0)]
  | .imad z d a b x => pack 0x01000000 [(z.toNat, 31), (d.toNat, 15), (a.toNat, 8), (b.toNat, 1), (x.toNat, 0)]
  | .min z d a b x => pack 0x01400000 [(z.toNat, 31), (d.toNat, 15), (a.toNat, 8), (b.toNat, 1), (x.toNat, 0)]
  | .max z d a b x => pack 0x01800000 [(z.toNat, 31), (d.toNat, 15), (a.toNat, 8), (b.toNat, 1), (x.toNat, 0)]
  | .lea z d a b x => pack 0x01C00000 [(z.toNat, 31), (d.toNat, 15), (a.toNat, 8), (b.toNat, 1), (x.toNat, 0)]
  | .shl z d a b x => pack 0x02000000 [(z.toNat, 31), (d.toNat, 15), (a.toNat, 8), (b.toNat, 1), (x.toNat, 0)]
  | .shr z d a b x => pack 0x02400000 [(z.toNat, 31), (d.toNat, 15), (a.toNat, 8), (b.toNat, 1), (x.toNat, 0)]
  | .sar z d a b x => pack 0x02800000 [(z.toNat, 31), (d.toNat, 15), (a.toNat, 8), (b.toNat, 1), (x.toNat, 0)]
  | .and z d a b x => pack 0x02C00000 [(z.toNat, 31), (d.toNat, 15), (a.toNat, 8), (b.toNat, 1), (x.toNat, 0)]
  | .or z d a b x => pack 0x03000000 [(z.toNat, 31), (d.toNat, 15), (a.toNat, 8), (b.toNat, 1), (x.toNat, 0)]
  | .xor z d a b x => pack 0x03400000 [(z.toNat, 31), (d.toNat, 15), (a.toNat, 8), (b.toNat, 1), (x.toNat, 0)]
  | .andn z d a b x => pack 0x03800000 [(z.toNat, 31), (d.toNat, 15), (a.toNat, 8), (b.toNat, 1), (x.toNat, 0)]
  | .iabs z d a x => pack 0x04000000 [(z.toNat, 31), (d.toNat, 15), (a.toNat, 8), (x.toNat, 0)]
  | .clz z d a x => pack 0x04400000 [(z.toNat, 31), (d.toNat, 15), (a.toNat, 8), (x.toNat, 0)]
  | .popc z d a x => pack 0x04800000 [(z.toNat, 31), (d.toNat, 15), (a.toNat, 8), (x.toNat, 0)]
  | .brev z d a x => pack 0x04C00000 [(z.toNat, 31), (d.toNat, 15), (a.toNat, 8), (x.toNat, 0)]
  | .mov z d a x => pack 0x05000000 [(z.toNat, 31), (d.toNat, 15), (a.toNat, 8), (x.toNat, 0)]
  | .bfx z d a b x => pack 0x05400000 [(z.toNat, 31), (d.toNat, 15), (a.toNat, 8), (b.toNat, 1), (x.toNat, 0)]
  | .bfi z d a b x => pack 0x05800000 [(z.toNat, 31), (d.toNat, 15), (a.toNat, 8), (b.toNat, 1), (x.toNat, 0)]
  | .icmp z c d a b x => pack 0x06000000 [(z.toNat, 31), (c.toNat, 22), (d.toNat, 15), (a.toNat, 8), (b.toNat, 1), (x.toNat, 0)]
  | .sel z p d a b x => pack 0x08000000 [(z.toNat, 31), (p.toNat, 22), (d.toNat, 15), (a.toNat, 8), (b.toNat, 1), (x.toNat, 0)]
  | .movi z d i => pack 0x0A000000 [(z.toNat, 31), (d.toNat, 15), (i.toNat, 0)]
  | .iaddI z d a i => pack 0x0A400000 [(z.toNat, 31), (d.toNat, 15), (a.toNat, 8), (i.toNat, 0)]
  | .shlI z d a i => pack 0x0A800000 [(z.toNat, 31), (d.toNat, 15), (a.toNat, 8), (i.toNat, 0)]
  | .shrI z d a i => pack 0x0AC00000 [(z.toNat, 31), (d.toNat, 15), (a.toNat, 8), (i.toNat, 0)]
  | .sarI z d a i => pack 0x0B000000 [(z.toNat, 31), (d.toNat, 15), (a.toNat, 8), (i.toNat, 0)]
  | .andI z d a i => pack 0x0B400000 [(z.toNat, 31), (d.toNat, 15), (a.toNat, 8), (i.toNat, 0)]
  | .orI z d a i => pack 0x0B800000 [(z.toNat, 31), (d.toNat, 15), (a.toNat, 8), (i.toNat, 0)]
  | .xorI z d a i => pack 0x0BC00000 [(z.toNat, 31), (d.toNat, 15), (a.toNat, 8), (i.toNat, 0)]
  | .moviU z d i => pack 0x0C000000 [(z.toNat, 31), (d.toNat, 15), (i.toNat, 0)]
  | .iaddIu z d a i => pack 0x0C400000 [(z.toNat, 31), (d.toNat, 15), (a.toNat, 8), (i.toNat, 0)]
  | .shlIu z d a i => pack 0x0C800000 [(z.toNat, 31), (d.toNat, 15), (a.toNat, 8), (i.toNat, 0)]
  | .shrIu z d a i => pack 0x0CC00000 [(z.toNat, 31), (d.toNat, 15), (a.toNat, 8), (i.toNat, 0)]
  | .sarIu z d a i => pack 0x0D000000 [(z.toNat, 31), (d.toNat, 15), (a.toNat, 8), (i.toNat, 0)]
  | .andIu z d a i => pack 0x0D400000 [(z.toNat, 31), (d.toNat, 15), (a.toNat, 8), (i.toNat, 0)]
  | .orIu z d a i => pack 0x0D800000 [(z.toNat, 31), (d.toNat, 15), (a.toNat, 8), (i.toNat, 0)]
  | .xorIu z d a i => pack 0x0DC00000 [(z.toNat, 31), (d.toNat, 15), (a.toNat, 8), (i.toNat, 0)]
  | .fadd z d a b x => pack 0x10000000 [(z.toNat, 31), (d.toNat, 15), (a.toNat, 8), (b.toNat, 1), (x.toNat, 0)]
  | .fsub z d a b x => pack 0x10400000 [(z.toNat, 31), (d.toNat, 15), (a.toNat, 8), (b.toNat, 1), (x.toNat, 0)]
  | .fmul z d a b x => pack 0x10800000 [(z.toNat, 31), (d.toNat, 15), (a.toNat, 8), (b.toNat, 1), (x.toNat, 0)]
  | .ffma z d a b x => pack 0x10C00000 [(z.toNat, 31), (d.toNat, 15), (a.toNat, 8), (b.toNat, 1), (x.toNat, 0)]
  | .fmin z d a b x => pack 0x11000000 [(z.toNat, 31), (d.toNat, 15), (a.toNat, 8), (b.toNat, 1), (x.toNat, 0)]
  | .fmax z d a b x => pack 0x11400000 [(z.toNat, 31), (d.toNat, 15), (a.toNat, 8), (b.toNat, 1), (x.toNat, 0)]
  | .frnd z d a x => pack 0x11800000 [(z.toNat, 31), (d.toNat, 15), (a.toNat, 8), (x.toNat, 0)]
  | .fcls z d a x => pack 0x11C00000 [(z.toNat, 31), (d.toNat, 15), (a.toNat, 8), (x.toNat, 0)]
  | .fcmp z c d a b x => pack 0x12000000 [(z.toNat, 31), (c.toNat, 22), (d.toNat, 15), (a.toNat, 8), (b.toNat, 1), (x.toNat, 0)]
  | .hadd2 z h d a b x => pack 0x14000000 [(z.toNat, 31), (h.toNat, 24), (d.toNat, 15), (a.toNat, 8), (b.toNat, 1), (x.toNat, 0)]
  | .hmul2 z h d a b x => pack 0x14400000 [(z.toNat, 31), (h.toNat, 24), (d.toNat, 15), (a.toNat, 8), (b.toNat, 1), (x.toNat, 0)]
  | .hfma2 z h d a b x => pack 0x14800000 [(z.toNat, 31), (h.toNat, 24), (d.toNat, 15), (a.toNat, 8), (b.toNat, 1), (x.toNat, 0)]
  | .fdot2 z h d a b x => pack 0x14C00000 [(z.toNat, 31), (h.toNat, 24), (d.toNat, 15), (a.toNat, 8), (b.toNat, 1), (x.toNat, 0)]
  | .cvt z s d a t => pack 0x20000000 [(z.toNat, 31), (s.toNat, 20), (d.toNat, 13), (a.toNat, 6), (t.toNat, 0)]
  | .pack z m d a b x => pack 0x22000000 [(z.toNat, 31), (m.toNat, 22), (d.toNat, 15), (a.toNat, 8), (b.toNat, 1), (x.toNat, 0)]
  | .unpk z m d a b x => pack 0x24000000 [(z.toNat, 31), (m.toNat, 22), (d.toNat, 15), (a.toNat, 8), (b.toNat, 1), (x.toNat, 0)]
  | .fmt z s d a t => pack 0x26000000 [(z.toNat, 31), (s.toNat, 20), (d.toNat, 13), (a.toNat, 6), (t.toNat, 0)]
  | .shfl z m d a b => pack 0x28000000 [(z.toNat, 31), (m.toNat, 22), (d.toNat, 15), (a.toNat, 8), (b.toNat, 1)]
  | .vote z m d a => pack 0x2A000000 [(z.toNat, 31), (m.toNat, 22), (d.toNat, 15), (a.toNat, 8)]
  | .rdfl z d a b => pack 0x2C000000 [(z.toNat, 31), (d.toNat, 15), (a.toNat, 8), (b.toNat, 1)]
  | .prfx z d a b => pack 0x2C400000 [(z.toNat, 31), (d.toNat, 15), (a.toNat, 8), (b.toNat, 1)]
  | .conf z d a b => pack 0x2C800000 [(z.toNat, 31), (d.toNat, 15), (a.toNat, 8), (b.toNat, 1)]
  | .kcomb z d a b => pack 0x2CC00000 [(z.toNat, 31), (d.toNat, 15), (a.toNat, 8), (b.toNat, 1)]
  | .rebal z d a b => pack 0x2D000000 [(z.toNat, 31), (d.toNat, 15), (a.toNat, 8), (b.toNat, 1)]
  | .mask z d b => pack 0x2D400000 [(z.toNat, 31), (d.toNat, 15), (b.toNat, 1)]
  | .sfe z d a f l _ => pack 0x30000000 [(z.toNat, 31), (d.toNat, 16), (a.toNat, 9), (f.toNat, 4), (l.toNat, 0)]
  | .stbl z t p l => pack 0x32000000 [(z.toNat, 31), (t.toNat, 13), (p.toNat, 6), (l.toNat, 0)]
  | .tswp z t l => pack 0x32100000 [(z.toNat, 31), (t.toNat, 13), (l.toNat, 0)]
  | .lz z e => pack 0x32200000 [(z.toNat, 31), (e.toNat, 5)]
  | .ladd z a e q => pack 0x32300000 [(z.toNat, 31), (a.toNat, 6), (e.toNat, 5), (q.toNat, 4)]
  | .lmrg z a e q l => pack 0x32400000 [(z.toNat, 31), (a.toNat, 6), (e.toNat, 5), (q.toNat, 4), (l.toNat, 0)]
  | .lst z a e q l => pack 0x32500000 [(z.toNat, 31), (a.toNat, 6), (e.toNat, 5), (q.toNat, 4), (l.toNat, 0)]
  | .lrd z d e => pack 0x32600000 [(z.toNat, 31), (d.toNat, 13), (e.toNat, 5)]
  | .lvar z d a => pack 0x32700000 [(z.toNat, 31), (d.toNat, 13), (a.toNat, 6)]
  | .srg z j l => pack 0x38000000 [(z.toNat, 31), (j.toNat, 4), (l.toNat, 0)]
  | .sjn z => pack 0x38100000 [(z.toNat, 31)]
  | .sld z s p l => pack 0x38200000 [(z.toNat, 31), (s.toNat, 13), (p.toNat, 6), (l.toNat, 0)]
  | .ssw z s l => pack 0x38300000 [(z.toNat, 31), (s.toNat, 13), (l.toNat, 0)]
  | .qset z u l => pack 0x38400000 [(z.toNat, 31), (u.toNat, 6), (l.toNat, 0)]
  | .sctr z u o l => pack 0x38500000 [(z.toNat, 31), (u.toNat, 13), (o.toNat, 4), (l.toNat, 0)]
  | .sdis z => pack 0x38600000 [(z.toNat, 31)]
  | .ldG z s d a k l _ => pack 0x40000000 [(z.toNat, 31), (s.toNat, 23), (d.toNat, 16), (a.toNat, 9), (k.toNat, 4), (l.toNat, 0)]
  | .ldGExt z s d a k l _ => pack 0x42000000 [(z.toNat, 31), (s.toNat, 23), (d.toNat, 16), (a.toNat, 9), (k.toNat, 4), (l.toNat, 0)]
  | .ldS z s d a o l _ => pack 0x44000000 [(z.toNat, 31), (s.toNat, 23), (d.toNat, 16), (a.toNat, 9), (o.toNat, 4), (l.toNat, 0)]
  | .ldSExt z s d a o l _ => pack 0x46000000 [(z.toNat, 31), (s.toNat, 23), (d.toNat, 16), (a.toNat, 9), (o.toNat, 4), (l.toNat, 0)]
  | .stG z s d a k l _ => pack 0x48000000 [(z.toNat, 31), (s.toNat, 23), (d.toNat, 16), (a.toNat, 9), (k.toNat, 4), (l.toNat, 0)]
  | .stS z s d a o l _ => pack 0x4A000000 [(z.toNat, 31), (s.toNat, 23), (d.toNat, 16), (a.toNat, 9), (o.toNat, 4), (l.toNat, 0)]
  | .atom z o d a k l => pack 0x4C000000 [(z.toNat, 31), (o.toNat, 20), (d.toNat, 13), (a.toNat, 6), (k.toNat, 4), (l.toNat, 0)]
  | .red z o d a k l => pack 0x4D000000 [(z.toNat, 31), (o.toNat, 20), (d.toNat, 13), (a.toNat, 6), (k.toNat, 4), (l.toNat, 0)]
  | .stGB128 z d a k l => pack 0x4E000000 [(z.toNat, 31), (d.toNat, 13), (a.toNat, 6), (k.toNat, 4), (l.toNat, 0)]
  | .stSB128 z d a l => pack 0x4E100000 [(z.toNat, 31), (d.toNat, 13), (a.toNat, 6), (l.toNat, 0)]
  | .aoaddB32 z d a l => pack 0x4E200000 [(z.toNat, 31), (d.toNat, 13), (a.toNat, 6), (l.toNat, 0)]
  | .aoaddB64 z d a l => pack 0x4E300000 [(z.toNat, 31), (d.toNat, 13), (a.toNat, 6), (l.toNat, 0)]
  | .ldsumB32 z d a q l => pack 0x4E400000 [(z.toNat, 31), (d.toNat, 13), (a.toNat, 6), (q.toNat, 4), (l.toNat, 0)]
  | .ldsumB64 z d a q l => pack 0x4E500000 [(z.toNat, 31), (d.toNat, 13), (a.toNat, 6), (q.toNat, 4), (l.toNat, 0)]
  | .ldsumG z d a q l => pack 0x4E600000 [(z.toNat, 31), (d.toNat, 13), (a.toNat, 6), (q.toNat, 4), (l.toNat, 0)]
  | .ldsumF32 z d a q l => pack 0x4E700000 [(z.toNat, 31), (d.toNat, 13), (a.toNat, 6), (q.toNat, 4), (l.toNat, 0)]
  | .lduB32 z d a k l => pack 0x4E800000 [(z.toNat, 31), (d.toNat, 13), (a.toNat, 6), (k.toNat, 4), (l.toNat, 0)]
  | .lduB64 z d a k l => pack 0x4E900000 [(z.toNat, 31), (d.toNat, 13), (a.toNat, 6), (k.toNat, 4), (l.toNat, 0)]
  | .pref z a k => pack 0x4EA00000 [(z.toNat, 31), (a.toNat, 6), (k.toNat, 4)]
  | .cpySFromG z s d a k l _ => pack 0x50000000 [(z.toNat, 31), (s.toNat, 23), (d.toNat, 16), (a.toNat, 9), (k.toNat, 4), (l.toNat, 0)]
  | .cpyGFromS z s d a k l _ => pack 0x52000000 [(z.toNat, 31), (s.toNat, 23), (d.toNat, 16), (a.toNat, 9), (k.toNat, 4), (l.toNat, 0)]
  | .cpySFromS z s d a l => pack 0x54000000 [(z.toNat, 31), (s.toNat, 20), (d.toNat, 13), (a.toNat, 6), (l.toNat, 0)]
  | .cpyGFromGB4 z d a k l => pack 0x54300000 [(z.toNat, 31), (d.toNat, 13), (a.toNat, 6), (k.toNat, 4), (l.toNat, 0)]
  | .cpyGFromGB8 z d a k l => pack 0x54400000 [(z.toNat, 31), (d.toNat, 13), (a.toNat, 6), (k.toNat, 4), (l.toNat, 0)]
  | .cpyGFromGB16 z d a k l => pack 0x54500000 [(z.toNat, 31), (d.toNat, 13), (a.toNat, 6), (k.toNat, 4), (l.toNat, 0)]
  | .cpyvG z d a k l => pack 0x54600000 [(z.toNat, 31), (d.toNat, 13), (a.toNat, 6), (k.toNat, 4), (l.toNat, 0)]
  | .cpyvS z d a k l => pack 0x54700000 [(z.toNat, 31), (d.toNat, 13), (a.toNat, 6), (k.toNat, 4), (l.toNat, 0)]
  | .seal z p => pack 0x54800000 [(z.toNat, 31), (p.toNat, 0)]
  | .wait z u p => pack 0x54900000 [(z.toNat, 31), (u.toNat, 13), (p.toNat, 0)]
  | .pub z d s k l => pack 0x54A00000 [(z.toNat, 31), (d.toNat, 13), (s.toNat, 6), (k.toNat, 4), (l.toNat, 0)]
  | .gathE z s d a k l => pack 0x56000000 [(z.toNat, 31), (s.toNat, 20), (d.toNat, 13), (a.toNat, 6), (k.toNat, 4), (l.toNat, 0)]
  | .gathXB16 z d a k l => pack 0x56300000 [(z.toNat, 31), (d.toNat, 13), (a.toNat, 6), (k.toNat, 4), (l.toNat, 0)]
  | .gathXB32 z d a k l => pack 0x56400000 [(z.toNat, 31), (d.toNat, 13), (a.toNat, 6), (k.toNat, 4), (l.toNat, 0)]
  | .gathXB64 z d a k l => pack 0x56500000 [(z.toNat, 31), (d.toNat, 13), (a.toNat, 6), (k.toNat, 4), (l.toNat, 0)]
  | .tlook z d a => pack 0x58000000 [(z.toNat, 31), (d.toNat, 15), (a.toNat, 8)]
  | .tset z a b => pack 0x58400000 [(z.toNat, 31), (a.toNat, 8), (b.toNat, 1)]
  | .tinv z b => pack 0x58800000 [(z.toNat, 31), (b.toNat, 1)]
  | .hclaim z d i j u => pack 0x5A000000 [(z.toNat, 31), (d.toNat, 13), (i.toNat, 8), (j.toNat, 3), (u.toNat, 0)]
  | .hrel z h => pack 0x5A100000 [(z.toNat, 31), (h.toNat, 0)]
  | .hins z d a p h => pack 0x5A200000 [(z.toNat, 31), (d.toNat, 13), (a.toNat, 6), (p.toNat, 3), (h.toNat, 0)]
  | .hprb z d a p h => pack 0x5A300000 [(z.toNat, 31), (d.toNat, 13), (a.toNat, 6), (p.toNat, 3), (h.toNat, 0)]
  | .hdel z d a p h => pack 0x5A400000 [(z.toNat, 31), (d.toNat, 13), (a.toNat, 6), (p.toNat, 3), (h.toNat, 0)]
  | .haccAdd z d a p h => pack 0x5A500000 [(z.toNat, 31), (d.toNat, 13), (a.toNat, 6), (p.toNat, 3), (h.toNat, 0)]
  | .haccMin z d a p h => pack 0x5A600000 [(z.toNat, 31), (d.toNat, 13), (a.toNat, 6), (p.toNat, 3), (h.toNat, 0)]
  | .haccMax z d a p h => pack 0x5A700000 [(z.toNat, 31), (d.toNat, 13), (a.toNat, 6), (p.toNat, 3), (h.toNat, 0)]
  | .haccOr z d a p h => pack 0x5A800000 [(z.toNat, 31), (d.toNat, 13), (a.toNat, 6), (p.toNat, 3), (h.toNat, 0)]
  | .haccFadd z d a p h => pack 0x5A900000 [(z.toNat, 31), (d.toNat, 13), (a.toNat, 6), (p.toNat, 3), (h.toNat, 0)]
  | .hdrn z d a p h => pack 0x5AA00000 [(z.toNat, 31), (d.toNat, 13), (a.toNat, 6), (p.toNat, 3), (h.toNat, 0)]
  | .hdrnDel z d a p h => pack 0x5AB00000 [(z.toNat, 31), (d.toNat, 13), (a.toNat, 6), (p.toNat, 3), (h.toNat, 0)]
  | .pln z a u p e s => pack 0x5C000000 [(z.toNat, 31), (a.toNat, 13), (u.toNat, 7), (p.toNat, 3), (e.toNat, 2), (s.toNat, 0)]
  | .upln z d u t => pack 0x5C100000 [(z.toNat, 31), (d.toNat, 13), (u.toNat, 7), (t.toNat, 0)]
  | .mz z n w => pack 0x5C200000 [(z.toNat, 31), (n.toNat, 17), (w.toNat, 8)]
  | .mrd z d n r l h f => pack 0x5C300000 [(z.toNat, 31), (d.toNat, 13), (n.toNat, 10), (r.toNat, 6), (l.toNat, 3), (h.toNat, 2), (f.toNat, 1)]
  | .mld z n u g l => pack 0x5C400000 [(z.toNat, 31), (n.toNat, 17), (u.toNat, 11), (g.toNat, 10), (l.toNat, 0)]
  | .mma z n u a b p l => pack 0x5E000000 [(z.toNat, 31), (n.toNat, 17), (u.toNat, 12), (a.toNat, 11), (b.toNat, 10), (p.toNat, 4), (l.toNat, 0)]
  | .mmt z n u a b p l => pack 0x5E100000 [(z.toNat, 31), (n.toNat, 17), (u.toNat, 12), (a.toNat, 11), (b.toNat, 10), (p.toNat, 4), (l.toNat, 0)]
  | .br z o => pack 0x64000000 [(z.toNat, 31), (o.toNat, 0)]
  | .brc z p o => pack 0x64800000 [(z.toNat, 31), (p.toNat, 20), (o.toNat, 0)]
  | .brd z p o => pack 0x65000000 [(z.toNat, 31), (p.toNat, 20), (o.toNat, 0)]
  | .call z k o => pack 0x65800000 [(z.toNat, 31), (k.toNat, 20), (o.toNat, 0)]
  | .join z => pack 0x66000000 [(z.toNat, 31)]
  | .brx z i o => pack 0x66100000 [(z.toNat, 31), (i.toNat, 14), (o.toNat, 0)]
  | .lpad z c l => pack 0x66200000 [(z.toNat, 31), (c.toNat, 12), (l.toNat, 0)]
  | .callx z k t => pack 0x66300000 [(z.toNat, 31), (k.toNat, 13), (t.toNat, 6)]
  | .ret z k => pack 0x66400000 [(z.toNat, 31), (k.toNat, 6)]
  | .exit z => pack 0x66500000 [(z.toNat, 31)]
  | .yld z => pack 0x66600000 [(z.toNat, 31)]
  | .nop z => pack 0x66700000 [(z.toNat, 31)]
  | .barArrive z n d s t => pack 0x70000000 [(z.toNat, 31), (n.toNat, 13), (d.toNat, 12), (s.toNat, 6), (t.toNat, 0)]
  | .barWait z s t => pack 0x70100000 [(z.toNat, 31), (s.toNat, 6), (t.toNat, 0)]
  | .barArriveWait z n d s t => pack 0x70200000 [(z.toNat, 31), (n.toNat, 13), (d.toNat, 12), (s.toNat, 6), (t.toNat, 0)]
  | .bart z v i s => pack 0x70300000 [(z.toNat, 31), (v.toNat, 13), (i.toNat, 5), (s.toNat, 0)]
  | .fence z s k => pack 0x70400000 [(z.toNat, 31), (s.toNat, 6), (k.toNat, 0)]
  | .spwn z a h c l => pack 0x72000000 [(z.toNat, 31), (a.toNat, 6), (h.toNat, 5), (c.toNat, 4), (l.toNat, 0)]
  | .take z d a l => pack 0x72100000 [(z.toNat, 31), (d.toNat, 13), (a.toNat, 6), (l.toNat, 0)]
  | .done z a s => pack 0x72200000 [(z.toNat, 31), (a.toNat, 6), (s.toNat, 5)]
  | .waitq z d => pack 0x72300000 [(z.toNat, 31), (d.toNat, 13)]
  | .qdom z d => pack 0x72400000 [(z.toNat, 31), (d.toNat, 13)]
  | .give z n => pack 0x72500000 [(z.toNat, 31), (n.toNat, 0)]
  | .claim z n => pack 0x72600000 [(z.toNat, 31), (n.toNat, 0)]
  | .srd z d i => pack 0x78000000 [(z.toNat, 31), (d.toNat, 15), (i.toNat, 0)]
  | .srdU z d i => pack 0x78400000 [(z.toNat, 31), (d.toNat, 15), (i.toNat, 0)]
  | .swr z a i => pack 0x78800000 [(z.toNat, 31), (a.toNat, 8), (i.toNat, 0)]
  | .trap z i => pack 0x7A000000 [(z.toNat, 31), (i.toNat, 0)]
  | .rsm z r => pack 0x7A100000 [(z.toNat, 31), (r.toNat, 0)]
  | .kill z a => pack 0x7A200000 [(z.toNat, 31), (a.toNat, 0)]
  | .bkpt z => pack 0x7A300000 [(z.toNat, 31)]
  | .hx z => pack 0x7A400000 [(z.toNat, 31)]
  | .hintWide w => pack 0x7E000000 [(w.toNat, 0)]
  | .hintMod e c n m a s r q => pack 0x7E200000 [(e.toNat, 9), (c.toNat, 7), (n.toNat, 6), (m.toNat, 5), (a.toNat, 4), (s.toNat, 3), (r.toNat, 2), (q.toNat, 0)]
  | .hintThird t => pack 0x7E400000 [(t.toNat, 0)]
  | .hintGuard n p => pack 0x7E600000 [(n.toNat, 3), (p.toNat, 0)]
  | .hintRtag r => pack 0x7E800000 [(r.toNat, 0)]
  | .hintTtag t => pack 0x7EA00000 [(t.toNat, 0)]
  | .hintCredit s => pack 0x7EC00000 [(s.toNat, 0)]
  | _ => none

/-- The bytes of a word as the hardware stores it: little-endian (R132). -/
def wordBytes (w : BitVec 32) : List (BitVec 8) :=
  [BitVec.ofNat 8 w.toNat, BitVec.ofNat 8 (w.toNat / 2 ^ 8), BitVec.ofNat 8 (w.toNat / 2 ^ 16), BitVec.ofNat 8 (w.toNat / 2 ^ 24)]

/-- The word four stored bytes make. -/
def bytesWord : List (BitVec 8) → BitVec 32
  | [a, b, c, d] => BitVec.ofNat 32 (a.toNat + b.toNat * 2 ^ 8 + c.toNat * 2 ^ 16 + d.toNat * 2 ^ 24)
  | _ => 0

/-- What the decoder of encoding version 3 reads from an instruction of nbits bits: every instruction is one 32-bit word
(R132), and the bits above nbits are 0. -/
def decodeTableWord (nbits w : Nat) : Option Instr :=
  match decode 3 (bytesWord (wordBytes (BitVec.ofNat 32 (w % 2 ^ nbits)))) with
  | .ok i => some i
  | .error _ => none

end Sys2Proof
end

