-- ==== Sys2Proof/Machine/Maps.lean ====
section
/-!
DEFINITION. Sys2Proof/Machine/Maps.lean: finite tables as lists of (key, value) pairs, keys strictly rising. Memory, register
files and every table of State are such lists. Where unlisted keys read as a default, no entry holds that default, so equal
contents are equal data.
-/

namespace Sys2Proof.Machine

/-- A finite table: pairs of key and value, keys strictly rising. -/
abbrev Tab (α : Type) := List (Nat × α)

/-- The entry at a key. -/
def look {α : Type} : Tab α → Nat → Option α
  | [], _ => none
  | (k, v) :: m, a => if a = k then some v else look m a

/-- Put an entry at its place among rising keys, in the stead of one with its key. -/
def put {α : Type} : Tab α → Nat → α → Tab α
  | [], a, v => [(a, v)]
  | (k, w) :: m, a, v => if a < k then (a, v) :: (k, w) :: m else if a = k then (a, v) :: m else (k, w) :: put m a v

/-- Take every entry at a key away. -/
def cut {α : Type} : Tab α → Nat → Tab α
  | [], _ => []
  | (k, w) :: m, a => if a = k then cut m a else (k, w) :: cut m a

/-- Set (`some`) or remove (`none`) the entry at a key, keeping the keys rising. -/
def upd {α : Type} (m : Tab α) (a : Nat) : Option α → Tab α
  | some v => put m a v
  | none => cut m a

/-- Keys strictly rising, all above `lo` when it is given. -/
def rising {α : Type} : Option Nat → Tab α → Bool
  | _, [] => true
  | none, (k, _) :: m => rising (some k) m
  | some lo, (k, _) :: m => decide (lo < k) && rising (some k) m

/-- What a table with a default reads at a key. -/
def rd {α : Type} (d : α) (m : Tab α) (a : Nat) : α := (look m a).getD d

/-- Write a key of a table with a default: an entry that would hold the default is dropped. -/
def wr {α : Type} [DecidableEq α] (d : α) (m : Tab α) (a : Nat) (v : α) : Tab α :=
  upd m a (if v = d then none else some v)

/-- The canonical form of a table with a default. -/
def canon {α : Type} [DecidableEq α] (d : α) (m : Tab α) : Bool := rising none m && m.all fun e => decide (e.2 ≠ d)

end Sys2Proof.Machine
end

