-- ==== Sys2Proof/Machine/State.lean ====
section
/-!
DEFINITION. Sys2Proof/Machine/State.lean: everything the spec gives the package, as plain data, and the package after reset.
Every agent the spec names has its part here; `schedule`, `cur`, `now`, `nextId`, `free` and `phys` are the model's own.
-/

namespace Sys2Proof.Machine

/-- Reasons a run stops for good. The Euquel 940 has none: every fault it names is taken by the machine itself (14 R345), so
no meaning raises one, and a step never answers with it (safe). -/
inductive Fault where
  /-- Raised by nothing (safe). -/
  | none
  deriving DecidableEq, Repr

/-- Reasons the model gives no next state. -/
inductive Refusal where
  /-- An instruction whose meaning is not written. Raised by its arm of `exec` alone (safe). -/
  | notModelled (mnemonic : String)
  /-- An instruction word is executed while no lane has chosen a path for it (12 R290). Raised by `issue`; `step` never meets
  it, because it executes words only for the current path (safe). -/
  | noPath
  deriving DecidableEq, Repr

/-- The payload of a MOD hint (06 R140). -/
structure Mod where
  rm : BitVec 2 := 0
  rmen : Bool := false
  sat : Bool := false
  nega : Bool := false
  negb : Bool := false
  negc : Bool := false
  cache : BitVec 2 := 0
  d64 : Bool := false
  deriving DecidableEq, Repr

/-- The hints of a chain read so far (06 R139, R140). -/
structure Hints where
  wide : Option (BitVec 21) := none
  mod : Option Mod := none
  third : Option (BitVec 7) := none
  guard : Option (Bool × BitVec 3) := none
  rtag : Option (BitVec 8) := none
  ttag : Option (BitVec 16) := none
  credit : Option (BitVec 5) := none
  deriving DecidableEq, Repr

/-- An entry of the divergence stack (12 R293). `ppc` is a byte offset; `pushed` is its place in the strand's order of pushing (14 R353). -/
structure StackEntry where
  fmask : Mask := 0
  pmask : Mask := 0
  ppc : Word := 0
  side : Bool := false
  nfrs : Word := 0
  pushed : Nat := 0
  deriving DecidableEq, Repr

/-- A run (12 R284): no word of it has issued while `words` is 0; it takes the banks of tables and model slots as its first word
issues (09 R211, R220): bit t of `tables` for table t, bit m of `models` for slot m. -/
structure Run where
  words : Nat := 0
  tables : BitVec 8 := 0
  models : BitVec 64 := 0
  deriving DecidableEq, Repr

/-- What a path records of its own fault, before the stop writes the record (14 R347). -/
structure PathFault where
  cause : Nat
  qual : Nat := 0
  emask : Mask := 0
  whole : Bool := false
  defer : Bool := false
  pc : Word := 0
  addr : Nat := 0
  aux : Nat := 0
  /-- of a joint operation: its record goes to the context fault queue (10 R254) -/
  team : Bool := false
  deriving DecidableEq, Repr

/-- A chain to issue again and where the path goes after it (14 R356). -/
structure Reissue where
  cont : Word := 0
  live : Mask := 0
  /-- the BAR.arrive-wait at `cont` has made its arrival (13 R342) -/
  half : Bool := false
  deriving DecidableEq, Repr

/-- One path of a strand (12 R281, R292). -/
structure Path where
  pc : Word := 0
  act : Mask := 0
  nfr : Word := 0x13000000#32
  stack : List StackEntry := []
  hints : Hints := {}
  /-- the offset of the first word of the chain being read -/
  chainPc : Word := 0
  chainLen : Nat := 0
  /-- words issued so far, hints included: the base of lookahead counts (06 R137) -/
  words : Nat := 0
  /-- outstanding instructions: operation, words issued when it issued, lookahead -/
  outs : List (Nat × Nat × Nat) := []
  run : Option Run := none
  arrived : Bool := false
  ended : Bool := false
  /-- whether it is ready, the step after which it last became ready, and its passes (12 R289 to R291) -/
  isReady : Bool := false
  age : Nat := 0
  passes : Nat := 0
  /-- the step since which the scoreboard or the lookahead has held its next chain, in its run (12 R286) -/
  heldFrom : Option Nat := none
  /-- the operations that its next chain, an MRD or an MZ, waits for (10 R257) -/
  awaits : Option (List Nat) := none
  fault : Option PathFault := none
  reissue : Option Reissue := none
  /-- breakpoints do not match the next chain (15 R372) -/
  skipBp : Bool := false
  /-- a BAR.arrive-wait at pc has made its arrival and waits (13 R339, R342) -/
  half : Bool := false
  deriving DecidableEq, Repr

/-- What a strand is doing (14 R345, R354; 12 R315). -/
inductive Mode where
  | running
  /-- a fault or a stop request has stopped it; it drains before the record is written -/
  | stopping
  /-- its image and records stand in its save slot, for the host -/
  | stopped
  /-- a handler strand runs in its slot -/
  | handler
  /-- it has no live thread and drains before its slot is freed -/
  | exiting
  deriving DecidableEq, Repr

/-- A fault found after issue (03 R67). -/
structure Deferred where
  fault : PathFault
  path : Nat := 0
  acc : Option Nat := none
  batch : Option Word := none
  /-- vector registers and uniform registers the faulting instruction was to write (07 R159) -/
  vregs : List Nat := []
  sregs : List Nat := []
  /-- predicates it was to write -/
  preds : List Nat := []
  /-- long accumulators it was to write, as a mask -/
  accs : Nat := 0
  /-- found while its strand drained: the stop records it for its path (14 R345) -/
  drain : Bool := false
  deriving DecidableEq, Repr

/-- An entry of a recovery queue (09 R231), with the descriptor's register codes. -/
structure RecEntry where
  ctx : Nat := 0
  region : Nat := 0
  header : Nat := 0
  pc : Word := 0
  source : Nat := 0
  srcSlot : Nat := 0
  srcThread : Nat := 0
  srcAllot : Nat := 0
  sample : Bool := false
  args : List Word := []
  ys : List Word := []
  argRegs : List Nat := []
  resRegs : List Nat := []
  /-- the handler in the source's slot made it (14 R354) -/
  handler : Bool := false
  /-- of an entry of a recovery strand: its merge has been counted (09 R238) -/
  done : Bool := false
  deriving DecidableEq, Repr

/-- A strand in a slot of a core (12 R281, R282). -/
structure Strand where
  gang : Nat := 0
  index : Nat := 0
  role : Nat := 0
  lane : Nat := 0
  allot : Nat := 32
  v : Tab Word := []
  s : Tab Word := []
  /-- predicates p1 to p7 as thread masks -/
  p : Tab Word := []
  divided : Bool := false
  nfrs : Word := 0
  frozen : List StackEntry := []
  path0 : Path := {}
  path1 : Path := {}
  /-- sealed and finished batches of the four access paths (03 R64) -/
  sealedB : Tab Word := []
  finishedB : Tab Word := []
  l0 : BitVec 512 := 0
  l1 : BitVec 512 := 0
  fl0 : BitVec 2 := 0
  fl1 : BitVec 2 := 0
  srgCount : Word := 0
  pending : Nat := 0
  rsel : BitVec 8 := 0
  /-- high halves latched by an SRD of the low code (05 R102) -/
  latch : Tab Word := []
  /-- target phases by the bit numbers of TGTV (14 R353) -/
  targets : Tab Word := []
  mode : Mode := .running
  stopReq : Bool := false
  stepFlag : Bool := false
  /-- paths that have issued their chain of a step (15 R373) -/
  stepping : Option (Bool × Bool) := none
  deferred : List Deferred := []
  /-- its last threads were killed (13 R330) -/
  killed : Bool := false
  recov : Option (List RecEntry) := none
  deriving DecidableEq, Repr

/-- The kernel header as taken at placement (06 R150). -/
structure Header where
  version : Nat := 3
  nstr : Nat := 1
  nload : Nat := 0
  nstore : Nat := 0
  vregs : Nat := 0
  carve : Nat := 0
  team : Bool := false
  direct : Nat := 0
  keyu : Nat := 0
  nbcore : Nat := 0
  nbquad : Nat := 0
  nbdie : Nat := 0
  nbpkg : Nat := 0
  nbpod : Nat := 0
  entryOff : Nat := 0
  handlerOff : Nat := 0
  regtab : Nat := 0
  deriving DecidableEq, Repr

/-- A task record (13 R317). `reserved` is true where a bit that must be zero is not. -/
structure Task where
  entry : Nat := 0
  argp : Nat := 0
  tc0 : Nat := 0
  tc1 : Nat := 0
  tc2 : Nat := 0
  tc3 : Nat := 0
  succ : Nat := 0
  weight : Nat := 0
  domain : Nat := 0xFFFFFFFF
  ctx : Nat := 0
  kind : Nat := 0
  prio : Nat := 0
  graph : Bool := false
  ex0 : Nat := 0
  ex1 : Nat := 0
  ex2 : Nat := 0
  nsg : Nat := 0
  gen : Nat := 0
  reserved : Bool := false
  deriving DecidableEq, Repr

/-- A holding of weight (13 R328). -/
structure Holding where
  domain : Nat := 0xFFFFFFFF
  weight : Nat := 0
  returned : Bool := false
  deriving DecidableEq, Repr

/-- A key-table descriptor (04 R87). -/
structure KeyDesc where
  spl : Bool := false
  logu : Nat := 0
  serial : Nat := 0
  baseu : Nat := 0
  seed : Nat := 0
  spobj : Nat := 0
  deriving DecidableEq, Repr

/-- A barrier slot (13 R339; PEND of CORE slots 03 R69). -/
structure BarSlot where
  phase : Word := 0
  arr : Nat := 0
  exp : Nat := 0
  err : Bool := false
  pend : Int := 0
  deriving DecidableEq, Repr

/-- An element of an accumulator tile (05 R127). -/
structure TileElem where
  t : BitVec 96 := 0
  nf : Bool := false
  ovf : Bool := false
  deriving DecidableEq, Repr

/-- An operand buffer of the matrix engine (10 R252). -/
structure OpBuffer where
  ts8 : Bool := false
  planes : Nat := 0
  k512 : Bool := false
  data : List Byte := []
  deriving DecidableEq, Repr

/-- A request of the host held in the save slot of a gang that is not resident (14 R360, 15 R374). -/
inductive Held where
  | stop (strand : Nat)
  | step (strand : Nat)
  | resume (strand : Nat) (mode : Nat)
  deriving DecidableEq, Repr

/-- Where one byte of an access is read: a byte of memory by its key, or padding (01 R42). -/
inductive Src where
  | mem (a : Nat)
  | pad (b : Byte)
  deriving DecidableEq, Repr

/-- One thread's part of an operation: what it names, reads and writes, and the line operation that carries it. -/
structure Item where
  t : Nat
  addr : Nat := 0
  src : List Src := []
  dst : List Nat := []
  val : Nat := 0
  cmp : Nat := 0
  /-- the line operation that carries it -/
  line : Nat := 0
  /-- translated against a read-only-for-launch record (04 R75) -/
  rol : Bool := false
  /-- what has failed it: the cause, with the qualifier above its eight bits; 0 for nothing (03 R67) -/
  bad : Nat := 0
  /-- the place of the failed check in the order of 01 R26 (01 R28) -/
  rank : Nat := 0
  /-- of a second hop: the die whose gather unit forwards it (01 R40) -/
  via : Option Nat := none
  deriving DecidableEq, Repr

/-- What an operation in flight is. -/
inductive OpKind where
  /-- LD, LDU, PREF and the read of LMRG: destination group, bytes, sign extension, uniform destination -/
  | load (dst n : Nat) (sx uni : Bool)
  | lmrg (acc : Nat)
  | prefetch (allocate : Bool)
  /-- ST and LST: true once in place at its home (11 R269) -/
  | store (home : Bool)
  | atomic (f : Nat) (ret : Bool) (dst : Nat) (w : Int) (rm : Nat)
  /-- AOADD: 64 bits, destination, rank, sum; 0 sent, 1 parked, 2 returned, 3 applied (07 R166) -/
  | aoadd (wide : Bool) (dst : Nat) (rank : Word) (sum : Nat) (st : Nat) (since : Nat)
  /-- LDSUM: format 0 b32, 1 b64, 2 grid, 3 FP32; destination; result predicate; die 0's cycle when the reduction point took it;
  RSET, object; what P(0) has brought: 0 a result, 1 a failure, 2 a mismatch, 3 + package a remote failure (02 R53, R54) -/
  | ldsum (f dst q : Nat) (since : Option Nat) (rset obj : Nat) (result : Option Nat)
  /-- CPY: credited slot -/
  | copy (credit : Option Nat)
  | copyv (dst : Nat)
  /-- GATH: element bytes, register destination, credited slot -/
  | gather (n dst : Nat) (toReg : Bool) (credit : Option Nat)
  /-- a key-table instruction whose next thread must append to the spill: function, descriptor, predicate, destination -/
  | key (f desc pd dst : Nat)
  | hclaim (units : Nat)
  | pub (dst id : Nat)
  | stbl (table : Nat) (image : List Byte)
  | sld (slot : Nat) (image : List Byte)
  /-- TSWP and SSW: model slot instead of table, cores that have not taken the new bit -/
  | bankSwap (model : Bool) (slot : Nat) (cores : List Nat)
  | qset (region : Nat)
  /-- SPWN: records not yet accepted (13 R333); DONE: the message it has sent (13 R335) -/
  | spwn (left : Nat)
  | done (msg : Nat)
  /-- MMA and MMT: tile, MMT, A and B addresses, RA, RB, planes of B, tag, accepted -/
  | mma (tile : Nat) (mmt : Bool) (a b : Nat) (ra rb : Bool) (pb tag : Nat) (accepted : Bool)
  | mld (tile addr : Nat) (grid : Bool) (rm : Nat)
  deriving DecidableEq, Repr

/-- The state of one line operation of an operation (03 R60). -/
inductive LineSt where
  | waiting
  | accepted
  | forwarded
  | finished
  deriving DecidableEq, Repr

/-- A translation in flight (01 R34): of a copy or gather, until the line operation that it serves has finished. -/
structure GenRef where
  die : Nat
  ctx : Nat
  obj : Nat
  gen : Nat
  shadow : Bool := false
  line : Option Nat := none
  deriving DecidableEq, Repr

/-- An operation in flight (03 R63). -/
structure Op where
  kind : OpKind
  strand : Nat := 0
  gang : Nat := 0
  ctx : Nat := 0
  core : Nat := 0
  /-- 0 or 1 for the path of a divided strand that issued it, 2 for an undivided strand -/
  path : Nat := 2
  acc : Option Nat := none
  batch : Option Word := none
  items : List Item := []
  lines : List LineSt := []
  data : List (List Byte) := []
  vregs : List Nat := []
  sregs : List Nat := []
  preds : List Nat := []
  outstanding : Bool := true
  cache : Nat := 0
  gens : List GenRef := []
  /-- lines that fills have brought, by line number (04 R76) -/
  got : Tab (List Byte) := []
  pc : Word := 0
  mask : Mask := 0
  /-- its line lies under an enabled watchpoint, and what has fired (15 R378) -/
  watched : Bool := false
  fired : List (Nat × Nat) := []
  /-- of a load: lines an invalidation has reached since the request left (04 R76); of a store: lines filled since it took
  effect at its home -/
  dead : List Nat := []
  /-- of a store: the step at which it took effect at its home (11 R269) -/
  homed : Nat := 0
  /-- of GATH.x: the record of the value object that the request carries (01 R39) -/
  carried : List Byte := []
  /-- its requests that Lantern has tagged, by number (15 R383) -/
  tags : List Nat := []
  /-- the path's active threads as it issued, whatever its guard -/
  active : Mask := 0
  /-- the vector registers its instruction reads or writes (12 R300) -/
  named : List Nat := []
  /-- path 1 of a divided strand issued it (15 R385) -/
  from1 : Bool := false
  born : Nat := 0
  deriving DecidableEq, Repr

/-- What is kept of a stopped or saved path beside its image: its PC there, the arrival of a BAR.arrive-wait at it (13 R342), the
chain to issue again at it (14 R356), and its lookahead counts (12 R287; log 20, DEDUCED). -/
structure PathKeep where
  pc : Word := 0
  half : Bool := false
  reissue : Option (Reissue × Mask) := none
  words : Nat := 0
  outs : List (Nat × Nat × Nat) := []
  deriving DecidableEq, Repr

/-- What is kept of a stopped or saved strand beside its image: the masks and allotment a resume checks (14 R356), the deferred
faults not yet recorded (14 R345), the AOADD requests withdrawn (07 R168), its step flag and how far a step is (15 R373), a recovery
strand's entries, and whether it had ended, its open sets sealed, before it stopped (03 R68). -/
structure Saved where
  live0 : Mask := 0
  live1 : Mask := 0
  allot : Nat := 32
  keep0 : PathKeep := {}
  keep1 : PathKeep := {}
  deferred : List Deferred := []
  aoadds : List (Nat × Op) := []
  step : Bool := false
  stepping : Option (Bool × Bool) := none
  ended : Bool := false
  recov : Option (List RecEntry) := none
  /-- entries pending of a strand whose handler runs (09 R231, 14 R354) -/
  pending : Nat := 0
  deriving DecidableEq, Repr

/-- A gang from its first placement to its end (14 R352). -/
structure Gang where
  task : Task := {}
  hdr : Header := {}
  index : Nat := 0
  launch : Nat := 0
  core : Nat := 0
  gslot : Nat := 0
  /-- core byte address of its scratchpad allotment (04 R79) -/
  base : Nat := 0
  resident : Bool := true
  bound : Bool := false
  swap : Bool := false
  placed : Nat := 0
  live : Nat := 0
  stopped : List Nat := []
  held : List Held := []
  prim : Holding := {}
  sec : Option Holding := none
  keys : Tab KeyDesc := []
  claims : Nat := 0
  tiles : Tab TileElem := []
  windows : Tab (BitVec 9) := []
  bufA : Option OpBuffer := none
  bufB : Option OpBuffer := none
  pinned : Option (Nat × Nat) := none
  /-- the spill entry its record was read from, if it was spilled (14 R347) -/
  src : Nat := 0
  /-- of each strand whose image stands in the save slot, by its index, or 32 and its recovery slot: what the image omits -/
  saved : Tab Saved := []
  deriving DecidableEq, Repr

/-- A line of an L1 (04 R75): its key is its memory key divided by 128. -/
structure L1Line where
  data : List Byte := []
  rol : Bool := false
  /-- filled evict-first (07 R157), and the step of the fill: what replacement goes by (log 6, DESIGN CHOICE) -/
  first : Bool := false
  since : Nat := 0
  deriving DecidableEq, Repr

/-- A watchpoint (15 R377). -/
structure Watch where
  addr : Dword := 0
  value : Dword := 0
  vmask : Dword := 0
  ctl : Dword := 3
  deriving DecidableEq, Repr

/-- An energy counter (14 R366). -/
structure Counter where
  count : Nat := 0
  sat : Bool := false
  deriving DecidableEq, Repr

/-- A CLAIM waiting for its lane (12 R301). -/
structure ClaimReq where
  strand : Nat
  path : Nat
  blocks : Nat
  head : Nat
  deriving DecidableEq, Repr

/-- A core. -/
structure Core where
  l1 : Tab L1Line := []
  carve : Nat := 0
  carveCtx : Nat := 0
  tags : Tab Dword := []
  matchList : List Nat := []
  queue : List Nat := []
  recq : List RecEntry := []
  /-- active-bank bits taken, by context (09 R211, R220) -/
  tbits : Tab (BitVec 8) := []
  mbits : Tab (BitVec 64) := []
  disabled : List (Nat × Nat) := []
  energy : Tab Counter := []
  /-- contexts whose counter the core holds (14 R367) -/
  holding : List Nat := []
  charges : Tab Nat := []
  ibp : Tab Dword := []
  wp : Tab Watch := []
  dbgctl : Dword := 3
  dbgstat : Dword := 0
  evc0 : Dword := 0
  evc1 : Dword := 0
  claims : List (Nat × ClaimReq) := []
  lantern : Nat := 0
  deriving DecidableEq, Repr

/-- The state of a quad queue entry (13 R324). -/
inductive QState where
  | queued
  | lent
  | pending
  deriving DecidableEq, Repr

/-- A record in a quad queue (13 R321): its gang if it has been placed before, and its entry in the die's Onyx SRAM. -/
structure QRec where
  task : Task := {}
  entered : Nat := 0
  st : QState := .queued
  gang : Option Nat := none
  launch : Nat := 0
  index : Nat := 0
  id : Nat := 0
  slot : Nat := 0
  /-- the object address of the spill entry it was read from, if it was spilled (14 R347) -/
  src : Nat := 0
  deriving DecidableEq, Repr

/-- A quad: its queue in order of arrival, its sensors (16 R395), its hold on younger placements (12 R304; log 9, DESIGN CHOICE). -/
structure Quad where
  queue : List QRec := []
  tcd : BitVec 8 := 0
  tbd : BitVec 8 := 0
  peak : BitVec 8 := 0
  hold : Option Nat := none
  excluded : Bool := false
  deriving DecidableEq, Repr

/-- A die: its registers of the host window (16 R387), its soft-error counts by class and unit and the units that have failed in the
window (14 R369), and the trace records in flight in its unit (15 R380). -/
structure Die where
  tqcfg : Dword := 0
  trctl : Dword := 0x103FC
  trbase : Dword := 0
  trlen : Dword := 0
  trhead : Dword := 0
  lantern : Dword := 20
  errors : Tab Nat := []
  failed : List Nat := []
  traced : List (List Byte) := []
  deriving DecidableEq, Repr

/-- An active context (14 R351): the fields the device read when it started, and its banks (09 R209, R220). -/
structure Ctx where
  stopped : Bool := false
  logall : Bool := false
  otbase : Nat := 0
  otlen : Nat := 0
  ftarea : Nat := 0
  mdarea : Nat := 0
  regarea : Nat := 0
  tspill : Nat := 0
  fqobj : Nat := 0
  gsobj : Nat := 0
  qstr : Nat := 0
  qvreg : Nat := 0
  qscr : Nat := 0
  qlog : Nat := 20
  enarea : Nat := 0
  podmap : BitVec 16 := 0
  tactive : BitVec 8 := 0
  tfilled : BitVec 16 := 0
  mactive : BitVec 64 := 0
  mfilled : BitVec 128 := 0
  deriving DecidableEq, Repr

/-- A launch (13 R319): the record, the next gang to issue, what has been placed and ended, its die if it has one. -/
structure Launch where
  task : Task := {}
  hdr : Header := {}
  n : Nat := 1
  next : Nat := 0
  weight : Nat := 0
  ended : Nat := 0
  die : Option Nat := none
  slots : Bool := false
  pin : Option (Nat × Nat) := none
  /-- where its record came from, as `TakeReq` has it -/
  origin : Nat := 0
  addr : Nat := 0
  deriving DecidableEq, Repr

/-- A publish (01 R31): by an operation's PUB or by the port, and how far it is. -/
structure Pub where
  ctx : Nat := 0
  obj : Nat := 0
  op : Option Nat := none
  expGen : Option Nat := none
  received : Bool := false
  swapped : Bool := false
  waiting : List Nat := []
  oldRecord : List Byte := []
  newGen : Nat := 0
  deriving DecidableEq, Repr

/-- A generation that is not retired (01 R34). -/
structure Unretired where
  ctx : Nat
  obj : Nat
  gen : Nat
  port : Bool := false
  deriving DecidableEq, Repr

/-- Pins of a generation of an object (01 R33). -/
structure Pin where
  ctx : Nat
  obj : Nat
  gen : Nat
  count : Nat := 1
  deriving DecidableEq, Repr

/-- A message of weight on its way (13 R325, R328): a decrement from a die. -/
inductive Msg where
  | ret (domain weight : Nat)
  | dec (succ weight domain ctx gen : Nat) (graph : Bool) (die : Nat)
  deriving DecidableEq, Repr

/-- A steal in progress (13 R324). -/
structure Steal where
  item : QRec := {}
  victim : Nat := 0
  thief : Nat := 0
  start : Nat := 0
  /-- 0 copy on its way, 1 ACK on its way, 2 CONFIRM on its way, 3 REFUSE on its way -/
  stage : Nat := 0
  timedOut : Bool := false
  deriving DecidableEq, Repr

/-- A reduction held as a member of a replica set (02 R53, R54). -/
structure Member where
  f : Nat := 0
  rset : Nat := 0
  rank : Nat := 0
  count : Nat := 1
  /-- own elements and the partials of the children received so far, one number an element -/
  own : List Nat := []
  kids : List (Nat × List Nat) := []
  /-- as the result of an LDSUM: 0 none, 1 a failure, 2 a mismatch, 3 + package a remote failure -/
  status : Nat := 0
  start : Nat := 0
  op : Option Nat := none
  deriving DecidableEq, Repr

/-- An increment of a region state record on its way to its slice (09 R235). -/
structure RegionUpd where
  ctx : Nat := 0
  region : Nat := 0
  strand : Nat := 0
  calls : Nat := 0
  fallb : Nat := 0
  samp : Nat := 0
  viol : Nat := 0
  err : Option Word := none
  sq : BitVec 128 := 0
  deriving DecidableEq, Repr

/-- A fault record waiting for its queue (14 R350). -/
structure FaultAppend where
  ctx : Nat := 0
  cause : Nat := 0
  record : List Byte := []
  toHost : Bool := true
  deriving DecidableEq, Repr

/-- The host window's package registers (16 R387) and what stands behind them (log 9, DESIGN CHOICE). -/
structure Window where
  caps : Dword := 0x3800000000
  bootstat : Dword := 0
  ctxoff : Dword := 0
  plceil : Dword := 95
  pwrctl : Dword := 3400
  clkctl : Dword := 0
  rascfg : Dword := 0x10100
  stealctl : Dword := 48
  tkstat : Dword := 0
  ctxctl : Dword := 0
  hrsm : Dword := 0
  dstop : Dword := 0
  opstat : Dword := 0
  rpctl : Dword := 20
  rstoff : Dword := 0
  rpstat : Dword := 0
  enwt0 : Dword := 0x0040000400280018
  enwt1 : Dword := 0x02BC001E000A000C
  enstat : Dword := 0
  intbase : Dword := 0
  intcfg : Dword := 0xFFFF0000
  inthead : Dword := 0
  inttail : Dword := 0
  apbase : Dword := 0
  deriving DecidableEq, Repr

/-- A record on its way to the dispatcher (13 R318): from the host 0, from SPWN 1, from a counter 2; the quad whose room it has
reserved, or room of the spill; the object address it was read at; a pin of its graph that it already holds (13 R326); the SPWN that waits
for it (13 R333). -/
structure TakeReq where
  task : Task := {}
  origin : Nat := 0
  quad : Option Nat := none
  spill : Bool := false
  addr : Nat := 0
  pinned : Bool := false
  op : Option Nat := none
  deriving DecidableEq, Repr

/-- An entry of the boot log (16 R394), and its place in the order of writing. -/
structure BootEntry where
  word : BitVec 128 := 0
  age : Nat := 0
  deriving DecidableEq, Repr

/-- Package state that is neither a unit's nor a context's (log 9, DESIGN CHOICE). -/
structure Pkg where
  win : Window := {}
  /-- interrupt records waiting (16 R388) -/
  intWait : List (List Byte) := []
  faultWait : List FaultAppend := []
  /-- records the dispatcher has not yet taken, oldest first (13 R318, R320) -/
  port : List TakeReq := []
  /-- released records held for overflow (13 R322) -/
  overflow : List QRec := []
  /-- what the quads know of each record in a context's spill object beyond its 64 bytes, in append order (13 R322) -/
  spilled : List (Nat × QRec) := []
  launches : Tab Launch := []
  msgs : Tab Msg := []
  steals : Tab Steal := []
  pubs : Tab Pub := []
  unretired : List Unretired := []
  pins : List Pin := []
  members : Tab Member := []
  updates : Tab RegionUpd := []
  qcRegions : List (Nat × Nat) := []
  /-- units out of use: class of 14 R369 and unit index -/
  excluded : List (Nat × Nat) := []
  /-- rows of a unit's spares in use (14 R369) -/
  spared : Tab Nat := []
  /-- units that have failed and whose action waits until the gangs on them are saved: class and index (14 R369) -/
  failing : List (Nat × Nat) := []
  /-- the boot log in its order of storage, the boot count, the firmware image in use (16 R393, R394) -/
  bootLog : List BootEntry := []
  boots : Nat := 0
  image : Nat := 0
  /-- context and object of the publish port's last request (01 R36) -/
  portLast : Option (Nat × Nat) := none
  badLinks : List Nat := []
  badPorts : List Nat := []
  /-- the Wilmo ports that boot has trained on the dies of the set (16 R392, R393) -/
  ports : List Nat := []
  gated : Nat := 0
  coolFrom : Option Nat := none
  /-- announced changes of CUR, each with its cycle (16 R396) -/
  clockAt : List (Nat × Nat) := []
  ctxOp : Option (Nat × Nat) := none
  /-- how often each MSI-X vector has been signalled (16 R388) -/
  signals : Tab Nat := []
  /-- what the last aperture read gave the host, and the last sideband read its controller (16 R386, R397) -/
  hostData : List Byte := []
  sideData : List Byte := []
  /-- the mailbox: the nonce, the nonce of the request being served, the control word, the report (16 R398) -/
  attNonce : BitVec 384 := 0
  attTaken : BitVec 384 := 0
  attCtl : Dword := 0
  attReport : List Byte := [1, 0, 0, 0, 0, 0, 0, 0]
  deriving DecidableEq, Repr

/-- What the hardware itself is: the environment of the model (log 4, DESIGN CHOICE). -/
structure Phys where
  /-- the part is a Euquel 470 (00 R8) -/
  part470 : Bool := false
  /-- bytes of memory, by key, whose error ECC cannot correct (01 R22, 02 R43, 04 R79) -/
  bad : List Nat := []
  /-- operand buffers whose bytes ECC cannot correct, by twice the core's number, B's one above (10 R255) -/
  badBuf : List Nat := []
  /-- (step, unit) pairs that fail when boot tries them (16 R393) -/
  bootFails : List (Nat × Nat) := []
  /-- host bus lines, by key / 128, whose PCIe access ends in an error (16 R387) -/
  pcieBad : List Nat := []
  deriving DecidableEq, Repr

/-- What the schedule lets happen next: a step of a unit, or one word of a path (log 3, DESIGN CHOICE). -/
inductive Sched where
  | event (i : Instr)
  | issue (strand : Nat) (path : Nat)
  deriving DecidableEq, Repr

/-- The package. -/
structure State where
  /-- all storage, by key (Machine/Mem): HBM stacks, Onyx SRAM, host memory, scratchpads -/
  mem : List Host.Cell := []
  cores : Tab Core := []
  quads : Tab Quad := []
  dies : Tab Die := []
  ctxs : Tab Ctx := []
  gangs : Tab Gang := []
  strands : Tab Strand := []
  ops : Tab Op := []
  /-- barrier slots, by scope, owner and slot (Machine/Barriers) -/
  bars : Tab BarSlot := []
  pkg : Pkg := {}
  phys : Phys := {}
  /-- the path whose lane issues next: strand and path -/
  cur : Option (Nat × Nat) := none
  now : Nat := 0
  schedule : List Sched := []
  nextId : Nat := 1
  free : Nat := 0
  deriving DecidableEq, Repr

/-- The package right after reset: nothing has booted, nothing is placed, memory lists nothing (16 R393; log 2, DESIGN CHOICE; log 9, DESIGN CHOICE). -/
def State.reset : State := {}

end Sys2Proof.Machine
end

