-- ==== Sys2Proof/Machine/Operands.lean ====
section
/-!
DEFINITION. Sys2Proof/Machine/Operands.lean: reading and writing the registers and predicates of a strand (05 R94 to R98), and
for each instruction what the issue logic needs to know of it: the registers it names, its guard class, the hints it accepts
and its lookahead (06 R134 to R142, 07 R158, 08 R181, R182).
-/

namespace Sys2Proof.Machine

/-- Thread t is in a mask. -/
def has (m : Mask) (t : Nat) : Bool := m.getLsbD t
/-- The active threads of a mask, ascending (00 R15). -/
def active (m : Mask) : List Nat := threads.filter (has m)
/-- The lowest-numbered active thread; 0 when there is none. -/
def lowest (m : Mask) : Nat := (active m).headD 0
/-- The mask of the threads of a list. -/
def maskOf (ts : List Nat) : Mask := ts.foldl (fun m t => m ||| (1#32 <<< t)) 0
/-- The mask of the threads for which f holds. -/
def maskWhere (f : Nat → Bool) : Mask := maskOf (threads.filter f)

/-- Vector register r of thread t. -/
def Strand.vreg (st : Strand) (r t : Nat) : Word := rd 0 st.v (r * 32 + t)
/-- Uniform register r. -/
def Strand.sreg (st : Strand) (r : Nat) : Word := rd 0 st.s r
/-- Predicate p as a thread mask; p0 reads true (05 R97). -/
def Strand.pmask (st : Strand) (p : Nat) : Mask := if p = 0 then 0xFFFFFFFF else rd 0 st.p p
/-- Predicate p of thread t. -/
def Strand.pred (st : Strand) (p t : Nat) : Bool := has (st.pmask p) t
/-- A vector source of 32 bits: codes 112 to 127 broadcast s0 to s15 (06 R134). -/
def Strand.src (st : Strand) (c t : Nat) : Word := if c < 112 then st.vreg c t else st.sreg (c - 112)
/-- The number held by a group of n source registers, low register first (05 R95, 07 R157). -/
def Strand.srcN (st : Strand) (c n t : Nat) : Nat :=
  match n with
  | 0 => 0
  | k + 1 => (st.src c t).toNat + 2 ^ 32 * st.srcN (c + 1) k t
/-- A 64-bit source (05 R95). -/
def Strand.src64 (st : Strand) (c t : Nat) : Nat := st.srcN c 2 t
/-- The uniform pair s(c), s(c + 1) (05 R96). -/
def Strand.upair (st : Strand) (c : Nat) : Nat := (st.sreg c).toNat + 2 ^ 32 * (st.sreg (c + 1)).toNat

def Strand.setV (st : Strand) (r t : Nat) (w : Word) : Strand := { st with v := wr 0 st.v (r * 32 + t) w }
def Strand.setS (st : Strand) (r : Nat) (w : Word) : Strand := { st with s := wr 0 st.s r w }
/-- Write a predicate for the threads of a mask; a write to p0 is ignored (05 R97). -/
def Strand.setP (st : Strand) (p : Nat) (m val : Mask) : Strand :=
  if p = 0 then st else { st with p := wr 0 st.p p ((st.pmask p &&& ~~~m) ||| (val &&& m)) }
/-- Write the low words of a number to a group of n registers of thread t. -/
def Strand.setGroup (st : Strand) (r : Nat) : Nat → Nat → Nat → Strand
  | 0, _, _ => st
  | n + 1, t, v => (st.setV r t (BitVec.ofNat 32 v)).setGroup (r + 1) n t (v / 2 ^ 32)
/-- Write the low words of a number to n uniform registers. -/
def Strand.setSGroup (st : Strand) (r : Nat) : Nat → Nat → Strand
  | 0, _ => st
  | n + 1, v => (st.setS r (BitVec.ofNat 32 v)).setSGroup (r + 1) n (v / 2 ^ 32)
/-- Write a vector register of every listed thread. -/
def Strand.setEach (st : Strand) (r : Nat) (ts : List Nat) (f : Nat → Word) : Strand := ts.foldl (fun st t => st.setV r t (f t)) st
/-- Write a group of n registers of every listed thread. -/
def Strand.setEachGroup (st : Strand) (r n : Nat) (ts : List Nat) (f : Nat → Nat) : Strand :=
  ts.foldl (fun st t => st.setGroup r n t (f t)) st

/-- A path of a strand by its number; an undivided strand uses path 0 unless it last ran as path 1 alone. -/
def Strand.path (st : Strand) (i : Nat) : Path := if i = 1 then st.path1 else st.path0
def Strand.setPath (st : Strand) (i : Nat) (p : Path) : Strand := if i = 1 then { st with path1 := p } else { st with path0 := p }

/-- The file a register operand is in. -/
inductive File where
  | vec
  | uni
  | pred
  deriving DecidableEq, Repr

/-- A register operand: `n` registers from `code`; a vector source may be broadcast. `free` marks a group that needs no
alignment (10 R266). -/
structure Use where
  write : Bool
  file : File
  code : Nat
  n : Nat := 1
  free : Bool := false
  deriving DecidableEq, Repr

def vr (c : BitVec 7) (n : Nat := 1) : Use := { write := false, file := .vec, code := c.toNat, n }
def vw (c : BitVec 7) (n : Nat := 1) : Use := { write := true, file := .vec, code := c.toNat, n }
def ur (c : Nat) (n : Nat := 1) : Use := { write := false, file := .uni, code := c, n }
def uw (c : Nat) (n : Nat := 1) : Use := { write := true, file := .uni, code := c, n }
def pr (p : Nat) : Use := { write := false, file := .pred, code := p }
def pw (p : Nat) : Use := { write := true, file := .pred, code := p }

/-- Sources and destination of an ALU form: uniform when x = 1 (06 R135). -/
def alu3 (x : BitVec 1) (d a b : BitVec 7) (nd na nb : Nat) : List Use :=
  if x == 1 then [uw d.toNat nd, ur a.toNat na, ur b.toNat nb] else [vw d nd, vr a na, vr b nb]
def alu2 (x : BitVec 1) (d a : BitVec 7) (nd na : Nat) : List Use :=
  if x == 1 then [uw d.toNat nd, ur a.toNat na] else [vw d nd, vr a na]
/-- A destination that is also a source. -/
def acc (x : BitVec 1) (d : BitVec 7) : List Use := if x == 1 then [ur d.toNat] else [vr d]

def Hints.d64 (h : Hints) : Bool := match h.mod with | some m => m.d64 | none => false
def Hints.sat (h : Hints) : Bool := match h.mod with | some m => m.sat | none => false
def Hints.nega (h : Hints) : Bool := match h.mod with | some m => m.nega | none => false
def Hints.negb (h : Hints) : Bool := match h.mod with | some m => m.negb | none => false
def Hints.negc (h : Hints) : Bool := match h.mod with | some m => m.negc | none => false
/-- The cache policy: 0 normal, 1 evict-first, 2 bypass (04 R74). -/
def Hints.cache (h : Hints) : Nat := match h.mod with | some m => m.cache.toNat | none => 0
/-- The WIDE payload as a signed number (06 R140). -/
def Hints.wideInt (h : Hints) : Int := match h.wide with | some w => w.toInt | none => 0

/-- Registers of 1, 2, 4, 8 or 16 bytes. -/
def regsOf (bytes : Nat) : Nat := if bytes ≤ 4 then 1 else if bytes = 8 then 2 else 4
/-- Bytes of the size codes of LD and ST: b8, b16, b32, b64 (06 R143). -/
def sizeOf (s : BitVec 2) : Nat := 2 ^ s.toNat
/-- Bytes of the extended loads: b128, b8.sx, b16.sx (06 R143). -/
def sizeExt (s : BitVec 2) : Nat := if s == 0 then 16 else if s == 1 then 1 else 2
/-- Registers of an atomic's operand, by operation (07 R163). -/
def atomSrc (o : BitVec 4) : Nat := if o == 1 || o == 10 || o == 11 then 2 else if o == 12 then 4 else 1
def atomDst (o : BitVec 4) : Nat := if o == 1 || o == 10 || o == 12 then 2 else if o == 14 then 4 else 1

/-- The registers an instruction names under its hints. The d registers of LD, for instance, are written; those of ST read. -/
def uses (i : Instr) (h : Hints) : List Use :=
  let w := if h.d64 then 2 else 1
  let c3 (n : Nat := 1) : List Use := match h.third with | some c => [vr c n] | none => []
  let u3 (x : BitVec 1) (d : BitVec 7) : List Use := match h.third with
    | some c => if x == 1 then [ur c.toNat] else [vr c]
    | none => acc x d
  let base (k : Nat) : List Use := [ur (2 * k) 2]
  match i with
  | .iadd _ d a b x | .isub _ d a b x | .imul _ d a b x | .min _ d a b x | .max _ d a b x
  | .and _ d a b x | .or _ d a b x | .xor _ d a b x | .andn _ d a b x => alu3 x d a b w w w
  | .imulh _ d a b x | .bfx _ d a b x => alu3 x d a b 1 1 1
  | .imad _ d a b x => alu3 x d a b 1 1 1 ++ u3 x d
  | .lea _ d a b x => alu3 x d a b 2 2 1
  | .shl _ d a b x | .shr _ d a b x | .sar _ d a b x => alu3 x d a b w w 1
  | .iabs _ d a x | .clz _ d a x | .popc _ d a x | .brev _ d a x => alu2 x d a 1 1
  | .mov _ d a x => alu2 x d a w w
  | .bfi _ d a b x => alu3 x d a b 1 1 1 ++ u3 x d
  | .icmp _ _ d a b x => if x == 1 then [pw d.toNat, ur a.toNat w, ur b.toNat w] else [pw d.toNat, vr a w, vr b w]
  | .sel _ p d a b x => pr p.toNat :: alu3 x d a b w w w
  | .movi _ d _ => [vw d w]
  | .iaddI _ d a _ | .shlI _ d a _ | .shrI _ d a _ | .sarI _ d a _ | .andI _ d a _ | .orI _ d a _ | .xorI _ d a _ => [vw d w, vr a w]
  | .moviU _ d _ => [uw d.toNat w]
  | .iaddIu _ d a _ | .shlIu _ d a _ | .shrIu _ d a _ | .sarIu _ d a _ | .andIu _ d a _ | .orIu _ d a _
  | .xorIu _ d a _ => [uw d.toNat w, ur a.toNat w]
  | .fadd _ d a b x | .fsub _ d a b x | .fmul _ d a b x | .fmin _ d a b x | .fmax _ d a b x => alu3 x d a b 1 1 1
  | .ffma _ d a b x => alu3 x d a b 1 1 1 ++ u3 x d
  | .frnd _ d a x | .fcls _ d a x => alu2 x d a 1 1
  | .fcmp _ _ d a b x => if x == 1 then [pw d.toNat, ur a.toNat, ur b.toNat] else [pw d.toNat, vr a, vr b]
  | .hadd2 _ _ d a b x | .hmul2 _ _ d a b x => alu3 x d a b 1 1 1
  | .hfma2 _ _ d a b x | .fdot2 _ _ d a b x => alu3 x d a b 1 1 1 ++ u3 x d
  | .cvt _ s d a t => [vw d (if wide64 t.toNat then 2 else 1), vr a (if wide64 s.toNat then 2 else 1)]
  | .pack _ m d a b x => alu3 x d a b 1 1 1 ++ (if m.toNat < 4 then [] else acc x d)
  | .unpk _ _ d a b x => alu3 x d a b 1 1 1
  | .fmt _ s d a t => [vw d (fmtRegs s.toNat t.toNat t.toNat), vr a (fmtRegs s.toNat t.toNat s.toNat)]
  | .shfl _ _ d a b => [vw d, vr a, vr b]
  | .vote _ m d a => (if m == 3 then [vr a] else [pr a.toNat]) ++ (if m == 0 || m == 1 || m == 3 then [pw d.toNat] else [vw d])
  | .rdfl _ d a b => vr a :: (if b == 1 then [uw d.toNat] else [vw d])
  | .prfx _ d a _ => [vw d, vr a]
  | .conf _ d a b => [vw d, vr a w, pw b.toNat]
  | .kcomb _ d a _ => [vw d, vr d, vr a]
  | .rebal _ d a b => [vw d 2, vr a, vr b]
  | .mask _ d _ => [vw d]
  | .sfe _ d a _ _ _ => [vw d, vr a]
  | .stbl _ _ p _ => [ur p.toNat 2]
  | .ladd _ a _ _ => [vr a]
  | .lmrg _ a _ q _ | .lst _ a _ q _ => [ur a.toNat (if q == 1 then 2 else 1)]
  | .lrd _ d _ => [uw d.toNat]
  | .lvar _ d a => [uw d.toNat, ur a.toNat]
  | .sld _ _ p _ => [ur p.toNat 2]
  | .qset _ u _ => [ur u.toNat 4]
  | .sctr _ u o _ => if o == 2 then [] else [uw u.toNat 4]
  | .ldG _ s d a k _ _ => [vw d (regsOf (sizeOf s)), vr a] ++ base k.toNat
  | .ldGExt _ s d a k _ _ => [vw d (regsOf (sizeExt s)), vr a] ++ base k.toNat
  | .ldS _ s d a _ _ _ => [vw d (regsOf (sizeOf s)), vr a]
  | .ldSExt _ s d a _ _ _ => [vw d (regsOf (sizeExt s)), vr a]
  | .stG _ s d a k _ _ => [vr d (regsOf (sizeOf s)), vr a] ++ base k.toNat
  | .stS _ s d a _ _ _ => [vr d (regsOf (sizeOf s)), vr a]
  | .atom _ o d a k _ => [vw d (atomDst o), vr a] ++ (match (if o == 11 || o == 12 then none else h.third) with
      | some c => [vr c (atomSrc o)] | none => [vr d (atomSrc o)]) ++ base k.toNat
  | .red _ o d a k _ => [vr d (atomSrc o), vr a] ++ base k.toNat
  | .stGB128 _ d a k _ => [vr d 4, vr a] ++ base k.toNat
  | .stSB128 _ d a _ => [vr d 4, vr a]
  | .aoaddB32 _ d a _ => [vw d, vr d, vr a 2]
  | .aoaddB64 _ d a _ => [vw d 2, vr d 2, vr a 2]
  | .ldsumB32 _ d a q _ | .ldsumF32 _ d a q _ => [vw d, vr a 2, pw (4 + q.toNat)]
  | .ldsumB64 _ d a q _ => [vw d 2, vr a 2, pw (4 + q.toNat)]
  | .ldsumG _ d a q _ => [vw d 4, vr a 2, pw (4 + q.toNat)]
  | .lduB32 _ d a k _ => [uw d.toNat, ur a.toNat] ++ base k.toNat
  | .lduB64 _ d a k _ => [uw d.toNat 2, ur a.toNat] ++ base k.toNat
  | .pref _ a k => vr a :: base k.toNat
  | .cpySFromG _ _ d a k _ _ | .cpyGFromS _ _ d a k _ _ => [vr d, vr a] ++ base k.toNat
  | .cpySFromS _ _ d a _ => [vr d, vr a]
  | .cpyGFromGB4 _ d a k _ | .cpyGFromGB8 _ d a k _ | .cpyGFromGB16 _ d a k _ => [vr d, vr a] ++ base k.toNat ++ base (k.toNat + 1)
  | .cpyvG _ d a k _ => [vw d 2, vr d 2, vr a] ++ c3 ++ base k.toNat ++ base (k.toNat + 1)
  | .cpyvS _ d a k _ => [vw d 2, vr d 2, vr a] ++ c3 ++ base k.toNat
  | .wait _ u _ => [ur u.toNat]
  | .pub _ d _ k _ => uw d.toNat :: base k.toNat
  | .gathE _ s d a k _ => (match h.third with | some c => [vr c] | none => [vw d (if s == 2 then 2 else 1)]) ++ vr a :: base k.toNat
  | .gathXB16 _ d a k _ | .gathXB32 _ d a k _ =>
    (match h.third with | some c => [vr c] | none => [vw d]) ++ vr a :: base k.toNat ++ base (k.toNat + 1)
  | .gathXB64 _ d a k _ => (match h.third with | some c => [vr c] | none => [vw d 2]) ++ vr a :: base k.toNat ++ base (k.toNat + 1)
  | .tlook _ d a => [vw d, vr a 2]
  | .tset _ a b => [vr a 2, vr b]
  | .tinv _ b => [vr b]
  | .hclaim _ d i j _ => [uw d.toNat, ur (2 * i.toNat) 2, ur (2 * j.toNat) 2]
  | .hrel _ h' => [ur (56 + h'.toNat)]
  | .hins _ d a p h' => [vw d 2, vr d 2, vr a 2, pw p.toNat, ur (56 + h'.toNat)]
  | .hprb _ d a p h' | .hdel _ d a p h' => [vw d 2, vr a 2, pw p.toNat, ur (56 + h'.toNat)]
  | .haccAdd _ d a p h' | .haccMin _ d a p h' | .haccMax _ d a p h' | .haccOr _ d a p h' | .haccFadd _ d a p h' =>
    [vr d 2, vr a 2, pw p.toNat, ur (56 + h'.toNat)]
  | .hdrn _ d a p h' | .hdrnDel _ d a p h' => [vw d 4, uw a.toNat, ur a.toNat, pw p.toNat, ur (56 + h'.toNat)]
  | .pln _ a u _ _ _ => [vr a, ur u.toNat]
  | .upln _ d u _ => [vw d, ur u.toNat]
  | .mrd _ d _ _ l _ _ => [{ vw d (2 ^ l.toNat) with free := true }]
  | .mld _ _ u _ _ => [ur u.toNat]
  | .mma _ _ u _ _ _ _ | .mmt _ _ u _ _ _ _ => [ur (2 * u.toNat) 2]
  | .brc _ p _ | .brd _ p _ => [pr p.toNat]
  | .call _ k _ => [{ write := true, file := .vec, code := k.toNat }]
  | .brx _ i' _ => [ur i'.toNat]
  | .callx _ k t => [vw k, vr t]
  | .ret _ k => [vr k]
  | .barArrive _ n d _ _ | .barArriveWait _ n d _ _ => if d == 1 then [] else [ur n.toNat]
  | .bart _ v _ _ => [ur v.toNat]
  | .spwn _ a _ _ _ => [vr a]
  | .take _ d a _ => [uw d.toNat, ur a.toNat]
  | .done _ a s => if s == 1 then [ur a.toNat] else []
  | .waitq _ d | .qdom _ d => [uw d.toNat]
  | .srd _ d _ => [vw d]
  | .srdU _ d _ => [uw d.toNat]
  | .swr _ a _ => [ur a.toNat]
  | _ => []

/-- A uniform pair named by a base selector is fixed by the encoding and needs no check of its code. -/
def Use.aligned (u : Use) : Bool := u.free || (if u.n = 4 then decide (u.code % 4 = 0) else if u.n = 2 then decide (u.code % 2 = 0) else true)

/-- Order 5 of R146 as the hints decide it: pairs under .d, the third source (06 R134, R140; 07 R157). -/
def codesOk (i : Instr) (h : Hints) : Bool :=
  (uses i h).all fun u => u.aligned && (u.file != .uni || decide (u.code + u.n ≤ 64))

/-- A vector code at or beyond the allotment (05 R94). -/
def beyondAllotment (i : Instr) (h : Hints) (a : Nat) : Bool :=
  (uses i h).any fun u => u.file == .vec && decide (u.code < 112) && decide (a < u.code + u.n)

/-- What a guard does to an instruction (06 R141). -/
inductive Guarded where
  | perThread
  | strandWide
  | wholeStrand
  /-- the guard narrows the active set but the instruction always issues (07 R168) -/
  | ordered
  /-- a GUARD raises 0x03 -/
  | refused
  deriving DecidableEq, Repr

def aluClass (x : BitVec 1) : Guarded := if x == 1 then .strandWide else .perThread

/-- The guard class of each instruction, as its chapter marks it. -/
def guardClass : Instr → Guarded
  | .iadd _ _ _ _ x | .isub _ _ _ _ x | .imul _ _ _ _ x | .imulh _ _ _ _ x | .imad _ _ _ _ x | .min _ _ _ _ x | .max _ _ _ _ x
  | .lea _ _ _ _ x | .shl _ _ _ _ x | .shr _ _ _ _ x | .sar _ _ _ _ x | .and _ _ _ _ x | .or _ _ _ _ x | .xor _ _ _ _ x
  | .andn _ _ _ _ x | .bfx _ _ _ _ x | .bfi _ _ _ _ x | .fadd _ _ _ _ x | .fsub _ _ _ _ x | .fmul _ _ _ _ x
  | .ffma _ _ _ _ x | .fmin _ _ _ _ x | .fmax _ _ _ _ x => aluClass x
  | .iabs _ _ _ x | .clz _ _ _ x | .popc _ _ _ x | .brev _ _ _ x | .mov _ _ _ x | .frnd _ _ _ x | .fcls _ _ _ x => aluClass x
  | .icmp _ _ _ _ _ x | .sel _ _ _ _ _ x | .fcmp _ _ _ _ _ x | .hadd2 _ _ _ _ _ x | .hmul2 _ _ _ _ _ x
  | .hfma2 _ _ _ _ _ x | .fdot2 _ _ _ _ _ x | .pack _ _ _ _ _ x | .unpk _ _ _ _ _ x => aluClass x
  | .moviU .. | .iaddIu .. | .shlIu .. | .shrIu .. | .sarIu .. | .andIu .. | .orIu .. | .xorIu .. => .strandWide
  | .stbl .. | .tswp .. | .lz .. | .lmrg .. | .lst .. | .lrd .. | .lvar .. | .sld .. | .ssw .. | .qset .. | .sctr .. | .sdis .. => .strandWide
  | .srg .. | .sjn .. => .refused
  | .lduB32 .. | .lduB64 .. | .seal .. | .wait .. | .pub .. | .hclaim .. | .hrel .. | .hdrn .. | .hdrnDel .. => .strandWide
  | .aoaddB32 .. | .aoaddB64 .. => .ordered
  | .mz .. | .mrd .. | .mld .. | .mma .. | .mmt .. => .wholeStrand
  | .br .. | .brc .. | .call .. | .callx .. | .ret .. | .brx .. | .join .. | .lpad .. | .rsm .. | .kill .. | .hx .. => .refused
  | .yld .. | .give .. | .claim .. | .fence .. | .barArrive .. | .barWait .. | .barArriveWait .. | .bart .. => .strandWide
  | .take .. | .done .. | .waitq .. | .qdom .. | .srdU .. | .swr .. | .bkpt .. => .strandWide
  | _ => .perThread

/-- The hints an instruction accepts besides GUARD, and the MOD fields it accepts (log 53, DEDUCED). -/
structure Accepts where
  wide : Bool := false
  third : Bool := false
  rtag : Bool := false
  ttag : Bool := false
  credit : Bool := false
  round : Bool := false
  sat : Bool := false
  nega : Bool := false
  negb : Bool := false
  negc : Bool := false
  cache : Bool := false
  d64 : Bool := false
  deriving DecidableEq, Repr

/-- What each instruction accepts (08 R181, 07 R158, 09 R215, R240, 10 R260 and the entries of the other chapters; log 53, DEDUCED). -/
def accepts : Instr → Accepts
  | .iadd .. | .isub .. => { sat := true, d64 := true }
  | .imul .. | .min .. | .max .. | .shl .. | .shr .. | .sar .. | .and .. | .or .. | .xor .. | .andn .. | .mov .. | .icmp ..
  | .sel .. => { d64 := true }
  | .imad .. => { sat := true, third := true }
  | .bfi .. => { third := true }
  | .iabs .. => { sat := true }
  | .movi .. | .iaddI .. | .shlI .. | .shrI .. | .sarI .. | .andI .. | .orI .. | .xorI .. | .moviU .. | .iaddIu .. | .shlIu ..
  | .shrIu .. | .sarIu .. | .andIu .. | .orIu .. | .xorIu .. => { wide := true, d64 := true }
  | .fadd .. | .fsub .. | .fmul .. | .hadd2 .. | .hmul2 .. => { round := true, sat := true, nega := true, negb := true }
  | .ffma .. | .hfma2 .. | .fdot2 .. => { round := true, sat := true, nega := true, negb := true, negc := true, third := true }
  | .fmin .. | .fmax .. | .fcmp .. | .fcls .. => { nega := true, negb := true }
  | .frnd .. => { round := true, nega := true }
  | .cvt .. | .fmt .. => { round := true, sat := true }
  | .conf .. => { d64 := true }
  | .kcomb .. | .lrd .. | .lvar .. | .upln .. | .mrd .. | .mld .. => { round := true }
  | .srg .. | .qset .. | .sctr .. | .sdis .. => { rtag := true }
  | .ldG .. | .ldGExt .. | .ldS .. | .ldSExt .. | .stG .. | .stS .. | .stGB128 .. | .stSB128 .. | .pref .. | .lduB32 ..
  | .lduB64 .. => { wide := true, cache := true }
  | .atom _ o _ _ _ _ => { wide := true, third := o != 11 && o != 12, round := o == 14 }
  | .red _ o _ _ _ _ => { wide := true, round := o == 14 }
  | .aoaddB32 .. | .aoaddB64 .. | .ldsumB32 .. | .ldsumB64 .. | .ldsumG .. | .ldsumF32 .. => { wide := true }
  | .cpySFromG .. | .cpyGFromS .. => { wide := true, credit := true }
  | .cpySFromS .. | .cpyGFromGB4 .. | .cpyGFromGB8 .. | .cpyGFromGB16 .. => { credit := true }
  | .cpyvG .. | .cpyvS .. => { wide := true, third := true, credit := true }
  | .gathE .. | .gathXB16 .. | .gathXB32 .. | .gathXB64 .. => { third := true, credit := true }
  | .mma .. | .mmt .. => { ttag := true }
  | _ => {}

/-- Every hint of the chain, and every MOD field set in it, is accepted; an instruction that accepts no MOD field does not accept
the kind (06 R140, R142; log 53, DEDUCED). -/
def hintsOk (i : Instr) (h : Hints) : Bool :=
  let a := accepts i
  (a.wide || h.wide.isNone) && (a.third || h.third.isNone) && (a.rtag || h.rtag.isNone) && (a.ttag || h.ttag.isNone) &&
  (a.credit || h.credit.isNone) && (guardClass i != .refused || h.guard.isNone) &&
  match h.mod with
  | none => true
  | some m => (a.round || a.sat || a.nega || a.cache || a.d64) && (a.round || (!m.rmen && m.rm == 0)) && (a.sat || !m.sat) && (a.nega || !m.nega) && (a.negb || !m.negb) &&
      (a.negc || !m.negc) && (a.cache || m.cache == 0) && (a.d64 || !m.d64)

/-- Order 6 as the hints decide it: the payload of WIDE before a grid atomic holds W in [8:0] alone (07 R158); with a
scratchpad destination GATH uses no d7 (07 R172, 06 R133). -/
def payloadOk (i : Instr) (h : Hints) : Bool :=
  match i with
  | .atom _ o _ _ _ _ | .red _ o _ _ _ _ => o != 14 || (match h.wide with | some w => decide (w.toNat < 512) | none => true)
  | .gathE _ _ d _ _ _ | .gathXB16 _ d _ _ _ | .gathXB32 _ d _ _ _ | .gathXB64 _ d _ _ _ => h.third.isNone || d == 0
  | _ => true

/-- The lookahead of a long-latency instruction (06 R137); a version-1 word of M format has 15 (06 R148). -/
def lookahead : Instr → Nat
  | .sfe _ _ _ _ l _ | .ldG _ _ _ _ _ l _ | .ldGExt _ _ _ _ _ l _ | .ldS _ _ _ _ _ l _ | .ldSExt _ _ _ _ _ l _
  | .stG _ _ _ _ _ l _ | .stS _ _ _ _ _ l _ | .cpySFromG _ _ _ _ _ l _ | .cpyGFromS _ _ _ _ _ l _ => l.toNat
  | .stbl _ _ _ l | .sld _ _ _ l | .sctr _ _ _ l | .lmrg _ _ _ _ l | .lst _ _ _ _ l | .aoaddB32 _ _ _ l | .aoaddB64 _ _ _ l => l.toNat
  | .tswp _ _ l | .ssw _ _ l | .qset _ _ l | .srg _ _ l | .stSB128 _ _ _ l => l.toNat
  | .atom _ _ _ _ _ l | .red _ _ _ _ _ l | .gathE _ _ _ _ _ l => l.toNat
  | .stGB128 _ _ _ _ l | .ldsumB32 _ _ _ _ l | .ldsumB64 _ _ _ _ l | .ldsumG _ _ _ _ l | .ldsumF32 _ _ _ _ l | .lduB32 _ _ _ _ l
  | .lduB64 _ _ _ _ l | .cpySFromS _ _ _ _ l | .cpyGFromGB4 _ _ _ _ l | .cpyGFromGB8 _ _ _ _ l | .cpyGFromGB16 _ _ _ _ l
  | .cpyvG _ _ _ _ l | .cpyvS _ _ _ _ l | .pub _ _ _ _ l | .gathXB16 _ _ _ _ l | .gathXB32 _ _ _ _ l | .gathXB64 _ _ _ _ l => l.toNat
  | .mld _ _ _ _ l | .spwn _ _ _ _ l | .take _ _ _ l => l.toNat
  | .mma _ _ _ _ _ _ l | .mmt _ _ _ _ _ _ l => l.toNat
  | _ => 0

/-- The run boundary flag B of an instruction word (06 R138). -/
def boundary (i : Instr) : Bool := match encode i with | some w => w.getLsbD 31 | none => false

end Sys2Proof.Machine
end

