-- ==== Sys2Proof/Machine/Flags.lean ====
section
/-!
DEFINITION. Sys2Proof/Machine/Flags.lean: the numeric format register of a path and the flags operations leave in it
(05 R103 to R105, R108).
-/

namespace Sys2Proof.Machine

def nfrRm (n : Word) : Nat := bits n.toNat 0 2
def nfrFz32 (n : Word) : Bool := n.getLsbD 2
def nfrFz16 (n : Word) : Bool := n.getLsbD 3
def nfrTen (n : Word) : Nat := bits n.toNat 9 5
/-- TSCALE as a signed number. -/
def nfrTscale (n : Word) : Int := signed 8 (bits n.toNat 16 8)
/-- The sticky flags, bits [8:4]. -/
def nfrFlags (n : Word) : Word := n &&& 0x1F0

/-- Set sticky flags (05 R105). -/
def stick (n : Word) (flags : Nat) : Word := n ||| (BitVec.ofNat 32 flags <<< 4)

/-- The control bits of one NFR with the sticky flags of another (05 R104, 12 R295). -/
def withFlags (ctl flags : Word) : Word := (ctl &&& ~~~0x1F0#32) ||| nfrFlags flags

/-- What SWR leaves in the NFR: reserved bits read zero, DFMT takes only F8N, F8W and TS8 (05 R103, 14 R362). -/
def swrNfr (old new : Word) : Word :=
  let dfmt := bits new.toNat 24 6
  let keep := dfmt == 0x13 || dfmt == 0x14 || dfmt == 0x15
  (new &&& 0x00FF3FFF#32) ||| ((if keep then new else old) &&& 0x3F000000#32)

/-- The lowest set bit of a flag set, as the numeric cause it raises (05 R105; log 26, DEDUCED). -/
def numericCause (flags : Nat) : Nat :=
  if flags % 2 = 1 then 0x40 else if flags / 2 % 2 = 1 then 0x41 else if flags / 4 % 2 = 1 then 0x42
  else if flags / 8 % 2 = 1 then 0x43 else 0x44

/-- The flags of an operation that its enables turn into a cause (05 R105). -/
def trapped (n : Word) (flags : Nat) : Nat := Nat.land (nfrTen n) flags

/-- The rounding mode: the hint's, or the NFR's (06 R140). -/
def roundMode (h : Hints) (n : Word) : Nat := match h.mod with
  | some m => if m.rmen then m.rm.toNat else nfrRm n
  | none => nfrRm n

end Sys2Proof.Machine
end

