-- ==== Sys2Proof/Machine/Diverge.lean ====
section
/-!
DEFINITION. Sys2Proof/Machine/Diverge.lean: the divergence stack and the split of a strand as its threads leave (12 R292 to R297):
unwinding, the rejoin of a split, and the order of the entries.
-/

namespace Sys2Proof.Machine

/-- Take threads out of every mask of a stack. -/
def dropThreads (q : Mask) (es : List StackEntry) : List StackEntry :=
  es.map fun e => { e with fmask := e.fmask &&& ~~~q, pmask := e.pmask &&& ~~~q }
/-- Threads leave a path; a chain that issues again for threads that have all gone is left, and the path goes on where it had stopped (14
R356). -/
def Path.lose (p : Path) (q : Mask) : Path :=
  let p1 := { p with
    act := p.act &&& ~~~q, stack := dropThreads q p.stack, reissue := p.reissue.map fun (r : Reissue) => { r with live := r.live &&& ~~~q } }
  match p1.reissue with
  | some r => if p1.act = 0 ∧ r.live ≠ 0 then
      { p1 with act := r.live, pc := r.cont, reissue := none, half := r.half, awaits := none, hints := {}, chainLen := 0, run := none } else p1
  | none => p1
/-- Threads leave the strand: every mask that holds them loses them (12 R297). -/
def Strand.remove (st : Strand) (q : Mask) : Strand :=
  { st with frozen := dropThreads q st.frozen, path0 := st.path0.lose q, path1 := st.path1.lose q }

/-- The live threads of a path, those beside a chain that issues again included (14 R356). -/
def Path.threads (p : Path) : Mask := p.act ||| (match p.reissue with | some r => r.live | none => 0)
/-- The threads of a strand that live: those of some mask (12 R297). -/
def Strand.live (st : Strand) : Mask :=
  let masks (es : List StackEntry) : Mask := es.foldl (fun m e => m ||| e.fmask ||| e.pmask) 0
  st.path0.threads ||| st.path1.threads ||| masks st.path0.stack ||| masks st.path1.stack ||| masks st.frozen
/-- The loop of 12 R297 over the entries above the frozen ones: the path where it goes on, none when nothing is left. -/
def unwind (p : Path) : List StackEntry → Option Path
  | [] => none
  | e :: es =>
    if !e.side && decide (e.pmask ≠ 0) then
      some { p with act := e.pmask, pc := e.ppc, stack := { e with side := true } :: es, nfr := withFlags e.nfrs p.nfr }
    else if e.side && decide (e.fmask ≠ 0) then
      some { p with act := e.fmask, pc := e.ppc + 4, stack := es, nfr := withFlags e.nfrs p.nfr }
    else unwind p es

/-- The JOIN of a split is complete: each path has arrived or has ended, and one has arrived (12 R295, R297). -/
def rejoins (st : Strand) : Bool :=
  st.divided && (st.path0.arrived || st.path0.ended) && (st.path1.arrived || st.path1.ended) && (st.path0.arrived || st.path1.arrived)
/-- The path that holds the lowest live thread. -/
def leadPath (st : Strand) : Nat := if st.path1.act = 0 then 0 else if st.path0.act = 0 then 1
  else if lowest st.path0.act < lowest st.path1.act then 0 else 1
/-- The strand without its split (12 R295): it goes on as path 0, with what either path has outstanding and in no run. An instruction that
both paths have outstanding keeps path 0's lookahead count (log 100, DESIGN CHOICE). -/
def Strand.undivided (st : Strand) : Strand :=
  let a := st.path0
  let b := st.path1
  let lead := st.path (leadPath st)
  let p : Path := { a with
    act := a.act ||| b.act, nfr := withFlags st.nfrs (nfrFlags a.nfr ||| nfrFlags b.nfr), pc := lead.pc + 4
    stack := st.frozen, hints := {}, chainLen := 0, awaits := none, arrived := false, ended := false, words := a.words + b.words
    run := none, heldFrom := none
    outs := a.outs.map (fun o => (o.1, o.2.1 + b.words, o.2.2)) ++
      (b.outs.filter fun o => !a.outs.any (·.1 == o.1)).map fun o => (o.1, o.2.1 + a.words, o.2.2) }
  { st with divided := false, frozen := [], nfrs := 0, path0 := p, path1 := {}, deferred := st.deferred.map fun d => { d with path := 2 } }
/-- Rejoin a split when it is complete (12 R295). -/
def Strand.tryRejoin (st : Strand) : Strand := if rejoins st then st.undivided else st

/-- A path that has lost threads goes on, unwinds, or ends (12 R297). -/
def Strand.shed (st : Strand) (pi : Nat) : Strand :=
  let p := st.path pi
  if p.act ≠ 0 ∨ p.ended then st
  else match unwind p p.stack with
    | some p' => st.setPath pi { p' with arrived := false }
    | none => st.setPath pi { p with ended := true, arrived := false, stack := [] }
/-- What its paths' ends make of a strand (12 R297): a split with both ended unwinds the entries under it, one that is complete rejoins, and a
strand with no live thread drains and ends (12 R315; log 32, DEDUCED). -/
def Strand.conclude (st : Strand) : Strand :=
  let gone : Strand := { st with mode := if st.mode == .handler then .handler else .exiting }
  if !st.divided then (if st.path0.ended then gone else st)
  else if st.path0.ended && st.path1.ended then match unwind st.undivided.path0 st.frozen with
    | some p' => { st.undivided with path0 := p' }
    | none => gone
  else st.tryRejoin
/-- A path of a strand has lost threads (12 R297). -/
def Strand.settle (st : Strand) (pi : Nat) : Strand := (st.shed pi).conclude
/-- Either path of a strand has lost threads (12 R297). -/
def Strand.settleAll (st : Strand) : Strand := (if st.divided then (st.shed 0).shed 1 else st.shed 0).conclude

/-- A path that loses the threads q and with them its last goes on elsewhere: its place before, and its place and threads after (12 R284,
R297). The last path of a split to end goes on where the entries under the split say. -/
def Strand.unwound (st : Strand) (q : Mask) (pi : Nat) : Option (Word × Path) :=
  let p := st.path pi
  let st' := st.remove q
  let r := st'.path pi
  let o := st.path (1 - pi)
  let o' := st'.path (1 - pi)
  let last := o.ended || (pi == 1 && o.act != 0 && o'.act == 0 && (unwind o' o'.stack).isNone)
  if p.act = 0 ∨ r.act ≠ 0 then none
  else match unwind r r.stack with
    | some u => some (p.pc, u)
    | none => if st.divided && last then (unwind r st'.frozen).map fun u => (p.pc, u) else none

/-- An entry's place in the order of pushing: after every entry of the strand (14 R353). -/
def Strand.nextPush (st : Strand) : Nat := (st.frozen ++ st.path0.stack ++ st.path1.stack).foldl (fun n e => max n (e.pushed + 1)) 0
/-- Put an entry among others that are oldest first. -/
def insertEntry (x : StackEntry) : List StackEntry → List StackEntry
  | [] => [x]
  | y :: ys => if x.pushed < y.pushed then x :: y :: ys else y :: insertEntry x ys
/-- The entries above the frozen ones of both paths, oldest first (14 R353). -/
def Strand.ownEntries (st : Strand) : List StackEntry := (st.path0.stack.reverse ++ st.path1.stack.reverse).foldl (fun es x => insertEntry x es) []

end Sys2Proof.Machine
end

