-- ==== Sys2Proof/Config.lean ====
section
/-!
DEFINITION. Sys2Proof/Config.lean: what the spec leaves to the part or leaves open. Every constant here is opaque: nothing in
Lean can find its value, so a claim holds whatever it is (notes/assumptions 1, 10, 13).
-/

namespace Sys2Proof

/-- Die cycles of die d beyond the first that step n of the model takes (R4: no bound relates them; log 1, DESIGN CHOICE). -/
opaque Config.extraCycles (d n : Nat) : Nat

/-- The die cycle counter of die d after n steps (R101: zero when the die leaves reset; it counts every die cycle; log 1, DESIGN CHOICE). -/
def dieCycle (d : Nat) : Nat → Nat
  | 0 => 0
  | n + 1 => dieCycle d n + 1 + Config.extraCycles d n

/-- The n-th free value: bits the spec leaves undefined (log 10, DESIGN CHOICE). -/
opaque Config.freeBits (n : Nat) : BitVec 1024

/-- Where the rotation of gated issue stands for a quad (R396; log 79, DESIGN CHOICE). -/
opaque Config.gateOffset (quad : Nat) : Nat

/-- The n-th signature of the security processor: ECDSA r then s over a digest of 48 bytes (R398; log 13, DESIGN CHOICE). -/
opaque Config.signature (n : Nat) (digest : List Byte) : BitVec 768

/-- The measurement of firmware image A, 0, or B, 1 (R398 FWMEAS; log 13, DESIGN CHOICE). -/
opaque Config.firmwareMeasure (image : Nat) : BitVec 384

/-- The device's X.509 certificate in DER (R398; log 13, DESIGN CHOICE). -/
opaque Config.certificate : List Byte

/-- How many spare rows a unit of a class of R369's table has (R369 gives no number; log 97, DESIGN CHOICE). -/
opaque Config.spareRows (cls unit : Nat) : Nat

/-- The Onyx bank, as a unit of class 3, of the n-th row that the test of step 4 finds failing on a die (R393 does not say; log 109, DESIGN CHOICE). -/
opaque Config.failedBank (die n : Nat) : Nat

/-- How many of the trace records in flight a die's unit writes in step n (R380 gives no rate; log 98, DESIGN CHOICE). -/
opaque Config.traceRate (die n : Nat) : Nat

/-- A step-specific DETAIL code of a boot log entry that records a failure (R394 gives no codes; log 10, DESIGN CHOICE). -/
opaque Config.bootDetail (step unit : Nat) : Dword

end Sys2Proof
end

