-- ==== Sys2Proof/Machine/Mem.lean ====
section
/-!
DEFINITION. Sys2Proof/Machine/Mem.lean: all storage as one table of bytes by key, the parts of State by number, and the
system space. A key names a byte of a stack, of an Onyx SRAM, of host memory or of a core's scratchpad (11 R268).
-/

namespace Sys2Proof.Machine

/-- Byte b of stack s (01 R22: a stack holds 80 x 10^9 bytes, fewer than 2^37). -/
def stackKey (s b : Nat) : Nat := s * 2 ^ 37 + b
/-- Byte p of the Onyx SRAM of die d (02 R43: 384 MiB, fewer than 2^29 bytes). -/
def onyxKey (d p : Nat) : Nat := 2 ^ 41 + d * 2 ^ 29 + p
/-- Host bus address a (01 R23). -/
def hostKey (a : Nat) : Nat := 2 ^ 64 + a
/-- Byte a of the scratchpad of core n (04 R78: 768 KiB, fewer than 2^20 bytes). -/
def scratchKey (n a : Nat) : Nat := 2 ^ 66 + n * 2 ^ 20 + a

def isStack (k : Nat) : Bool := decide (k < 2 ^ 41)
def isOnyx (k : Nat) : Bool := decide (2 ^ 41 ≤ k) && decide (k < 2 ^ 64)
def isHost (k : Nat) : Bool := decide (2 ^ 64 ≤ k) && decide (k < 2 ^ 66)
def isScratch (k : Nat) : Bool := decide (2 ^ 66 ≤ k)

/-- The die that holds a byte: stack 4d + k is attached to die d (01 R22); host memory is reached through die 0 (00 R5). -/
def dieOfKey (k : Nat) : Nat :=
  if isStack k then k / 2 ^ 37 / 4 else if isOnyx k then (k - 2 ^ 41) / 2 ^ 29 else if isHost k then 0
  else (k - 2 ^ 66) / 2 ^ 20 / 136

/-- The 128-byte line of a byte. -/
def lineOf (k : Nat) : Nat := k / 128

/-- A byte of storage; one that nothing has written reads zero (02 R43 for Onyx SRAM; the rest by design choice, log 2, DESIGN CHOICE). -/
def readByte (m : List Host.Cell) (k : Nat) : Byte := rd 0 m k

/-- Write one byte (log 2, DESIGN CHOICE). -/
def writeByte (m : List Host.Cell) (k : Nat) (b : Byte) : List Host.Cell := wr 0 m k b

/-- The canonical form of storage: keys rising, no byte listed that is zero (log 2, DESIGN CHOICE). -/
def Memory.wf (m : List Host.Cell) : Bool := canon 0 m

/-- Write bytes at keys, in order. -/
def writeBytes (m : List Host.Cell) : List Nat → List Byte → List Host.Cell
  | k :: ks, b :: bs => writeBytes (writeByte m k b) ks bs
  | _, _ => m

/-- The n keys from k. -/
def keysFrom (k n : Nat) : List Nat := (List.range n).map (k + ·)

/-- The n bytes from key k. -/
def readAt (m : List Host.Cell) (k n : Nat) : List Byte := (keysFrom k n).map (readByte m)

/-- The little-endian number of n bytes at key k (00 R12). -/
def readNat (m : List Host.Cell) (k n : Nat) : Nat := leNat (readAt m k n)

/-- Write the n low bytes of a number at key k (00 R12). -/
def writeNat (m : List Host.Cell) (k n v : Nat) : List Host.Cell := writeBytes m (keysFrom k n) (leBytes n v)

/-- The byte a source names (01 R42 for padding). -/
def Src.read (m : List Host.Cell) : Src → Byte
  | .mem a => readByte m a
  | .pad b => b

def State.core (s : State) (n : Nat) : Core := rd {} s.cores n
def State.setCore (s : State) (n : Nat) (c : Core) : State := { s with cores := wr {} s.cores n c }
def State.quad (s : State) (n : Nat) : Quad := rd {} s.quads n
def State.setQuad (s : State) (n : Nat) (q : Quad) : State := { s with quads := wr {} s.quads n q }
def State.die (s : State) (n : Nat) : Die := rd {} s.dies n
def State.setDie (s : State) (n : Nat) (d : Die) : State := { s with dies := wr {} s.dies n d }
def State.ctx (s : State) (n : Nat) : Option Ctx := look s.ctxs n
def State.setCtx (s : State) (n : Nat) (c : Ctx) : State := { s with ctxs := upd s.ctxs n (some c) }
def State.gang (s : State) (n : Nat) : Option Gang := look s.gangs n
def State.setGang (s : State) (n : Nat) (g : Gang) : State := { s with gangs := upd s.gangs n (some g) }
def State.strand (s : State) (n : Nat) : Option Strand := look s.strands n
def State.setStrand (s : State) (n : Nat) (t : Strand) : State := { s with strands := upd s.strands n (some t) }
def State.op (s : State) (n : Nat) : Option Op := look s.ops n
def State.setOp (s : State) (n : Nat) (o : Op) : State := { s with ops := upd s.ops n (some o) }
def State.dropOp (s : State) (n : Nat) : State := { s with ops := upd s.ops n none }
def State.setMem (s : State) (m : List Host.Cell) : State := { s with mem := m }
def State.setPkg (s : State) (p : Pkg) : State := { s with pkg := p }

/-- A new number for an operation, gang, launch or message, and the state that will not give it again. -/
def State.fresh (s : State) : Nat × State := (s.nextId, { s with nextId := s.nextId + 1 })

/-- A free value of n bits (log 10, DESIGN CHOICE) and the state that will not give it again. -/
def State.freeValue (s : State) (n : Nat) : BitVec n × State := ((Config.freeBits s.free).setWidth n, { s with free := s.free + 1 })

/-- The core of a strand key: 512 keys a core, the low nine bits the slot (05 R101). -/
def coreOf (strand : Nat) : Nat := strand / 512
def slotOf (strand : Nat) : Nat := strand % 512
def strandKey (core slot : Nat) : Nat := core * 512 + slot
/-- Die, quad of the die and core of the quad of a package core number (00 R2). -/
def coreDie (n : Nat) : Nat := n / 136
def coreQuad (n : Nat) : Nat := n % 136 / 4
def coreIn (n : Nat) : Nat := n % 4
/-- The package quad number die x 34 + quad (12 R302). -/
def quadOf (core : Nat) : Nat := coreDie core * 34 + coreQuad core
def quadCore (quad c : Nat) : Nat := quad / 34 * 136 + quad % 34 * 4 + c

def State.win (s : State) : Window := s.pkg.win
def State.caps (s : State) : Nat := s.pkg.win.caps.toNat
/-- CAPS.DIES, bit d (16 R391). -/
def State.diePresent (s : State) (d : Nat) : Bool := decide (d < 4) && bits s.caps (4 + d) 1 == 1
/-- CAPS.STACKS, bit k (16 R391). -/
def State.stackPresent (s : State) (k : Nat) : Bool := decide (k < 16) && bits s.caps (8 + k) 1 == 1
/-- CAPS.WILMO (16 R391). -/
def State.wilmo (s : State) : Bool := bits s.caps 25 1 == 1
/-- CAPS.GATHER (16 R391). -/
def State.gather (s : State) : Bool := bits s.caps 24 1 == 1
/-- The present dies, ascending. -/
def State.dieSet (s : State) : List Nat := [0, 1, 2, 3].filter s.diePresent
/-- Every die of the set is there: four, or dies 0 and 1 (16 R392). -/
def State.fourDies (s : State) : Bool := decide (bits s.caps 4 4 = 15)
def State.twoDies (s : State) : Bool := decide (bits s.caps 4 4 = 3)

/-- A placement that the running part has (01 R23): the stacks it needs are present and not fenced, its die is present. -/
def placeExists (s : State) (place target : Nat) : Bool :=
  if place = 0 then
    (s.fourDies && (List.range 16).all s.stackPresent) || (s.twoDies && (List.range 8).all s.stackPresent)
  else if place = 1 then s.diePresent target && (List.range 4).all fun k => s.stackPresent (4 * target + k)
  else if place = 2 then s.stackPresent target
  else if place = 3 then decide (target < 4) && s.diePresent target
  else decide (place = 4)

/-- The size in bytes of a placement's space (01 R23). -/
def spaceSize (s : State) (place : Nat) : Nat :=
  if place = 0 then (if s.fourDies then 1280000000000 else 640000000000)
  else if place = 1 then 320000000000
  else if place = 2 then 80000000000
  else if place = 3 then 402653184
  else 2 ^ 64

/-- The key of byte p of a placement's space (01 R23; dies 0 and 1 alone follow the rule of the Euquel 470, 16 R392). -/
def locate (s : State) (place target p : Nat) : Nat :=
  if place = 0 then
    if s.fourDies then stackKey (Nat.xor (bits p 10 4) (bits p 14 4)) (p / 2 ^ 14 * 2 ^ 10 + p % 2 ^ 10)
    else stackKey (Nat.xor (bits p 10 3) (bits p 13 3)) (p / 2 ^ 13 * 2 ^ 10 + p % 2 ^ 10)
  else if place = 1 then stackKey (4 * target + Nat.xor (bits p 10 2) (bits p 12 2)) (p / 2 ^ 12 * 2 ^ 10 + p % 2 ^ 10)
  else if place = 2 then stackKey target p
  else if place = 3 then onyxKey target p
  else hostKey p

/-- Placement and target of the system space (01 R25), as BOOTSTAT reports them. -/
def State.sysPlace (s : State) : Nat := bits s.win.bootstat.toNat 2 2
def State.sysTarget (s : State) : Nat := bits s.win.bootstat.toNat 4 4
/-- The key of byte p of the system space (01 R25). -/
def State.sysKey (s : State) (p : Nat) : Nat := locate s s.sysPlace s.sysTarget p
/-- The n bytes at offset p of the system space. -/
def State.sysRead (s : State) (p n : Nat) : List Byte := (List.range n).map fun i => readByte s.mem (s.sysKey (p + i))
/-- The number of n bytes at offset p of the system space. -/
def State.sysNat (s : State) (p n : Nat) : Nat := leNat (s.sysRead p n)
/-- Write bytes at offset p of the system space. -/
def State.sysWrite (s : State) (p : Nat) (bs : List Byte) : State :=
  s.setMem (writeBytes s.mem ((List.range bs.length).map fun i => s.sysKey (p + i)) bs)

/-- ECC cannot correct a byte of these sources (01 R22, 02 R43; log 4, DESIGN CHOICE), or a link on the way from die d is down (02 R49). -/
def State.uncorrectable (s : State) (k : Nat) : Bool := s.phys.bad.contains k

/-- The two adjacent dies of each die link, by the bit of CAPS.DLINKS (16 R391). -/
def linkOf (a b : Nat) : Nat :=
  if (a = 0 ∧ b = 1) ∨ (a = 1 ∧ b = 0) then 0 else if (a = 0 ∧ b = 2) ∨ (a = 2 ∧ b = 0) then 1
  else if (a = 1 ∧ b = 3) ∨ (a = 3 ∧ b = 1) then 2 else 3

/-- The links a route crosses: diagonal pairs change column first (02 R49). -/
def route (a b : Nat) : List Nat :=
  if a = b then []
  else if a + b = 3 then (if a = 0 then [0, 2] else if a = 3 then [3, 1] else if a = 1 then [0, 1] else [3, 2])
  else [linkOf a b]

/-- An access from die d to key k crosses a link that has failed at run time (02 R49): the route of its request, not that of the
reply (log 83, DESIGN CHOICE). -/
def State.cut (s : State) (d k : Nat) : Bool := (route d (dieOfKey k)).any s.pkg.badLinks.contains

/-- A read of this byte from die d ends in an error that ECC cannot correct (log 4, DESIGN CHOICE). -/
def State.readFails (s : State) (d k : Nat) : Bool := s.uncorrectable k || (!isScratch k && s.cut d k)

/-- A host-placed byte whose PCIe access ends in an error (16 R387; log 4, DESIGN CHOICE). -/
def State.pcieFails (s : State) (k : Nat) : Bool := isHost k && s.phys.pcieBad.contains (lineOf k)

/-- The keys of the bytes of memory among sources. -/
def memKeys (bs : List Src) : List Nat := bs.filterMap fun b => match b with | .mem a => some a | .pad _ => none
/-- The cause with which reading these bytes from die d fails; 0 for none (01 R22, 02 R43, R49; 14 R346). -/
def State.readCause (s : State) (d : Nat) (ks : List Nat) : Nat :=
  if ks.any (s.readFails d) then 0xB2 else if ks.any s.pcieFails then 0x28 else 0
/-- The cause with which writing these bytes from die d fails: a link that is down (02 R49). -/
def State.writeCause (s : State) (d : Nat) (ks : List Nat) : Nat := if ks.any fun k => !isScratch k && s.cut d k then 0xB2 else 0

/-- A write of n bytes of the system space from die d crosses a link that is down (02 R49). -/
def State.sysCut (s : State) (d p n : Nat) : Bool := !s.pkg.badLinks.isEmpty && (List.range n).any fun i => s.cut d (s.sysKey (p + i))

/-- A word of die 0's Onyx SRAM, where driver-set tables lie. -/
def State.onyxNat (s : State) (d off n : Nat) : Nat := readNat s.mem (onyxKey d off) n

end Sys2Proof.Machine
end

