-- ==== Sys2Proof/Machine/Translate.lean ====
section
/-!
DEFINITION. Sys2Proof/Machine/Translate.lean: object records, their checks, layouts, residency and the translation of object
addresses (01_tensor_objects R17 to R30, R42), and gang scratchpad addresses (04 R79).
-/

namespace Sys2Proof.Machine

/-- A generation slot of an object record (01 R19). -/
structure Slot where
  base : Nat
  pext : Nat
  gen : Nat
  perm : Nat
  place : Nat
  frz : Bool
  target : Nat
  deriving DecidableEq, Repr

/-- An object record (01 R19). -/
structure ObjRec where
  valid : Bool
  ndim : Nat
  layout : Nat
  fmt : Nat
  planes : Nat
  stlog : Nat
  rol : Bool
  repl : Bool
  padidx : Bool
  cur : Bool
  extent : Nat
  dims : Nat × Nat × Nat × Nat
  strs : Nat × Nat × Nat × Nat
  resmap : Nat
  auxobj : Nat
  rset : Nat
  slotA : Slot
  slotB : Slot
  deriving DecidableEq, Repr

/-- The number of n bytes at offset o of a table image. -/
def fieldAt (bs : List Byte) (o n : Nat) : Nat := leNat ((bs.drop o).take n)

/-- The planes of the block whose header these bytes begin with (05 R119). -/
def blockPlanes (bs : List Byte) : Nat := bits (fieldAt bs 1 1) 0 5

/-- A slot at offset o of a record's bytes (01 R19). -/
def parseSlot (bs : List Byte) (o : Nat) : Slot :=
  let w := fieldAt bs (o + 20) 4
  { base := fieldAt bs o 8, pext := fieldAt bs (o + 8) 8 % 2 ^ 40, gen := fieldAt bs (o + 16) 4, perm := bits w 0 4,
    place := bits w 4 3, frz := bits w 7 1 == 1, target := bits w 8 4 }

/-- The record of 128 bytes (01 R19). -/
def parseRecord (bs : List Byte) : ObjRec :=
  let h := fieldAt bs 0 4
  let p := bits h 12 4
  { valid := bits h 0 1 == 1, ndim := bits h 1 2 + 1, layout := bits h 3 3, fmt := bits h 6 6,
    planes := if p = 0 then 16 else p, stlog := bits h 16 5, rol := bits h 21 1 == 1, repl := bits h 22 1 == 1,
    padidx := bits h 23 1 == 1, cur := bits h 24 1 == 1, extent := fieldAt bs 8 8 % 2 ^ 40,
    dims := (fieldAt bs 16 4, fieldAt bs 20 4, fieldAt bs 24 4, fieldAt bs 28 4),
    strs := (fieldAt bs 32 4, fieldAt bs 36 4, fieldAt bs 40 4, fieldAt bs 44 4),
    resmap := fieldAt bs 48 8, auxobj := fieldAt bs 56 8 % 2 ^ 24, rset := bits (fieldAt bs 56 8) 24 16,
    slotA := parseSlot bs 64, slotB := parseSlot bs 96 }

def ObjRec.current (r : ObjRec) : Slot := if r.cur then r.slotB else r.slotA
def ObjRec.shadow (r : ObjRec) : Slot := if r.cur then r.slotA else r.slotB

/-- The size of a defined format code, none for a reserved one (05 R106); PLN is sized by its planes. -/
def formatSize (fmt planes : Nat) : Option Nat :=
  if fmt = 0x01 ∨ fmt = 0x02 ∨ fmt = 0x13 ∨ fmt = 0x14 ∨ fmt = 0x15 then some 1
  else if fmt = 0x03 ∨ fmt = 0x04 ∨ fmt = 0x11 ∨ fmt = 0x12 then some 2
  else if fmt = 0x05 ∨ fmt = 0x06 ∨ fmt = 0x10 then some 4
  else if fmt = 0x07 ∨ fmt = 0x08 then some 8
  else if fmt = 0x18 then some (16 + 4 * planes)
  else if fmt = 0x19 then some 16
  else none

def ObjRec.es (r : ObjRec) : Nat := (formatSize r.fmt r.planes).getD 1

/-- The 128 bytes of a record as die d sees them: until a publish has invalidated the die, it keeps the record it had
(01 R31 step 6, R35). They are taken as they stand, sound or not, and as software has left them (log 117, DESIGN CHOICE). -/
def recordBytes (s : State) (d ctx otbase id : Nat) : List Byte :=
  match s.pkg.pubs.find? (fun e => e.2.swapped && e.2.ctx == ctx && e.2.obj == id && e.2.waiting.contains d) with
  | some (_, p) => p.oldRecord
  | none => s.sysRead (otbase + id * 128) 128

/-- The bytes of an object's record as a core sends them with a request (01 R39); none where the id is not in the table. -/
def sentRecord (s : State) (d ctx id : Nat) : List Byte := match s.ctx ctx with
  | some c => if id = 0 ∨ c.otlen ≤ id then [] else recordBytes s d ctx c.otbase id
  | none => []
/-- The record that a request carries (01 R39). -/
def carriedRecord (bs : List Byte) : Option ObjRec := if bs.isEmpty then none else some (parseRecord bs)
/-- The record of an object of a context, where its id is in the table (01 R18; log 81, DEDUCED). -/
def record (s : State) (d ctx id : Nat) : Option ObjRec :=
  match s.ctx ctx with
  | none => none
  | some c => if id = 0 ∨ c.otlen ≤ id then none else some (parseRecord (recordBytes s d ctx c.otbase id))

/-- Checks 1, 6 and 7 of R21 on one slot: the number of the first that fails. -/
def slotCheck (s : State) (sl : Slot) : Option Nat :=
  if 4 < sl.place then some 1
  else if !placeExists s sl.place sl.target || decide (spaceSize s sl.place < sl.base + sl.pext) then some 6
  else if sl.base % 128 ≠ 0 then some 7
  else none

/-- A stride the layout uses is 0 (01 R21 check 5). -/
def zeroStride (r : ObjRec) : Bool :=
  let (s0, s1, s2, s3) := r.strs
  if r.layout = 0 ∨ r.layout = 2 then
    s0 == 0 || (decide (2 ≤ r.ndim) && s1 == 0) || (decide (3 ≤ r.ndim) && s2 == 0) || (decide (4 ≤ r.ndim) && s3 == 0)
  else if r.layout = 1 then (decide (3 ≤ r.ndim) && s2 == 0) || (decide (4 ≤ r.ndim) && s3 == 0)
  else false

/-- The requirements of a layout (01 R20), apart from the validity of AUXOBJ. -/
def layoutOk (r : ObjRec) : Bool :=
  if r.layout = 1 then decide (2 ≤ r.ndim) && decide (r.dims.1 % 64 = 0) && decide (r.dims.2.1 % 64 = 0) && decide (r.fmt ≠ 0x18)
  else if r.layout = 2 then decide (r.fmt = 0x18)
  else if r.layout = 3 then decide (r.ndim = 2) && decide (r.fmt ≠ 0x18)
  else decide (r.fmt ≠ 0x18)

/-- The number of the first check of R21 that a valid record fails with slot sl as its current slot. -/
def recordCheck (s : State) (d ctx : Nat) : Nat → ObjRec → Slot → Option Nat
  | 0, _, _ => some 8
  | fuel + 1, r, sl =>
    let (d0, d1, d2, d3) := r.dims
    if 3 < r.layout ∨ (formatSize r.fmt r.planes).isNone ∨ 4 < sl.place then some 1
    else
      let aux : Option ObjRec := if r.layout = 3 then record s d ctx r.auxobj else none
      let valid (m : Option ObjRec) : Bool := match m with
        | none => false
        | some m => m.valid && (recordCheck s d ctx fuel m m.current).isNone
      if !layoutOk r || (r.layout == 3 && !valid aux) then some 2
      else if r.extent = 0 ∨ r.extent ≠ r.es * d0 * d1 * d2 * d3 then some 3
      else if r.stlog < 16 ∨ 24 < r.stlog then some 4
      else if zeroStride r && (bits sl.perm 1 1 == 1 || bits sl.perm 2 1 == 1) then some 5
      else match slotCheck s sl with
        | some n => some n
        | none =>
          let map : Option ObjRec := if r.resmap = 0 then none else record s d ctx (r.resmap / 2 ^ 40)
          if r.resmap ≠ 0 ∧ !(valid map && map.any fun m => m.resmap == 0 &&
              decide ((r.extent + 2 ^ r.stlog - 1) / 2 ^ r.stlog ≤ (m.extent - r.resmap % 2 ^ 40) * 8)) then some 8
          else if aux.any fun m => m.layout != 0 || m.fmt != 0x05 then some 9
          else none

/-- How deep records can name one another: an object is valid only where the records it names are, so a chain that meets no id
twice is no longer than the table (01 R21; a chain that comes back to its own id is no valid record: log 84, DESIGN CHOICE). -/
def recordDepth (s : State) (ctx : Nat) : Nat := match s.ctx ctx with | some c => c.otlen + 1 | none => 1

/-- A record that fails R21, with its qualifier: 0 when VALID is 0 (01 R21, 14 R348). -/
def recordBad (s : State) (d ctx : Nat) (r : ObjRec) (sl : Slot) : Option Nat :=
  if !r.valid then some 0 else recordCheck s d ctx (recordDepth s ctx) r sl

/-- The kind of an access (01 R26); `tile` is the destination of a CPYV, shadow and atomic (03 R61). -/
inductive Kind where
  | read
  | write
  | atomic
  | shadow
  | tile
  deriving DecidableEq, Repr

def Kind.isShadow : Kind → Bool
  | .shadow | .tile => true
  | _ => false

/-- Why a translation fails: the order of its check in R26, its cause and qualifier (01 R28). -/
structure Failed where
  rank : Nat
  cause : Nat
  qual : Nat := 0
  deriving DecidableEq, Repr

/-- A translation: where each byte lies, the generation it names, and the flags the L1 needs. -/
structure Located where
  bytes : List Src
  gen : GenRef
  rol : Bool
  deriving DecidableEq, Repr

/-- The generation of an object is pinned (01 R33). -/
def pinnedGen (s : State) (ctx obj gen : Nat) : Bool := s.pkg.pins.any fun p => p.ctx == ctx && p.obj == obj && p.gen == gen
/-- The pins of an object (01 R33). -/
def pinCount (s : State) (ctx obj : Nat) : Nat := ((s.pkg.pins.filter fun p => p.ctx == ctx && p.obj == obj).map (·.count)).foldl (· + ·) 0
/-- One more pin of a graph's object would pass its limit: the request waits (01 R33). -/
def pinsFull (s : State) (t : Task) (n : Nat) : Bool := t.graph && decide (65535 < pinCount s t.ctx (t.succ / 2 ^ 40) + n)

/-- The physical element of element index i of a record whose layout needs no slice pointers (01 R20). -/
def physElem (r : ObjRec) (i : Nat) : Nat :=
  let (d0, d1, d2, d3) := r.dims
  let (s0, s1, s2, s3) := r.strs
  let c0 := i % d0
  let c1 := if 2 ≤ r.ndim then i / d0 % d1 else 0
  let c2 := if 3 ≤ r.ndim then i / (d0 * d1) % d2 else 0
  let c3 := if 4 ≤ r.ndim then i / (d0 * d1 * d2) % d3 else 0
  if r.layout = 1 then
    c3 * s3 + c2 * s2 + (c1 / 64 * (d0 / 64) + c0 / 64) * 4096 + c1 % 64 * 64 + c0 % 64
  else c0 * s0 + c1 * s1 + c2 * s2 + c3 * s3

/-- The permission step of R26 and R27. -/
def permFails (s : State) (ctx id : Nat) (r : ObjRec) (slot : Slot) (kind : Kind) (host : Bool) : Option Failed :=
  let cur := r.current
  if cur.frz && kind != .read then some ⟨4, 0x22, 0x10⟩
  else
    let ok := match kind with
      | .read => bits cur.perm 0 1 == 1
      | .write => bits cur.perm 1 1 == 1 && !r.rol
      | .atomic => bits cur.perm 2 1 == 1 && !r.rol
      | .shadow | .tile => bits cur.perm 3 1 == 1
    if !ok then some ⟨5, 0x22, 0⟩
    else if kind.isShadow && pinnedGen s ctx id slot.gen then some ⟨5, 0x25, 0⟩
    else if (kind == .atomic || kind == .tile || host) && slot.place == 4 then some ⟨5, 0x22, 0x11⟩
    else none

/-- What a translation reads on its way: the number of n bytes at an object address, or why its read fails (01 R30, R42). -/
abbrev Walk := Nat → Nat → Except Failed Nat

/-- The residency step of R26: the sub-tile's bit is read as R26 reads the bitmap object, PERM and PEXT checked; a read that one
of those checks fails counts as a clear bit (log 85, DESIGN CHOICE), one that ends in an error raises that error (01 R22). -/
def notResident (walk : Walk) (r : ObjRec) (o : Nat) : Option Failed :=
  if r.resmap = 0 then none
  else
    let j := o / 2 ^ r.stlog
    match walk ((r.resmap + j / 8) % 2 ^ 64) 1 with
    | .ok b => if bits b (j % 8) 1 = 1 then none else some ⟨6, 0x23, 0⟩
    | .error f => some (if f.cause = 0xB2 ∨ f.cause = 0x28 then ⟨6, f.cause, f.qual⟩ else ⟨6, 0x23, 0⟩)

/-- Where byte b of physical element e of a slot lies, within PEXT (01 R26). -/
def placeByte (s : State) (r : ObjRec) (slot : Slot) (e b : Nat) : Except Failed Src :=
  let q := e * r.es + b
  if slot.pext < q + 1 then .error ⟨8, 0x21, 0x14⟩ else .ok (.mem (locate s slot.place slot.target (slot.base + q)))

/-- Where byte a of an object's image lies: through the slice pointers of layout 3, whose padding only a read may meet (01 R42; log
118, DESIGN CHOICE). -/
def byteSrc (walk : Walk) (s : State) (r : ObjRec) (slot : Slot) (kind : Kind) (a : Nat) : Except Failed Src :=
  let i := a / r.es
  if r.layout = 3 then
    let row := i / r.dims.1 % r.dims.2.1
    let pos := i % r.dims.1
    let sp (k : Nat) : Except Failed Nat := (walk (r.auxobj * 2 ^ 40 + 4 * k) 4).mapError fun f => ⟨8, f.cause, f.qual⟩
    match sp (row / 32), sp (row / 32 + 1) with
    | .ok x, .ok y =>
      if (y + 2 ^ 32 - x) % 2 ^ 32 / 32 ≤ pos then
        if kind == .read then .ok (.pad (if r.padidx then 0xFF else 0)) else .error ⟨8, 0x21, 0⟩
      else placeByte s r slot (x + pos * 32 + row % 32) (a % r.es)
    | .error f, _ => .error f
    | _, .error f => .error f
  else placeByte s r slot (physElem r i) (a % r.es)

/-- The steps of R26 after the record's own: n bytes at an object address through record r and the slot the access names. A named
generation that is neither the current one nor pinned fails after the extent (log 101, DESIGN CHOICE). -/
def translateRec (walk : Walk) (s : State) (d ctx : Nat) (r : ObjRec) (slot? : Option Slot) (addr n : Nat) (kind : Kind) (host : Bool) :
    Except Failed Located :=
  let id := bits addr 40 24
  let o := addr % 2 ^ 40
  if o % n ≠ 0 then .error ⟨2, 0x24, 0⟩
  else if r.extent < o + n then .error ⟨3, 0x21, 0⟩
  else match slot? with
    | none => .error ⟨3, 0x25, 0⟩
    | some slot => match permFails s ctx id r slot kind host with
      | some f => .error f
      | none => match notResident walk r o with
        | some f => .error f
        | none => match (if kind.isShadow then slotCheck s slot else none) with
          | some q => .error ⟨7, 0x20, q⟩
          | none => match ((List.range n).map (o + ·)).mapM (byteSrc walk s r slot kind) with
            | .error f => .error f
            | .ok bytes => .ok { bytes, rol := r.rol, gen := { die := d, ctx, obj := id, gen := slot.gen, shadow := kind.isShadow } }

/-- The slot an access of a kind translates through: an explicit generation is the current one or a pinned shadow (01 R26, R33). -/
def slotFor (s : State) (ctx id : Nat) (r : ObjRec) (kind : Kind) (named : Option Nat) : Option Slot := match named with
  | some g => if g = r.current.gen then some r.current else if g = r.shadow.gen ∧ pinnedGen s ctx id g then some r.shadow else none
  | none => some (if kind.isShadow then r.shadow else r.current)

/-- The number at a translation's bytes, read from die d, or the error its read ends in (01 R22). -/
def Located.number (s : State) (d : Nat) (l : Located) : Except Failed Nat :=
  let c := s.readCause d (memKeys l.bytes)
  if c = 0 then .ok (leNat (l.bytes.map (Src.read s.mem))) else .error ⟨9, c, 0⟩

/-- Translate n bytes at an object address on die d (01 R26). `host` asks for the host-atomic check of key-table accesses
(04 R89); `named` is an explicit generation (01 R33). -/
def translateAt : Nat → State → Nat → Nat → Nat → Nat → Kind → Bool → Option Nat → Except Failed Located
  | 0, _, _, _, _, _, _, _, _ => .error ⟨1, 0x20, 8⟩
  | fuel + 1, s, d, ctx, addr, n, kind, host, named =>
    match record s d ctx (bits addr 40 24) with
    | none => .error ⟨0, 0x20, 0⟩
    | some r => match recordBad s d ctx r r.current with
      | some q => .error ⟨1, 0x20, q⟩
      | none =>
        let walk : Walk := fun a m => (translateAt fuel s d ctx a m .read false none).bind (Located.number s d)
        translateRec walk s d ctx r (slotFor s ctx (bits addr 40 24) r kind named) addr n kind host

/-- What a translation through a record already at hand reads on its way. -/
def walkOn (s : State) (d ctx : Nat) : Walk := fun a m =>
  (translateAt (recordDepth s ctx) s d ctx a m .read false none).bind (Located.number s d)

/-- Translate n bytes at an offset from an address through a record that a request carries (01 R29, R39): bytes past the 2^40 of an object
are out of its shape (01 R17, R26). -/
def translateFrom (s : State) (d ctx : Nat) (r : Option ObjRec) (base off n : Nat) (kind : Kind) (host : Bool) : Except Failed Located :=
  let o := base % 2 ^ 40 + off
  match r with
  | none => .error ⟨0, 0x20, 0⟩
  | some r => match recordBad s d ctx r r.current with
    | some q => .error ⟨1, 0x20, q⟩
    | none =>
      if o % n = 0 ∧ 2 ^ 40 ≤ o then .error ⟨3, 0x21, 0⟩
      else translateRec (walkOn s d ctx) s d ctx r (some r.current) (base / 2 ^ 40 * 2 ^ 40 + o % 2 ^ 40) n kind host

/-- Translate an access of a strand on die d (01 R26). -/
def translate (s : State) (d ctx addr n : Nat) (kind : Kind) : Except Failed Located :=
  translateAt (recordDepth s ctx) s d ctx addr n kind false none

/-- A read of a table or image by a unit of die d, with no thread behind it: bytes, or the failing check (01 R26), or the error
the read ends in (01 R22, 02 R49). A range
that its alignment does not cover is read in aligned pieces of g bytes. -/
def readObject (s : State) (d ctx addr g : Nat) : Nat → Except Failed (List Byte)
  | 0 => .ok []
  | k + 1 =>
    match translate s d ctx (addr % 2 ^ 64) g .read with
    | .error f => .error f
    | .ok l =>
      let c := s.readCause d (memKeys l.bytes)
      if c ≠ 0 then .error ⟨9, c, 0⟩
      else match readObject s d ctx (addr + g) g k with
        | .error f => .error f
        | .ok bs => .ok (l.bytes.map (Src.read s.mem) ++ bs)

/-- The record of an object the hardware uses without checking PERM: row-major and outside host memory in its current slot
(14 R350, R352). None where the record fails R21. -/
def hwRecord (s : State) (d ctx id : Nat) : Option ObjRec :=
  match record s d ctx id with
  | none => none
  | some r => if (recordBad s d ctx r r.current).isSome || r.layout != 0 || r.current.place == 4 then none else some r

/-- The key of byte o of such an object, with the element layout applied; none where the offset fails R26. -/
def hwAt (s : State) (r : ObjRec) (o : Nat) : Option Nat :=
  let q := physElem r (o / r.es) * r.es + o % r.es
  if r.extent ≤ o ∨ r.current.pext ≤ q then none else some (locate s r.current.place r.current.target (r.current.base + q))

/-- The key of byte o of an object the hardware uses without checking PERM. -/
def hwKey (s : State) (d ctx id o : Nat) : Option Nat := (hwRecord s d ctx id).bind fun r => hwAt s r o

/-- Bytes of such an object; bytes that lie nowhere read zero. -/
def hwRead (s : State) (d ctx id o n : Nat) : List Byte :=
  match hwRecord s d ctx id with
  | none => List.replicate n 0
  | some r => (List.range n).map fun i => match hwAt s r (o + i) with | some k => readByte s.mem k | none => 0

def hwNat (s : State) (d ctx id o n : Nat) : Nat := leNat (hwRead s d ctx id o n)

/-- Storage with bytes written at keys from offset o; a byte without a key is not written. -/
def writeSome (m : List Host.Cell) (key : Nat → Option Nat) (o : Nat) : List Byte → List Host.Cell
  | [] => m
  | b :: bs => writeSome (match key o with | some k => writeByte m k b | none => m) key (o + 1) bs

/-- Write bytes of such an object; bytes that lie nowhere are not written. -/
def hwWrite (s : State) (d ctx id o : Nat) (bs : List Byte) : State :=
  match hwRecord s d ctx id with
  | none => s
  | some r => s.setMem (writeSome s.mem (hwAt s r) o bs)

/-- The bytes of a carve-out code (04 R81). -/
def carveBytes (code : Nat) : Nat := code % 4 * 131072
/-- The tag entries and sets of a carve-out code (04 R81). -/
def tagEntries (code : Nat) : Nat := code % 4 * 512
def tagSets (code : Nat) : Nat := code % 4 * 128
/-- D rounded up to 4 KiB (04 R79; log 50, DEDUCED). -/
def directBytes (h : Header) : Nat := (h.direct + 4095) / 4096 * 4096
/-- K (04 R79). -/
def poolBytes (h : Header) : Nat := h.keyu * 16384
def allotBytes (h : Header) : Nat := directBytes h + poolBytes h

/-- Where the tagged region of a core begins: after the strand area, before the allotments (04 R78). -/
def taggedBase : Nat := 49152

/-- The core address of n bytes at a gang address, for a plain access (04 R79): the alignment check comes first. -/
def scratch (g : Gang) (a n : Nat) : Except Failed (List Nat) :=
  if a % n ≠ 0 then .error ⟨2, 0x24, 0⟩
  else if a + n ≤ directBytes g.hdr then .ok (keysFrom (scratchKey g.core (g.base + a)) n)
  else if 0x100000 ≤ a ∧ a + n ≤ 0x100000 + carveBytes g.hdr.carve then
    .ok (keysFrom (scratchKey g.core (taggedBase + (a - 0x100000))) n)
  else .error ⟨3, 0x80, 0⟩

/-- The range of n bytes at a, aligned to al, in one area of R79 (10 R249, R261, R264). -/
def scratchRange (g : Gang) (a n al : Nat) : Except Failed Nat :=
  if a % al ≠ 0 then .error ⟨2, 0x24, 0⟩
  else if a + n ≤ directBytes g.hdr then .ok (scratchKey g.core (g.base + a))
  else if 0x100000 ≤ a ∧ a + n ≤ 0x100000 + carveBytes g.hdr.carve then
    .ok (scratchKey g.core (taggedBase + (a - 0x100000)))
  else .error ⟨3, 0x80, 0⟩

/-- The bytes of such a range, where it lies in one area. -/
def rangeKeys (g : Gang) (a n al : Nat) : List Nat := match scratchRange g a n al with | .ok k => keysFrom k n | .error _ => []

/-- The key of byte o of a gang's key pool (04 R86). -/
def poolKey (g : Gang) (o : Nat) : Nat := scratchKey g.core (g.base + directBytes g.hdr + o)

end Sys2Proof.Machine
end

