-- ==== Sys2Proof/Machine/Ops.lean ====
section
/-!
DEFINITION. Sys2Proof/Machine/Ops.lean: what every word shares. The words of a code object (06 R147), retiring a chain, stopping a
path with a fault (14 R344 to R347), starting an operation in flight, the scoreboard (06 R137), energy (14 R364) and trace (15 R380).
-/

namespace Sys2Proof.Machine

/-- The object address of byte offset pc of a gang's code object (12 R282). -/
def codeAddr (g : Gang) (pc : Word) : Nat := g.task.entry / 2 ^ 40 * 2 ^ 40 + pc.toNat
/-- The word at an offset of a gang's code object, read from a core, or the failing check (06 R147): a misaligned offset raises
0x24, a read that ends in an error what that error raises (01 R22, 02 R43, R49). -/
def fetchWord (s : State) (core : Nat) (g : Gang) (pc : Word) : Except Failed (BitVec 32) :=
  match translate s (coreDie core) g.task.ctx (codeAddr g pc) 4 .read with
  | .error f => .error f
  | .ok l => (l.number s (coreDie core)).map (BitVec.ofNat 32)

/-- What the body of an instruction is given: the path that issues it, and the threads it acts for (06 R141). -/
structure Env where
  k : Nat
  pi : Nat
  i : Instr
  st : Strand
  p : Path
  g : Gang
  act : Mask
  deriving DecidableEq, Repr

def Env.h (e : Env) : Hints := e.p.hints
/-- The offset of the instruction word (12 R309). -/
def Env.pc (e : Env) : Word := e.p.pc
/-- The offset of the first word of its chain (06 R139). -/
def Env.chain (e : Env) : Word := if e.p.chainLen = 0 then e.p.pc else e.p.chainPc
def Env.core (e : Env) : Nat := coreOf e.k
def Env.die (e : Env) : Nat := coreDie e.core
def Env.ctx (e : Env) : Nat := e.g.task.ctx
def Env.ts (e : Env) : List Nat := active e.act
/-- The words of the chain and its instruction (06 R139). -/
def Env.len (e : Env) : Nat := e.p.chainLen + 1
/-- The path as an operation records it: 2 for an undivided strand (03 R66, 14 R345). -/
def Env.opPath (e : Env) : Nat := if e.st.divided then e.pi else 2

/-- Change a strand where it exists. -/
def State.onStrand (s : State) (k : Nat) (f : Strand → Strand) : State :=
  match s.strand k with
  | some st => s.setStrand k (f st)
  | none => s
/-- The strand drains, to stop or to end (14 R345, 12 R315). -/
def Strand.draining (st : Strand) : Bool := st.mode == .stopping || st.mode == .exiting
/-- Change one path of a strand. -/
def State.onPath (s : State) (k pi : Nat) (f : Path → Path) : State :=
  s.onStrand k fun st => st.setPath pi (f (st.path pi))
/-- Change a gang where it exists. -/
def State.onGang (s : State) (n : Nat) (f : Gang → Gang) : State :=
  match s.gang n with
  | some g => s.setGang n (f g)
  | none => s
def State.onCore (s : State) (n : Nat) (f : Core → Core) : State := s.setCore n (f (s.core n))
/-- Change an operation where it exists. -/
def State.onOp (s : State) (n : Nat) (f : Op → Op) : State :=
  match s.op n with
  | some o => s.setOp n (f o)
  | none => s

/-- The weight of an energy class (14 R365). -/
def energyWeight (w : Window) (c : Nat) : Nat :=
  if c < 4 then bits w.enwt0.toNat (16 * c) 16 else bits w.enwt1.toNat (16 * (c - 4)) 16

/-- Add to a counter, saturating at 2^48 - 1 (14 R366). -/
def Counter.add (c : Counter) (n : Nat) : Counter :=
  if c.sat then c else if 2 ^ 48 - 1 ≤ c.count + n then { count := 2 ^ 48 - 1, sat := true } else { c with count := c.count + n }

/-- Charge n events of a class to a context on a core (14 R364, R366, R368; log 49, DEDUCED). -/
def State.charge (s : State) (core ctx cls n : Nat) : State :=
  if n = 0 then s else
  let u := energyWeight s.win cls * n
  s.onCore core fun c => { c with energy := wr {} c.energy ctx ((rd {} c.energy ctx).add u), charges := wr 0 c.charges ctx (rd 0 c.charges ctx + u) }

/-- The energy class of an issued word and how many events it counts (14 R364): `some` active thread after the guard. -/
def wordClass (i : Instr) (some' : Bool) : Nat × Nat :=
  let v (x : BitVec 1) (c : Nat) : Nat × Nat := if x == 1 || !some' then (2, 1) else (c, 1)
  match i with
  | .iadd _ _ _ _ x | .isub _ _ _ _ x | .imul _ _ _ _ x | .imulh _ _ _ _ x | .imad _ _ _ _ x | .min _ _ _ _ x | .max _ _ _ _ x
  | .lea _ _ _ _ x | .shl _ _ _ _ x | .shr _ _ _ _ x | .sar _ _ _ _ x | .and _ _ _ _ x | .or _ _ _ _ x | .xor _ _ _ _ x
  | .andn _ _ _ _ x | .bfx _ _ _ _ x | .bfi _ _ _ _ x => v x 0
  | .iabs _ _ _ x | .clz _ _ _ x | .popc _ _ _ x | .brev _ _ _ x | .mov _ _ _ x => v x 0
  | .icmp _ _ _ _ _ x | .sel _ _ _ _ _ x | .pack _ _ _ _ _ x | .unpk _ _ _ _ _ x => v x 0
  | .movi .. | .iaddI .. | .shlI .. | .shrI .. | .sarI .. | .andI .. | .orI .. | .xorI .. => v 0 0
  | .shfl .. | .vote .. | .rdfl .. | .prfx .. | .conf .. | .kcomb .. | .rebal .. | .mask .. => v 0 0
  | .fadd _ _ _ _ x | .fsub _ _ _ _ x | .fmul _ _ _ _ x | .ffma _ _ _ _ x | .fmin _ _ _ _ x | .fmax _ _ _ _ x => v x 1
  | .frnd _ _ _ x | .fcls _ _ _ x => v x 1
  | .fcmp _ _ _ _ _ x | .hadd2 _ _ _ _ _ x | .hmul2 _ _ _ _ _ x | .hfma2 _ _ _ _ _ x | .fdot2 _ _ _ _ _ x => v x 1
  | .cvt .. | .fmt .. | .ladd .. | .upln .. => v 0 1
  | .pln .. => (1, 1)
  | .mrd _ _ _ _ l _ _ => (1, 2 ^ l.toNat)
  | .sfe .. => v 0 3
  | .srg .. | .srd .. | .srdU .. => (2, 0)
  | _ => (2, 1)

/-- A trace record is wanted of this core: the core sends, its die's unit takes this kind and context (15 R380). -/
def traceOn (s : State) (core ctx kind : Nat) : Bool :=
  let c := (s.die (coreDie core)).trctl.toNat
  bits (s.core core).dbgctl.toNat 2 1 == 1 && bits c 0 1 == 1 && bits c (2 + kind) 1 == 1 && (bits c 16 1 == 1 || bits c 10 6 == ctx)

/-- A die's trace unit drops a record and counts it (15 R380). -/
def Die.drop (d : Die) : Die :=
  let n := d.trlen.toNat / 2 ^ 32
  { d with trlen := BitVec.ofNat 64 (d.trlen.toNat % 2 ^ 32 + (if n = 2 ^ 32 - 1 then n else n + 1) * 2 ^ 32) }
/-- The unit stops writing: its buffer is full, and WRAP is 0 (15 R380). -/
def Die.traceFull (d : Die) : Bool := bits d.trctl.toNat 1 1 == 0 && d.trhead.toNat == d.trlen.toNat % 2 ^ 32
/-- Send a trace record to the die's unit, which takes it or drops it (15 R380, R381). -/
def State.trace (s : State) (k pi kind : Nat) (pc mask aux : Word) : State :=
  match s.strand k with
  | none => s
  | some st =>
    let g := (s.gang st.gang).getD {}
    let core := coreOf k
    let ctx := g.task.ctx
    if !traceOn s core ctx kind then s else
    let d := coreDie core
    let die := s.die d
    if die.trlen.toNat % 2 ^ 32 = 0 then s
    else if die.traceFull || decide (256 ≤ die.traced.length) then s.setDie d die.drop
    else
      let w0 := kind + d * 2 ^ 4 + coreIn core * 2 ^ 6 + coreQuad core * 2 ^ 8 + slotOf k * 2 ^ 14 + pi * 2 ^ 23 + ctx * 2 ^ 24
      let rec32 := leBytes 4 w0 ++ leBytes 4 pc.toNat ++ leBytes 4 mask.toNat ++ leBytes 4 aux.toNat ++
        leBytes 8 (dieCycle d s.now) ++ leBytes 4 g.index ++ leBytes 4 g.gslot
      s.setDie d { die with traced := die.traced ++ [rec32] }
/-- The paths of a strand that a loss of the threads q leaves empty and that unwind: each has taken a branch (12 R284, 15 R381; log 34,
DEDUCED). -/
def State.traceUnwound (s : State) (k : Nat) (st : Strand) (q : Mask) : State :=
  [0, 1].foldl (fun s pi => match st.unwound q pi with | some (pc, u) => s.trace k pi 1 u.pc u.act pc | none => s) s
/-- The trace unit of die d writes a record through the memory-side cache, or drops it (15 R380). -/
def State.writeTrace (s : State) (d : Nat) (r : List Byte) : State :=
  let die := s.die d
  let cap := die.trlen.toNat % 2 ^ 32
  if cap = 0 then s
  else if die.traceFull then s.setDie d die.drop
  else (s.sysWrite (die.trbase.toNat + 32 * (die.trhead.toNat % cap)) r).setDie d { die with trhead := die.trhead + 1 }
/-- What a step does to the records in flight: each unit writes some of them, oldest first (15 R380; log 98, DESIGN CHOICE). -/
def State.drainTraces (s : State) : State := s.dies.foldl (fun (s : State) x =>
  if x.2.traced.isEmpty then s
  else
    let n := Config.traceRate x.1 s.now
    (x.2.traced.take n).foldl (fun (s : State) r => s.writeTrace x.1 r) (s.setDie x.1 { x.2 with traced := x.2.traced.drop n })) s

/-- Count an event in a core's counters, saturating at 0xFFFFFFFF (15 R379): 0 long run, 1 stalled run, 2 early read. -/
def State.countEvent (s : State) (core which : Nat) : State :=
  s.onCore core fun c =>
    let bump (w : Nat) (sh : Nat) : Nat := if bits w sh 32 = 2 ^ 32 - 1 then w else w + 2 ^ sh
    if which = 0 then { c with evc0 := BitVec.ofNat 64 (bump c.evc0.toNat 0) }
    else if which = 1 then { c with evc0 := BitVec.ofNat 64 (bump c.evc0.toNat 32) }
    else { c with evc1 := BitVec.ofNat 64 (bump c.evc1.toNat 0) }

/-- The path goes back before the chain it was reading: nothing of it has issued (06 R139). -/
def Path.rewind (p : Path) : Path :=
  { p with pc := if p.chainLen = 0 then p.pc else p.chainPc, hints := {}, chainLen := 0 }

/-- The lane's path issues nothing more until it is chosen again. -/
def State.uncur (s : State) (k pi : Nat) : State := if s.cur = some (k, pi) then { s with cur := none } else s

/-- End the run of a path before the chain it was reading (12 R284). -/
def State.endRun (s : State) (k pi : Nat) : State :=
  (s.onPath k pi fun p => { p.rewind with run := none }).uncur k pi

/-- A wait for another unit, strand or barrier: the run ends before the chain's first word (12 R285). -/
def Env.hold (e : Env) (s : State) : State := s.endRun e.k e.pi

/-- A hold by the scoreboard or the lookahead: the path keeps its lane, the chain issues later (12 R286). -/
def Env.stall (e : Env) (s : State) : State := (s.onPath e.k e.pi Path.rewind).uncur e.k e.pi

/-- The path stops before the chain it was reading: at a breakpoint, or for an earlier instruction (14 R345). -/
def Path.stopsBefore (p : Path) (f : PathFault) (resume : Word) : Bool :=
  f.defer || decide (resume = p.rewind.pc ∧ (f.cause = 0xB0 ∨ f.pc ≠ p.rewind.pc))
/-- Stop a strand: the faulting path records its fault and the point where a resume continues; the other path ends its run at
its word boundary (14 R344, R345). A stop before a chain, by a breakpoint or for an earlier instruction, leaves what the chain had begun: its
arrival at a barrier and its threads (13 R342, 14 R356). Only the path stops when DBGCTL.ALLP is 0 and a breakpoint or watchpoint hit a divided
strand (15 R371). -/
def State.faultPath (s : State) (k pi : Nat) (f : PathFault) (resume : Word) : State :=
  match s.strand k with
  | none => s
  | some st =>
    let p := st.path pi
    let p' := if p.stopsBefore f resume then { p.rewind with run := none, fault := some (p.fault.getD f) }
      else { p.rewind with
        run := none, pc := resume, reissue := none, half := p.reissue.any (·.half), awaits := none, fault := some (p.fault.getD f)
        act := match p.reissue with | some r => r.live | none => p.act }
    let alone := st.divided && (f.cause == 0xB0 || f.cause == 0xB1) && bits (s.core (coreOf k)).dbgctl.toNat 1 1 == 0
    let st1 := st.setPath pi p'
    let o := 1 - pi
    let st2 := if alone || !st.divided then st1 else st1.setPath o { (st1.path o).rewind with run := none }
    let st3 := if alone then st2 else match st.mode with
      | .running => { st2 with mode := .stopping }
      | _ => st2
    { (s.setStrand k st3) with cur := none }

/-- Where a path resumes after the instruction: the next word, or the saved point when its chain was re-issued (14 R344, R356). -/
def Env.after (e : Env) : Word := match e.p.reissue with | some r => r.cont | none => e.pc + 4

/-- A fault raised for the whole strand: no effect on any thread (14 R344); the path resumes after the instruction. -/
def Env.raise (e : Env) (s : State) (cause : Nat) (qual : Nat := 0) (addr : Nat := 0) (aux : Nat := 0) : State :=
  s.faultPath e.k e.pi { cause, qual, emask := e.p.act, whole := true, pc := e.chain, addr, aux } e.after

/-- A fault raised for the path, with no effect, that resumes at `resume` (log 27, DEDUCED). -/
def Env.raisePath (e : Env) (s : State) (cause : Nat) (qual : Nat) (addr : Nat) (resume : Word) : State :=
  s.faultPath e.k e.pi { cause, qual, emask := e.p.act, pc := e.chain, addr } resume

/-- The words of a run before its forced boundary (12 R284, 06 R148). -/
def runLimit (version : Nat) : Nat := if version = 3 then 24 else 16

/-- A stopped strand that takes one chain of each path notes that this path has issued its own (15 R373). -/
def Strand.noteStep (st : Strand) (pi : Nat) : Strand := match st.stepping with
  | some (a, b) => { st with stepping := some (if pi = 0 then (true, b) else (a, true)) }
  | none => st
/-- A path past a chain of `len` words, at `jump` or the next word; a re-issued chain gives way to the saved point of resumption
unless the instruction sets the PC (14 R356). -/
def Path.past (p : Path) (len : Nat) (jump : Option Word) (stop : Bool) : Path :=
  { p with
    pc := jump.getD (match p.reissue with | some r => r.cont | none => p.pc + 4)
    act := if jump.isSome then p.act else (p.reissue.map (·.live)).getD p.act
    reissue := none, hints := {}, chainLen := 0, words := p.words + len, skipBp := false, awaits := none
    half := jump.isNone && p.reissue.any (·.half)
    run := if stop then none else p.run.map fun r => { r with words := r.words + len } }
/-- An instruction has issued: the path goes to `jump`, as a control-flow instruction sends it, or on; the run ends where the
instruction ends it, at a boundary flag, at the forced boundary (12 R284), or after the one chain of a step (15 R373). -/
def Env.finish (e : Env) (jump : Option Word) (ends : Bool) (s : State) : State :=
  match s.strand e.k with
  | none => s
  | some st =>
    let p := st.path e.pi
    let forced := decide (runLimit e.g.hdr.version ≤ (match p.run with | some r => r.words | none => 0) + e.len)
    let stop := ends || boundary e.i || forced || st.stepping.isSome
    let s1 := s.setStrand e.k ((st.noteStep e.pi).setPath e.pi (p.past e.len jump stop))
    let s2 := if forced && !ends && !boundary e.i then s1.countEvent e.core 0 else s1
    if stop then s2.uncur e.k e.pi else s2

/-- The ordinary end of an instruction. -/
def Env.next (e : Env) (s : State) : State := e.finish none false s

/-- Some threads have faulted and the rest have had their effects: the path stops after the instruction (14 R344). -/
def Env.nextFault (e : Env) (s : State) (cause qual : Nat) (emask : Mask) (addr : Nat) (aux : Nat := 0) : State :=
  if emask = 0 then e.next s
  else (e.next s).faultPath e.k e.pi { cause, qual, emask, pc := e.chain, addr, aux } e.after

/-- The failure an instruction reports when its threads fail different checks: the earliest check of R26 (01 R28), with the
address of the lowest failing thread (14 R347). -/
def worst : List (Nat × Nat × Failed) → Option (Failed × Mask × Nat)
  | [] => none
  | fs =>
    let best := fs.foldl (fun (b : Option Failed) f => match b with
      | none => some f.2.2
      | some w => if f.2.2.rank < w.rank then some f.2.2 else b) none
    let low := fs.foldl (fun (b : Option (Nat × Nat)) f => match b with
      | none => some (f.1, f.2.1)
      | some (t, a) => if f.1 < t then some (f.1, f.2.1) else some (t, a)) none
    best.map fun b => (b, maskOf (fs.map (·.1)), match low with | some (_, a) => a | none => 0)

/-- End an instruction some of whose threads failed a check: (thread, address, failure) for each. -/
def Env.nextFailed (e : Env) (s : State) (fs : List (Nat × Nat × Failed)) : State :=
  match worst fs with
  | none => e.next s
  | some (f, m, a) => e.nextFault s f.cause f.qual m a

/-- The vector registers that an instruction reads or writes (12 R300). -/
def Env.vregsNamed (e : Env) : List Nat := (uses e.i e.h).flatMap fun u => if u.file == .vec && decide (u.code < 112) then keysFrom u.code u.n else []
/-- Start an operation in flight: it joins its access path's open set (03 R64) and the path's outstanding list with the
lookahead of the instruction (06 R137). Called before `finish`. -/
def Env.start (e : Env) (o : Op) (s : State) : Nat × State :=
  let (id, s1) := s.fresh
  let o' := { o with strand := e.k, gang := e.st.gang, ctx := e.ctx, core := e.core, path := e.opPath, pc := e.chain, mask := e.act, active := e.p.act,
                      named := e.vregsNamed, from1 := e.pi == 1, born := s.now }
  let s2 := s1.setOp id o'
  (id, s2.onPath e.k e.pi fun p => { p with outs := p.outs ++ [(id, p.words + e.len, lookahead e.i)] })

/-- A GATH.x with an index still to follow: its failures are precise, so its path goes no further (01 R41, 14 R344). -/
def Op.unresolved (o : Op) : Bool := match o.kind with
  | .gather .. => o.items.any fun i => decide (2 ^ 64 ≤ i.cmp)
  | _ => false
/-- The operation still holds the scoreboard (06 R137). -/
def State.outstanding (s : State) (id : Nat) : Option Op := match s.op id with
  | some o => if o.outstanding || o.watched || o.unresolved then some o else none
  | none => none

/-- Ranges of n from a and m from b share an element. -/
def overlaps (a n b m : Nat) : Bool := decide (a < b + m) && decide (b < a + n)

/-- The accumulator a long-accumulator instruction names, by mask: bit 0 for l0, bit 1 for l1 (09 R215, R219). -/
def accNamed : Instr → Nat
  | .lz _ e | .ladd _ _ e _ | .lmrg _ _ e _ _ | .lst _ _ e _ _ | .lrd _ _ e => e.toNat + 1
  | .lvar .. => 3
  | _ => 0
/-- The accumulators an instruction reads: LZ only writes its own (09 R215). -/
def accRead : Instr → Nat
  | .lz .. => 0
  | i => accNamed i

/-- A register operand depends on an operation in flight (06 R137: true dependences, enforced by the scoreboard). -/
def Use.depends (u : Use) (o : Op) : Bool := match u.file with
  | .vec => if u.code < 112 then o.vregs.any (fun r => overlaps u.code u.n r 1) else o.sregs.any (fun r => overlaps (u.code - 112) u.n r 1)
  | .uni => o.sregs.any (fun r => overlaps u.code u.n r 1)
  | .pred => o.preds.contains u.code

/-- The path's next chain is held by an exhausted lookahead (06 R137), by a watched access (15 R378), or by a gather that may still
stop the path (01 R41). -/
def lookaheadHeld (s : State) (p : Path) (len : Nat) : Bool :=
  p.outs.any fun (id, base, la) => match s.outstanding id with
    | some o => o.watched || o.unresolved || decide (base + la < p.words + len)
    | none => false

/-- Unfinished batches of an access path (03 R64; log 80, DEDUCED). -/
def Strand.unfinished (st : Strand) (a : Nat) : Nat := (rd 0 st.sealedB a - rd 0 st.finishedB a).toNat

/-- The key of a barrier slot's owner and number: scope, owner, slot (13 R338). -/
def barKey (scope owner slot : Nat) : Nat := (owner * 8 + scope) * 64 + slot

/-- The owner of the slots of a scope that a gang names (13 R338): itself, its team (a launch has fewer than 2^48 gangs, 13 R317), its launch, or for POD
slots the package. -/
def barOwner (g : Gang) (gangId scope : Nat) : Nat :=
  if scope = 1 then gangId else if scope = 2 then g.launch * 2 ^ 48 + g.index / 4 else if scope = 5 then 0 else g.launch

def State.bar (s : State) (key : Nat) : BarSlot := rd {} s.bars key
def State.setBar (s : State) (key : Nat) (b : BarSlot) : State := { s with bars := wr {} s.bars key b }

/-- The bit of TGTV of a slot: CORE 0, QUAD 16, DIE 48, PKG 112, POD 176 (14 R353). -/
def targetBit (scope slot : Nat) : Nat :=
  (if scope = 1 then 0 else if scope = 2 then 16 else if scope = 3 then 48 else if scope = 4 then 112 else 176) + slot

/-- The domain record of an id: die and offset in its Onyx SRAM (13 R327; log 18, DESIGN CHOICE). -/
def domainAt (s : State) (id : Nat) : Nat × Nat :=
  let d := bits id 12 2
  (d, (s.die d).tqcfg.toNat / 2 ^ 32 + 32 * bits id 0 12)
def domainNat (s : State) (id o n : Nat) : Nat := let (d, a) := domainAt s id; s.onyxNat d (a + o) n
/-- The id names a valid domain of the context (13 R327). -/
def domainValid (s : State) (id ctx : Nat) : Bool :=
  let f := domainNat s id 24 4
  bits f 0 1 == 1 && bits f 4 6 == ctx && decide (domainNat s id 28 4 % 2 ^ 18 = bits id 14 18)
def domainBroken (s : State) (id : Nat) : Bool := bits (domainNat s id 24 4) 1 1 == 1
def domainUnk (s : State) (id : Nat) : Bool := bits (domainNat s id 24 4) 2 1 == 1
/-- RETURNED = ISSUED (13 R328). -/
def domainQuiet (s : State) (id : Nat) : Bool := decide (domainNat s id 0 12 = domainNat s id 12 12)

/-- The active threads that a guard qualifies (06 R141). -/
def qualified (st : Strand) (p : Path) : Mask := match p.hints.guard with
  | none => p.act
  | some (n, q) => p.act &&& (if n then ~~~(st.pmask q.toNat) else st.pmask q.toNat)
/-- The threads an instruction acts for: a guard narrows the active set, but only issues or skips a strand-wide instruction (06 R141). -/
def actOf (i : Instr) (st : Strand) (p : Path) : Mask := if guardClass i == .strandWide then p.act else qualified st p
/-- Path pi of a strand and its gang, as it issues i. -/
def envAt (k pi : Nat) (i : Instr) (st : Strand) (g : Gang) : Env :=
  { k, pi, i, st, p := st.path pi, g, act := actOf i st (st.path pi) }
/-- A strand-wide instruction whose guard no thread meets: it is skipped (06 R141). -/
def Env.skips (e : Env) : Bool := guardClass e.i == .strandWide && decide (qualified e.st e.p = 0)

/-- A marked gang's waits are withdrawn, but for those of a handler in its slot, which runs on (12 R307). -/
def Env.withdrawn (e : Env) : Bool := e.g.swap && e.st.mode != .handler

/-- Requests leave the lanes' queues of a core; one that comes to the head of its lane's queue has waited there since `now` (12 R301). -/
def Core.dropClaims (c : Core) (now : Nat) (drop : Nat × ClaimReq → Bool) : Core :=
  let kept := c.claims.filter fun r => !drop r
  let first (l : List (Nat × ClaimReq)) (r : Nat × ClaimReq) : Bool := l.find? (·.1 == r.1) == some r
  { c with claims := kept.map fun r => if first kept r && !first c.claims r then (r.1, { r.2 with head := now }) else r }

/-- Charge an issued chain: its hints, and its instruction by its class (14 R364). -/
def Env.pay (e : Env) (s : State) : State :=
  let (c, n) := wordClass e.i (decide (e.act ≠ 0))
  (s.charge e.core e.ctx 2 e.p.chainLen).charge e.core e.ctx c n
/-- Charge a chain that its guard skips, or that a check stops as it issues: an issued word that does no work (14 R364; log 49, DEDUCED). -/
def Env.payIdle (e : Env) (skipped : Bool) (s : State) : State :=
  let (c, n) := match e.i with
    | .pln .. => (1, 1)
    | .mrd .. => (2, 1)
    | i => if skipped then (2, 1) else wordClass i (decide (e.act ≠ 0))
  (s.charge e.core e.ctx 2 e.p.chainLen).charge e.core e.ctx c (max n 1)

end Sys2Proof.Machine
end

