-- ==== Sys2Proof/Machine/Alu.lean ====
section
/-!
DEFINITION. Sys2Proof/Machine/Alu.lean: how an instruction that only computes reads its sources and writes its destination, once
per active thread or once for the strand (08 R180), and what becomes of the flags it raises (05 R105).
-/

namespace Sys2Proof.Machine

/-- What a word or an event answers. -/
abbrev Answer := Host.Outcome State Fault Refusal

/-- The number in n uniform registers from c. -/
def Strand.uniN (st : Strand) (c : Nat) : Nat → Nat
  | 0 => 0
  | n + 1 => (st.sreg c).toNat + 2 ^ 32 * st.uniN (c + 1) n

/-- A source group of n registers: uniform under x = 1, else thread t's (08 R180, 06 R135). -/
def Env.get (e : Env) (x : BitVec 1) (c : BitVec 7) (n t : Nat) : Nat :=
  if x == 1 then e.st.uniN c.toNat n else e.st.srcN c.toNat n t

/-- Write a destination group of n registers: once under x = 1, else for each active thread (08 R180). -/
def Env.put (e : Env) (x : BitVec 1) (d : BitVec 7) (n : Nat) (f : Nat → Nat) (s : State) : State :=
  s.onStrand e.k fun st =>
    if x == 1 then st.setSGroup d.toNat n (f (lowest e.act)) else st.setEachGroup d.toNat n e.ts f

/-- Write a predicate for the active threads. -/
def Env.putPred (e : Env) (d : Nat) (val : Mask) (s : State) : State := s.onStrand e.k fun st => st.setP d e.act val

/-- The registers of an operand under D64 (08 R182). -/
def Env.w (e : Env) : Nat := if e.h.d64 then 2 else 1
/-- The bits of an operand under D64. -/
def Env.n (e : Env) : Nat := 32 * e.w
/-- The code of the third source: the hint's, or d's (06 R140). -/
def Env.third (e : Env) (d : BitVec 7) : BitVec 7 := e.h.third.getD d
def Env.rm (e : Env) : Nat := roundMode e.h e.p.nfr
def Env.fz32 (e : Env) : Bool := nfrFz32 e.p.nfr
def Env.fz16 (e : Env) : Bool := nfrFz16 e.p.nfr
/-- The immediate of an I-format word (06 R140, 08 R186). -/
def Env.imm (e : Env) (i : BitVec 8) : Int := match e.h.wide with
  | none => i.toNat
  | some w => w.toInt * 256 + i.toNat

/-- The nearest integer to i in the signed range of n bits. -/
def clampSigned (n : Nat) (i : Int) : Int := max (-(2 ^ (n - 1) : Nat)) (min i ((2 ^ (n - 1) : Nat) - 1))

/-- An instruction of two sources with no flags. -/
def Env.two (e : Env) (x : BitVec 1) (d a b : BitVec 7) (nd na nb : Nat) (f : Nat → Nat → Nat) (s : State) : State :=
  e.next (e.put x d nd (fun t => f (e.get x a na t) (e.get x b nb t)) s)
/-- An instruction of one source with no flags. -/
def Env.one (e : Env) (x : BitVec 1) (d a : BitVec 7) (nd na : Nat) (f : Nat → Nat) (s : State) : State :=
  e.next (e.put x d nd (fun t => f (e.get x a na t)) s)

/-- Set sticky flags of the issuing path (05 R104). -/
def Env.sticky (e : Env) (flags : Nat) (s : State) : State := s.onPath e.k e.pi fun p => { p with nfr := stick p.nfr flags }

/-- The union of sets of flags (log 26, DEDUCED). -/
def unionFlags (fs : List Nat) : Nat := fs.foldl orFlags 0

/-- End an instruction whose threads raised flags: `rs` pairs each thread with its flags, and `write` writes the results of a
thread mask. A thread whose flags meet an enable has no effect and raises the numeric cause (05 R105). -/
def Env.flagged (e : Env) (rs : List (Nat × Nat)) (write : Mask → State → State) (s : State) : State :=
  let bad := rs.filter fun r => trapped e.p.nfr r.2 != 0
  let good := rs.filter fun r => trapped e.p.nfr r.2 == 0
  let s1 := e.sticky (unionFlags (good.map (·.2))) (write (maskOf (good.map (·.1))) s)
  e.nextFault s1 (numericCause (unionFlags (bad.map fun r => trapped e.p.nfr r.2))) 0 (maskOf (bad.map (·.1))) 0

/-- The uniform form: a trapped cause is raised for the whole strand (08 R180). -/
def Env.flaggedOnce (e : Env) (flags : Nat) (write : State → State) (s : State) : State :=
  let c := trapped e.p.nfr flags
  if c != 0 then e.raise s (numericCause c) else e.next (e.sticky flags (write s))

/-- An instruction whose result carries flags. -/
def Env.putFlagged (e : Env) (x : BitVec 1) (d : BitVec 7) (n : Nat) (f : Nat → Nat × Nat) (s : State) : State :=
  if x == 1 then
    let r := f (lowest e.act)
    e.flaggedOnce r.2 (e.put x d n fun _ => r.1) s
  else
    let rs := e.ts.map fun t => (t, f t)
    e.flagged (rs.map fun r => (r.1, r.2.2))
      (fun m s => s.onStrand e.k fun st => rs.foldl (fun st r => if has m r.1 then st.setGroup d.toNat n r.1 r.2.1 else st) st) s

/-- A comparison whose predicate carries flags. -/
def Env.putCompare (e : Env) (x : BitVec 1) (d : BitVec 7) (f : Nat → Bool × Nat) (s : State) : State :=
  if x == 1 then
    let r := f (lowest e.act)
    e.flaggedOnce r.2 (e.putPred d.toNat (if r.1 then 0xFFFFFFFF else 0)) s
  else
    let rs := e.ts.map fun t => (t, f t)
    e.flagged (rs.map fun r => (r.1, r.2.2))
      (fun m s => s.onStrand e.k fun st => st.setP d.toNat m (maskOf ((rs.filter (·.2.1)).map (·.1)))) s

end Sys2Proof.Machine
end

