-- ==== Sys2Proof/Machine/Access.lean ====
section
/-!
DEFINITION. Sys2Proof/Machine/Access.lean: what memory instructions share. Forming and translating the threads' addresses (07
R155), operations in flight and their order on one location (11 R269, R270), the L1 (04 R74 to R76), batches (03 R64), deferred
faults (03 R67), watchpoints (15 R378), Lantern samples (15 R383, R384) and the energy of lines (14 R364).
-/

namespace Sys2Proof.Machine

/-- The WIDE displacement in bytes (06 R136). -/
def Env.off (e : Env) : Int := e.h.wideInt
/-- The object address of thread t: base pair k, register a, displacement (07 R155). -/
def Env.objAddr (e : Env) (k : Nat) (a : BitVec 7) (off : Int) (t : Nat) : Nat :=
  unsigned 64 (e.st.upair (2 * k) + (e.st.src a.toNat t).toNat + off)
/-- The object address a pair names (07 R155). -/
def Env.pairAddr (e : Env) (a : BitVec 7) (off : Int) (t : Nat) : Nat := unsigned 64 (e.st.src64 a.toNat t + off)
/-- The scratchpad address of thread t (07 R155). -/
def Env.scrAddr (e : Env) (a : BitVec 7) (off : Int) (t : Nat) : Nat := unsigned 32 ((e.st.src a.toNat t).toNat + off)

/-- A thread, the address it names, and what became of it. -/
abbrev Reach (α : Type) := List (Nat × Nat × Except Failed α)

/-- Translate each active thread's address (01 R26). -/
def Env.reach (e : Env) (s : State) (kind : Kind) (n : Nat) (addr : Nat → Nat) : Reach Located :=
  e.ts.map fun t => (t, addr t, translate s e.die e.ctx (addr t) n kind)
/-- Check each active thread's scratchpad address (04 R79). -/
def Env.reachScr (e : Env) (n : Nat) (addr : Nat → Nat) : Reach (List Nat) := e.ts.map fun t => (t, addr t, scratch e.g (addr t) n)

def Reach.failed {α : Type} (rs : Reach α) : List (Nat × Nat × Failed) :=
  rs.filterMap fun r => match r.2.2 with | .error f => some (r.1, r.2.1, f) | .ok _ => none
def Reach.passed {α : Type} (rs : Reach α) : List (Nat × Nat × α) :=
  rs.filterMap fun r => match r.2.2 with | .error _ => none | .ok x => some (r.1, r.2.1, x)

/-- The items of the threads that passed their checks, as reads. -/
def readItems (ps : List (Nat × Nat × Located)) : List Item :=
  ps.map fun p => { t := p.1, addr := p.2.1, src := p.2.2.bytes, rol := p.2.2.rol }
/-- The items of the threads that passed their checks, as writes of a value. -/
def writeItems (ps : List (Nat × Nat × Located)) (val : Nat → Nat) : List Item :=
  ps.map fun p => { t := p.1, addr := p.2.1, dst := memKeys p.2.2.bytes, val := val p.1, rol := p.2.2.rol }
def gensOf (ps : List (Nat × Nat × Located)) : List GenRef := ps.map fun p => p.2.2.gen

/-- The line operations of items by a key, at most `cap` items each, numbered by first appearance (03 R59, 02 R47), and how many there
are. -/
def numberLines (key : Item → List Nat) (its : List Item) (cap : Nat := 32) : List Item × Nat :=
  let put (r : List (List Nat × Nat) × List Item) (i : Item) : List (List Nat × Nat) × List Item :=
    let same := (r.2.filter fun j => key j == key i).length
    let k := (key i, same / cap)
    let ks := if r.1.contains k then r.1 else r.1 ++ [k]
    (ks, r.2 ++ [{ i with line := ks.findIdx (· == k) }])
  let (ks, is) := its.foldl put ([], [])
  (is, ks.length)

/-- The lines of memory an operation reads and writes. -/
def Item.lines (i : Item) : List Nat := (memKeys i.src ++ i.dst).map lineOf
def dedup (l : List Nat) : List Nat := l.foldl (fun r x => if r.contains x then r else r ++ [x]) []
/-- A translation that serves line operation n alone. -/
def GenRef.forLine (n : Nat) (g : GenRef) : GenRef := { g with line := some n }
def Op.allLines (o : Op) : List Nat := dedup (o.items.flatMap Item.lines)

/-- Charge the access to a line at its home: an Onyx bank by class 6; a stack's line by class 7 when its slice does not hold it,
which the model leaves free (log 10, DESIGN CHOICE); a host line by class 7 (14 R364). -/
def State.chargeHome (s : State) (core ctx line : Nat) : State :=
  let a := line * 128
  if isOnyx a then s.charge core ctx 6 1
  else if isHost a then s.charge core ctx 7 1
  else if isStack a then
    let (b, s1) := s.freeValue 1
    s1.charge core ctx 7 b.toNat
  else s
def State.chargeHomes (s : State) (core ctx : Nat) (ls : List Nat) : State := ls.foldl (fun s l => s.chargeHome core ctx l) s

/-- The lines that reading n pieces of g bytes of an object touches (14 R364). -/
def objectLines (s : State) (d ctx addr g n : Nat) : List Nat :=
  dedup ((List.range n).flatMap fun j => match translate s d ctx ((addr + g * j) % 2 ^ 64) g .read with
    | .ok l => (memKeys l.bytes).map lineOf
    | .error _ => [])

/-- The die cycles of one scratchpad access: the most distinct 8-byte words in one of 128 banks, at least one (04 R83). -/
def occupancy (keys : List Nat) : Nat :=
  let words := dedup (keys.map (· / 8))
  max 1 ((words.map fun w => (words.filter fun v => v % 128 == w % 128).length).foldl max 0)

/-- Remove lines of a core's L1, and keep fills already asked for from being installed (04 R75, R76; log 6, DESIGN CHOICE). -/
def State.invalidate (s : State) (core : Nat) (hit : Nat → Bool) (keepRol : Bool) : State :=
  let s1 := s.onCore core fun c => { c with l1 := c.l1.filter fun e => !(hit e.1 && !(keepRol && e.2.rol)) }
  { s1 with ops := s1.ops.map fun (id, o) =>
      if o.core != core then (id, o) else match o.kind with
        | .load .. | .lmrg _ | .prefetch _ =>
          (id, { o with dead := o.dead ++ dedup (((o.items.filter fun i => !(keepRol && i.rol)).flatMap Item.lines).filter hit) })
        | _ => (id, o) }
/-- An acquire at QUAD scope or wider by a strand of the core (04 R75). -/
def State.acquire (s : State) (core : Nat) : State := s.invalidate core (fun _ => true) true

/-- The address of a watchpoint's range, its size in bits, and whether it is enabled for a context and space (15 R377). -/
def Watch.bitLen (w : Watch) : Nat := max 3 (min (bits w.ctl.toNat 0 6) 40)
def Watch.covers (w : Watch) (ctx : Nat) (scr : Bool) (a n : Nat) : Bool :=
  let c := w.ctl.toNat
  let at' := if scr then w.addr.toNat % 2 ^ 32 else w.addr.toNat
  let base := at' / 2 ^ w.bitLen * 2 ^ w.bitLen
  bits c 14 1 == 1 && bits c 8 6 == ctx && (bits c 6 1 == 1) == scr && decide (base < a + n) && decide (a < base + 2 ^ w.bitLen)
def watchpoints (s : State) (core : Nat) : List (Nat × Watch) := (List.range 4).map fun n => (n, rd {} (s.core core).wp n)
/-- Some thread addresses an enabled range (15 R378). -/
def watchedAt (s : State) (core ctx : Nat) (scr : Bool) (as : List Nat) (n : Nat) : Bool :=
  (watchpoints s core).any fun w => as.any fun a => w.2.covers ctx scr a n

/-- Byte b of an object's memory, whoever may read it; past its extent there is none (15 R378; log 36, DEDUCED). -/
def objectByte (s : State) (core ctx b : Nat) : Nat :=
  let d := coreDie core
  match record s d ctx (bits b 40 24) with
  | none => 0
  | some r => if r.extent ≤ b % 2 ^ 40 then 0 else match byteSrc (walkOn s d ctx) s r r.current .read (b % 2 ^ 40) with
    | .ok x => (x.read s.mem).toNat
    | .error _ => 0
/-- The contents of the aligned word w around a write of `dst` at a. -/
def wordAt (s : State) (core ctx : Nat) (g : Gang) (scr : Bool) (a : Nat) (dst : List Nat) (w : Nat) : Nat :=
  leNat ((List.range 8).map fun i =>
    let b := w + i
    if a ≤ b ∧ b < a + dst.length then readByte s.mem (dst.getD (b - a) 0)
    else if scr then (match scratch g b 1 with | .ok (k :: _) => readByte s.mem k | _ => 0)
    else BitVec.ofNat 8 (objectByte s core ctx b))
/-- The watchpoints a thread's step from s0 to s1 fires, each with its word (15 R378). -/
def fires (s0 s1 : State) (core ctx : Nat) (g : Gang) (scr : Bool) (a : Nat) (dst : List Nat) : List (Nat × Nat) :=
  let n := dst.length
  ((List.range ((a % 8 + n + 7) / 8)).map fun i => a / 8 * 8 + 8 * i).flatMap fun w =>
    (watchpoints s0 core).filterMap fun (j, p) =>
      if !p.covers ctx scr w 8 then none
      else
        let now' := wordAt s1 core ctx g scr a dst w
        let old := wordAt s0 core ctx g scr a dst w
        let wrote := (List.range 8).foldl (fun m i => if a ≤ w + i ∧ w + i < a + n then m + 255 * 2 ^ (8 * i) else m) 0
        let vm := p.vmask.toNat
        let hit := if bits p.ctl.toNat 7 1 = 0 then
            decide (Nat.land wrote vm ≠ 0) && decide (Nat.land (Nat.xor now' p.value.toNat) vm = 0)
          else decide (Nat.land (Nat.xor now' old) vm ≠ 0)
        if hit then some (j, w) else none
/-- DBGSTAT records the watchpoints that have fired (15 R379; log 36, DEDUCED). -/
def State.fired (s : State) (core : Nat) (fs : List (Nat × Nat)) : State :=
  s.onCore core fun c => { c with dbgstat := fs.foldl (fun d f => d ||| (1#64 <<< (8 + f.1))) c.dbgstat }
/-- Stop a path after a write that fired (15 R370, R378); a firing beside a fault is only noted (15 R374). -/
def State.watchStop (s : State) (k pi : Nat) (pc resume : Word) (fs : List (Nat × Nat)) : State :=
  if fs.isEmpty then s
  else match s.strand k with
    | none => s
    | some st =>
      if (st.path pi).fault.isSome then s.onCore (coreOf k) fun c => { c with dbgstat := c.dbgstat ||| 0x1000 }
      else
        let low := fs.foldl (fun (m : Nat × Nat) f => if f.1 < m.1 then f else m) (fs.headD (0, 0))
        s.faultPath k pi { cause := 0xB1, emask := maskOf (fs.map (·.1)), pc, addr := low.2 } resume

/-- Count n requests of a core and tag every 2^K-th (15 R383): the state, and the numbers of those tagged. -/
def State.sample (s : State) (core ctx n : Nat) : State × List Nat :=
  let c := (s.die (coreDie core)).lantern.toNat
  if bits c 0 1 = 0 ∨ bits c 6 6 ≠ ctx ∨ n = 0 then (s, [])
  else
    let per := 2 ^ min (bits c 1 5) 24
    let count := (s.core core).lantern
    (s.onCore core fun c => { c with lantern := (count + n) % per }, (List.range n).filter fun j => decide ((count + j + 1) % per = 0))

/-- An operation makes one request for each line operation, or for each line it names; a gather makes one, which the die splits by the
stacks (15 R383, 01 R39; log 102, DEDUCED). -/
def Op.whole (o : Op) : Bool := match o.kind with | .gather .. | .ldsum .. => true | _ => false
/-- How many requests an operation makes (15 R383). -/
def Op.requests (o : Op) : Nat := if o.whole then 1 else if o.lines.isEmpty then o.allLines.length else o.lines.length
/-- Start a memory operation: counted by Lantern, watched when it is one that watchpoints apply to and names an enabled range (15 R378). -/
def Env.launchOp (e : Env) (o : Op) (s : State) (watch : Bool := true) : State :=
  if o.items.isEmpty then s
  else
    let (s1, tags) := s.sample e.core e.ctx o.requests
    let writes := match o.kind with
      | .store _ | .atomic .. | .aoadd .. => true
      | _ => false
    let n := match o.items with | i :: _ => max i.dst.length i.src.length | [] => 0
    let watched := watch && writes && watchedAt s e.core e.ctx false (o.items.map (·.addr)) n
    (e.start { o with watched, tags } s1).2

/-- The line operation n of an operation is in state x. -/
def Op.lineIs (o : Op) (n : Nat) (x : LineSt) : Bool := o.lines[n]? == some x
/-- A line operation changes its state; one that finishes ends the translations that served it alone (01 R34). -/
def Op.setLine (o : Op) (n : Nat) (x : LineSt) : Op :=
  { o with lines := o.lines.set n x, gens := if x == .finished then o.gens.filter (·.line != some n) else o.gens }
/-- Two operations of one strand have a program order between them (11 R275). -/
def Op.pathMeets (a b : Op) : Bool := a.path == 2 || b.path == 2 || a.path == b.path
def Op.reads (o : Op) : List Nat := o.items.flatMap fun i => memKeys i.src
def Op.writes (o : Op) : List Nat := o.items.flatMap (·.dst)
def meets (a b : List Nat) : Bool := a.any b.contains
/-- An engine carries it out: a copy, a gather, a matrix operation. -/
def Op.engine (o : Op) : Bool := match o.kind with
  | .copy _ | .copyv _ | .gather .. | .mld .. | .mma .. => true
  | _ => false
/-- The bytes an operation has still to read. -/
def Op.unread (o : Op) : List Nat := match o.kind with
  | .load .. | .lmrg _ => o.reads
  | .copy _ => if o.data.isEmpty then o.reads else []
  | .copyv _ => (o.items.filter fun i => !o.lineIs i.line .finished).flatMap fun i => memKeys i.src
  | .gather .. => (o.items.filter fun i => o.lineIs i.line .waiting || o.lineIs i.line .forwarded).flatMap fun i => memKeys i.src
  | .ldsum .. => if o.lines == [.waiting] then o.reads else []
  | .mld _ addr grid _ => keysFrom addr (if grid then 16384 else 4096)
  | _ => []
/-- Operation o must wait for the older operation p on a common location (11 R269 to R273, R279; 03 R72): a read for an older store until
its acknowledgement and for an older read, a write for older reads and writes. What engines write is ordered by batches alone. -/
def Op.waitsFor (o p : Op) : Bool :=
  let plain := !o.engine
  match p.kind with
  | .store home => meets o.reads p.writes || (!home && plain && meets o.writes p.writes)
  | .atomic .. | .aoadd .. => meets o.reads p.writes || (plain && meets o.writes p.writes)
  | .load .. | .lmrg _ => meets o.reads p.reads || (plain && meets o.writes p.reads)
  | _ => meets o.reads p.unread || (plain && meets o.writes p.unread)
/-- No older operation holds this one back: of its path, or for what an engine reads of its strand (11 R279). -/
def State.ordered (s : State) (id : Nat) (o : Op) : Bool :=
  !s.ops.any fun (i, p) => decide (i < id) && p.strand == o.strand && o.waitsFor p && (o.pathMeets p || o.engine)

/-- The finished count after the pending batches of an access path (03 R64). -/
def finishedNow (ops : Tab Op) (k a : Nat) (sealed' fin : Word) : Word :=
  let pend := ops.filterMap fun (_, o) => if o.strand == k && o.acc == some a then o.batch.map fun b => (b - fin).toNat else none
  match pend with
  | [] => sealed'
  | m :: ms => fin + BitVec.ofNat 32 (ms.foldl min m - 1)
/-- Advance the finished count of an access path. -/
def State.settleBatches (s : State) (k a : Nat) : State :=
  s.onStrand k fun st =>
    { st with finishedB := wr 0 st.finishedB a (finishedNow s.ops k a (rd 0 st.sealedB a) (rd 0 st.finishedB a)) }

/-- SEAL of an access path: the whole open set becomes the next batch (03 R64). -/
def State.seal (s : State) (k a : Nat) : State := match s.strand k with
  | none => s
  | some st =>
    let b := rd 0 st.sealedB a + 1
    let s1 := s.setStrand k { st with
      sealedB := wr 0 st.sealedB a b
      deferred := st.deferred.map fun d => if d.acc == some a && d.batch.isNone then { d with batch := some b } else d }
    let close (o : Op) : Op := if o.strand == k && o.acc == some a && o.batch.isNone then { o with batch := some b } else o
    ({ s1 with ops := s1.ops.map fun x => (x.1, close x.2) } : State).settleBatches k a
/-- A strand that ends seals its open sets (03 R68), where 16 unfinished batches leave room (03 R64). -/
def State.sealEnding (s : State) (k : Nat) : State := match s.strand k with
  | some st => if st.mode == .exiting then
      (List.range 4).foldl (fun (s : State) a => if st.unfinished a < 16 then s.seal k a else s) s
    else s
  | none => s
/-- A split has rejoined: what is in flight belongs to the undivided strand (11 R275). -/
def State.rejoined (s : State) (k : Nat) (wasDivided : Bool) : State := match s.strand k with
  | some st => if wasDivided && !st.divided then
      ({ s with ops := s.ops.map fun x => if x.2.strand == k then (x.1, { x.2 with path := 2 }) else x } : State).trace k 0 3 st.path0.pc st.path0.act 0
    else s
  | none => s

/-- The parts of an operation that make its request n (15 R383). -/
def Op.request (o : Op) (n : Nat) : List Item :=
  if o.whole then o.items else if o.lines.isEmpty then o.items.filter fun i => i.lines.contains (o.allLines.getD n 0) else o.items.filter (·.line == n)
/-- The bytes of memory that a request concerns. -/
def Op.requestKeys (o : Op) (n : Nat) : List Nat :=
  (if o.lines.isEmpty && !o.whole then [o.allLines.getD n 0 * 128] else (o.request n).flatMap fun i => i.dst ++ memKeys i.src).filter fun k => !isScratch k
/-- Such an object is written by the hardware without checking PERM (14 R350, 15 R384): its other checks of R26 pass for a range of bytes: it is
not frozen, and each byte is resident and lies somewhere. -/
def hwReaches (s : State) (d ctx id o n : Nat) : Bool := match hwRecord s d ctx id with
  | none => false
  | some r => !r.current.frz && (List.range n).all fun i => (hwAt s r (o + i)).isSome && (notResident (walkOn s d ctx) r (o + i)).isNone
/-- The sample record of request n of an operation (15 R384, R385), or a dropped sample. The queueing times of the units it passed are free (log
1, DESIGN CHOICE; log 102, DEDUCED): the L1 unless it bypasses it (04 R74), and what lies on the way to each byte it concerns. -/
def State.writeSample (s : State) (o : Op) (n : Nat) (hit : Bool) : State :=
  let d := coreDie o.core
  let die := s.die d
  let lan := die.lantern.toNat
  let obj := bits lan 12 24
  let head := hwNat s d o.ctx obj 0 8
  let tail := hwNat s d o.ctx obj 8 8
  let ext := match record s d o.ctx obj with | some r => r.extent | none => 0
  let cap := (ext - 64) / 64
  if !hwReaches s d o.ctx obj 0 16 || decide (cap = 0) || decide (cap ≤ tail - head) || !hwReaches s d o.ctx obj (64 + 64 * (tail % cap)) 64 then
    let n := bits lan 36 16
    s.setDie d { die with lantern := BitVec.ofNat 64 (if n = 65535 then lan else lan + 2 ^ 36) }
  else
    let kind := match o.kind with
      | .store _ => 1 | .atomic .. | .aoadd .. => 2 | .copy _ | .copyv _ => 3 | .gather .. => 4 | .ldsum .. => 5 | .prefetch _ => 6
      | _ => 0
    let (q, s1) := s.freeValue 96
    let w0 := kind + (if hit then 16 else 0) + (if o.cache = 2 then 32 else 0) + d * 64 + coreIn o.core * 256 + coreQuad o.core * 1024 +
      slotOf o.strand * 2 ^ 16 + (if o.from1 then 2 ^ 25 else 0)
    let ks := o.requestKeys n
    let home := dieOfKey (ks.headD (scratchKey o.core 0))
    let q16 (n : Nat) (passed : Bool) : List Byte := leBytes 2 (if passed then bits q.toNat (16 * n) 16 else 0)
    let dies := ks.map dieOfKey ++ (o.request n).filterMap (·.via)
    let links := if kind == 5 then d != 0 || dies.any (· != 0) else dies.any (· != d)
    let l1 := kind == 1 || kind == 2 || ((kind == 0 || kind == 6) && o.cache != 2)
    let queues := q16 0 l1 ++ q16 1 (!hit && ks.any fun k => !isHost k) ++ q16 2 (!hit) ++ q16 3 (!hit && links) ++ q16 4 (!hit && ks.any isStack) ++
      q16 5 (kind == 5)
    let bytes := leBytes 4 w0 ++ leBytes 4 o.pc.toNat ++ leBytes 8 (((o.request n).map (·.addr)).headD 0) ++ leBytes 8 (dieCycle d o.born) ++
      leBytes 4 (dieCycle d s.now - dieCycle d o.born) ++ queues ++ leBytes 4 home ++ leBytes 20 0
    let s2 := hwWrite s1 d o.ctx obj (64 + 64 * (tail % cap)) bytes
    hwWrite s2 d o.ctx obj 8 (leBytes 8 (tail + 1))
/-- The samples of an operation's tagged requests, each with whether the L1 served it (15 R384). -/
def State.writeSamples (s : State) (o : Op) (hit : Nat → Bool) : State := o.tags.foldl (fun s n => s.writeSample o n (hit n)) s
/-- Requests of an operation are complete, and it goes on: its core writes the samples of those that are tagged (15 R384). -/
def State.requestsDone (s : State) (id : Nat) (o : Op) (done : Nat → Bool) : State :=
  (s.writeSamples { o with tags := o.tags.filter done } fun _ => false).setOp id { o with tags := o.tags.filter fun n => !done n }
/-- The single-copy atomic parts of what an item reads, as the lines of each: its bytes by eights (07 R160, 11 R267). -/
def Item.units (i : Item) : List (List Nat) :=
  (List.range ((i.src.length + 7) / 8)).map fun j => dedup ((memKeys ((i.src.drop (8 * j)).take 8)).map lineOf)
/-- The lines of an operation that an L1 may hold. -/
def Op.cacheLines (o : Op) : List Nat := o.allLines.filter fun l => !isHost (l * 128)
/-- A layout puts bytes that are read as one in several lines (01 R26). -/
def Op.split (o : Op) : Bool := o.items.any fun i => i.units.any fun u => decide (1 < u.length)
/-- The lines at hand hold what the homes held in one step, as a part that lies in several of them needs (11 R267). -/
def State.together (s : State) (o : Op) : Bool :=
  let ls := o.cacheLines
  let filled := ls.map fun l => (look (s.core o.core).l1 l).map (·.since)
  !o.split || o.cache == 2 || ls.all (fun l => (look o.got l).isSome) ||
    (ls.all (fun l => (look o.got l).isNone) && filled.all fun x => x.isSome && x == filled.headD none)

/-- An operation is complete: its tagged requests are sampled, and it leaves the paths' outstanding lists and its batch. -/
def State.finishOp (s : State) (id : Nat) : State :=
  match s.op id with
  | none => s
  | some o =>
    let s1 := ((s.writeSamples o fun _ => false).dropOp id).onStrand o.strand fun st =>
      let f (p : Path) : Path := { p with outs := p.outs.filter fun x => x.1 != id }
      { st with path0 := f st.path0, path1 := f st.path1 }
    match o.acc with
    | some a => s1.settleBatches o.strand a
    | none => s1

/-- A fault found after issue, for the failing threads of an operation (03 R67, 07 R159); `whole` for one of the whole strand. -/
def State.defer (s : State) (o : Op) (cause qual : Nat) (emask : Mask) (addr : Nat) (whole : Bool := false) : State :=
  if emask = 0 then s else
  s.onStrand o.strand fun st => { st with deferred := st.deferred ++ [{
    fault := { cause, qual, emask, whole, defer := true, pc := o.pc, addr }
    path := if st.divided then o.path else 2
    acc := o.acc, batch := o.batch, vregs := o.vregs, sregs := o.sregs, preds := o.preds
    accs := (match o.kind with | .lmrg a => a + 1 | _ => 0), drain := st.draining }] }
/-- The failure of a part is an error found in its memory or on the way there: it is deferred (03 R67, 07 R159). -/
def Item.late (i : Item) : Bool := i.bad % 256 == 0xB2 || i.bad % 256 == 0x28
/-- Its failures stop the whole strand: one read for the strand, or its one request (07 R161, R165; 09 R217). -/
def Op.wholeStrand (o : Op) : Bool := match o.kind with | .load _ _ _ true | .aoadd .. | .lmrg _ => true | _ => false
/-- The failed parts of an operation as one failure: the earliest check, the failing threads, the lowest one's address (01 R28, 14 R347). -/
def Op.failure (o : Op) : Option (Failed × Mask × Nat) :=
  worst ((o.items.filter (·.bad != 0)).map fun i => (i.t, i.addr, ⟨i.rank, i.bad % 256, i.bad / 256⟩))
/-- Defer the failure recorded in an operation's parts (log 30, DEDUCED). -/
def State.deferBad (s : State) (o : Op) : State := match o.failure with
  | none => s
  | some (f, m, a) => s.defer o f.cause f.qual (if o.wholeStrand then o.active else m) a o.wholeStrand

/-- Lines of the L1 that share a set: 1,024 sets, by the low bits of the line number (04 R73, which gives them no effect; log 6, DESIGN
CHOICE). -/
def l1Set (line : Nat) : Nat := line % 1024
/-- Install a line: of the lines of a full set, one filled evict-first goes first, then the oldest (04 R73; log 6, DESIGN CHOICE). -/
def installLine (ways : Nat) (l1 : Tab L1Line) (line : Nat) (x : L1Line) : Tab L1Line :=
  let set := l1.filter fun e => l1Set e.1 == l1Set line && e.1 != line
  let old := set.foldl (fun (b : Option (Nat × L1Line)) e => match b with
    | none => some e
    | some y => if (e.2.first && !y.2.first) || (e.2.first == y.2.first && decide (e.2.since < y.2.since)) then some e else b) none
  if ways = 0 then upd l1 line none
  else upd (if set.length < ways then l1 else match old with | some y => upd l1 y.1 none | none => l1) line (some x)
/-- The ways of a core's L1 in use: way w of core n is unit 12 n + w of class 2 (04 R73, 14 R369; log 16, PRESUMED). -/
def State.waysOf (s : State) (core : Nat) : Nat := 12 - (s.pkg.excluded.filter fun x => x.1 == 2 && x.2 / 12 == core).length
/-- What an L1 of fewer ways keeps of its lines (14 R369; log 6, DESIGN CHOICE). -/
def trimL1 (ways : Nat) (l1 : Tab L1Line) : Tab L1Line := l1.foldl (fun m e => installLine ways m e.1 e.2) []

end Sys2Proof.Machine
end

