-- ==== Sys2Proof/Machine/Functions.lean ====
section
/-!
DEFINITION. Sys2Proof/Machine/Functions.lean: the built-in functions of SFE and user tables (09 R207 to R214).
Functions whose values are irrational are evaluated in fixed point with 640 fraction bits and a sticky last bit before their one
rounding (log 8, DEDUCED).
-/

namespace Sys2Proof.Machine

/-- 1.0 in fixed point. -/
def fxOne : Nat := 2 ^ 640
/-- m x 2^e in fixed point; bits below the last are lost (no FP32 number has any). -/
def toFx (m : Nat) (e : Int) : Nat := if 0 ≤ e + 640 then m * 2 ^ (e + 640).toNat else m / 2 ^ (-(e + 640)).toNat
/-- An inexact fixed-point value as a number: its last bit is sticky. -/
def ofFx (neg : Bool) (a : Nat) : FV := .fin neg (2 * a + 1) (-641)

/-- Sum of z^(2j+1) / (2j+1), j from k. -/
def atanhSum (z2 : Nat) : Nat → Nat → Nat → Nat
  | 0, _, _ => 0
  | n + 1, k, p => p / (2 * k + 1) + atanhSum z2 n (k + 1) (p * z2 / fxOne)
/-- Alternating sum of z^(2j+1) / (2j+1), j from k, for z = 1 / d. -/
def atanSum (d2 : Nat) : Nat → Nat → Nat → Int
  | 0, _, _ => 0
  | n + 1, k, p => ((p / (2 * k + 1) : Nat) : Int) - atanSum d2 n (k + 1) (p / d2)
/-- pi by Machin's formula. -/
def fxPi : Nat := (16 * atanSum 25 150 0 (fxOne / 5) - 4 * atanSum 57121 50 0 (fxOne / 239)).toNat
/-- ln 2 (log 8, DEDUCED). -/
def fxLn2 : Nat := 2 * atanhSum (fxOne / 9) 210 0 (fxOne / 3)
/-- Sum of r^j / j!, j from k: `t` is the term. -/
def expSum (r : Nat) : Nat → Nat → Nat → Nat
  | 0, _, _ => 0
  | n + 1, k, t => t + expSum r n (k + 1) (t * r / fxOne / (k + 1))
/-- e^r for r below 1 (log 8, DEDUCED). -/
def fxExp (r : Nat) : Nat := expSum r 160 0 fxOne
/-- e^-y for y at or above 0. -/
def fxExpNeg (y : Nat) : Nat :=
  let k := y / fxLn2
  fxOne * fxOne / fxExp (y % fxLn2) / 2 ^ k
/-- Alternating sum of w^(2j+1) / (2j+1)!, j from k (log 8, DEDUCED). -/
def sinSum (w2 : Nat) : Nat → Nat → Nat → Int
  | 0, _, _ => 0
  | n + 1, k, t => (t : Int) - sinSum w2 n (k + 1) (t * w2 / fxOne / ((2 * k + 2) * (2 * k + 3)))
/-- Terms of the series of erf. -/
def erfSum (z2 : Nat) : Nat → Nat → Nat → Nat
  | 0, _, _ => 0
  | n + 1, k, t => t + erfSum z2 n (k + 1) (2 * t * z2 / fxOne / (2 * k + 3))
/-- erf of z, given z and its square (log 8, DEDUCED). -/
def fxErf (z z2 : Nat) : Nat := 2 * (erfSum z2 800 0 z * fxExpNeg z2 / fxOne) * fxOne / Nat.sqrt (fxPi * fxOne)

/-- sin 2 pi f for f in [0, 1): exact at multiples of 1/4 (09 R208). -/
def sinTurn (f : Nat) : FV :=
  let neg := decide (fxOne ≤ 2 * f)
  let g := if neg then f - fxOne / 2 else f
  let h := if fxOne < 4 * g then fxOne / 2 - g else g
  if h = 0 then .fin false 0 0
  else if 4 * h = fxOne then .fin neg 1 0
  else
    let w := 2 * fxPi * h / fxOne
    ofFx neg (sinSum (w * w / fxOne) 100 0 w).toNat

/-- A nonzero value far below the smallest subnormal. -/
def speck (neg : Bool) : FV := .fin neg 1 (-400)
def fvOne (neg : Bool) : FV := .fin neg 1 0
def fvZero : FV := .fin false 0 0

/-- The exact value of a built-in function of a number, with the flags its special cases raise (09 R208): inexact values carry a
sticky bit (log 8, DEDUCED). -/
def builtinValue (id : Nat) (v : FV) : FV × Nat :=
  match v with
  | .nan sg => (.nan false, if sg then flagInv else 0)
  | .inf neg =>
    if id = 0 then (if neg then fvZero else .inf false, 0)
    else if id = 1 ∨ id = 6 then (if neg then (.nan false, flagInv) else (.inf false, 0))
    else if id = 2 ∨ id = 3 then (.nan false, flagInv)
    else if id = 4 then (.fin neg 0 0, 0)
    else if id = 5 then (if neg then (.nan false, flagInv) else (fvZero, 0))
    else if id = 7 ∨ id = 9 then (fvOne neg, 0)
    else if id = 8 then (if neg then fvZero else fvOne false, 0)
    else (if neg then .fin true 0 0 else .inf false, 0)
  | .fin neg m e =>
    let x := toFx m e
    let whole := x / fxOne
    let frac := x % fxOne
    if id = 0 then
      if !neg && decide (128 ≤ whole) then (.inf false, flagOvf)
      else if neg && decide (200 ≤ whole) then (speck false, 0)
      else if frac = 0 then (.fin false 1 (if neg then -(whole : Int) else whole), 0)
      else
        let n : Int := if neg then -(whole : Int) - 1 else whole
        let f := if neg then fxOne - frac else frac
        (.fin false (2 * fxExp (f * fxLn2 / fxOne) + 1) (n - 641), 0)
    else if id = 1 then
      if m = 0 then (.inf true, flagDiv)
      else if neg then (.nan false, flagInv)
      else
        let E := leadExp m e
        let y := toFx m (-(Nat.log2 m : Int))
        if y = fxOne then (ofInt E 0, 0)
        else
          let z := (y - fxOne) * fxOne / (y + fxOne)
          let l := 2 * atanhSum (z * z / fxOne) 210 0 z * fxOne / fxLn2
          let r : Int := E * fxOne + l
          (ofFx (decide (r < 0)) (if r < 0 then r.natAbs - 1 else r.natAbs), 0)
    else if id = 2 then
      if m = 0 then (v, 0) else (sinTurn (if neg then (fxOne - frac) % fxOne else frac), 0)
    else if id = 3 then (sinTurn ((frac + fxOne / 4) % fxOne), 0)
    else if id = 4 then (if m = 0 then (.inf neg, flagDiv) else (quotient neg 1 m (-e), 0))
    else if id = 5 then
      if m = 0 then (.inf neg, flagDiv)
      else if neg then (.nan false, flagInv)
      else
        let (m', e') := if e % 2 = 0 then (m, e) else (2 * m, e - 1)
        let r := Nat.sqrt (2 ^ 400 / m')
        (.fin false (2 * r + (if r * r * m' = 2 ^ 400 then 0 else 1)) (-e' / 2 - 201), 0)
    else if id = 6 then
      if m = 0 then (v, 0)
      else if neg then (.nan false, flagInv)
      else
        let (m', e') := if e % 2 = 0 then (m, e) else (2 * m, e - 1)
        let r := Nat.sqrt (m' * 2 ^ 200)
        (.fin false (2 * r + (if r * r = m' * 2 ^ 200 then 0 else 1)) (e' / 2 - 101), 0)
    else if id = 7 then
      if 9 ≤ whole then (fvOne neg, 0)
      else if m = 0 then (fvZero, 0)
      else
        let E := fxExpNeg (2 * x)
        (ofFx neg ((fxOne - E) * fxOne / (fxOne + E)), 0)
    else if id = 8 then
      if m = 0 then (.fin false 1 (-1), 0)
      else if !neg && decide (35 * fxOne ≤ 2 * x) then (fvOne false, 0)
      else if neg && decide (104 ≤ whole) then (speck false, 0)
      else
        let E := fxExpNeg x
        (ofFx false ((if neg then E else fxOne) * fxOne / (fxOne + E)), 0)
    else if id = 9 then
      if 9 ≤ whole then (fvOne neg, 0)
      else if m = 0 then (fvZero, 0)
      else (ofFx neg (fxErf x (x * x / fxOne)), 0)
    else if id = 10 then
      if m = 0 then (fvZero, 0)
      else if 16 ≤ whole then (if neg then speck true else v, 0)
      else
        let y := fxErf (x * fxOne / Nat.sqrt (2 * fxOne * fxOne)) (x * x / fxOne / 2)
        let h := if neg then fxOne - y else fxOne + y
        (ofFx neg (x * h / fxOne / 2), 0)
    else
      if m = 0 then (fvZero, 0)
      else if 120 ≤ whole then (if neg then speck true else v, 0)
      else
        let E := fxExpNeg x
        (ofFx neg (x * (if neg then E else fxOne) / (fxOne + E)), 0)

/-- SFE of a built-in function (09 R208): rounded to nearest, never inexact; underflow when the exact value is tiny and the result
differs from it (log 8, DEDUCED). -/
def builtin (id : Nat) (fz : Bool) (w : Nat) : Nat × Nat :=
  let (v, g) := builtinValue id (fp32.input fz w)
  let (r, f) := fp32.round 0 fz v
  let tiny := match v with
    | .fin _ m e => decide (m ≠ 0) && decide (leadExp m e < fp32.emin) && decide (f / 16 % 2 = 1)
    | _ => false
  (r, orFlags g ((if f / 4 % 2 = 1 then flagOvf else 0) + (if tiny then flagUnf else 0)))

/-- A table image (09 R209). -/
structure TableImage where
  interp : Nat
  oor : Bool
  nseg : Nat
  k : Int
  x0 : Nat
  bytes : List Byte
  deriving DecidableEq, Repr
def parseTable (bs : List Byte) : TableImage :=
  let w0 := fieldAt bs 0 4
  let w1 := fieldAt bs 4 4
  { interp := bits w0 0 2, oor := bits w0 2 1 == 1, nseg := bits w1 0 16, k := signed 8 (bits w1 16 8), x0 := fieldAt bs 8 4, bytes := bs }
/-- Coefficient c of segment i. -/
def TableImage.coef (t : TableImage) (i c : Nat) : Nat := fieldAt t.bytes (64 + 16 * i + 4 * c) 4
def finite32 (w : Nat) : Bool := (fp32.value w).isFinite
/-- The checks of R212, over an image of its NSEG segments. -/
def tableValid (bs : List Byte) : Bool :=
  let t := parseTable bs
  decide (t.interp ≤ 1) && decide (1 ≤ t.nseg) && decide (t.nseg ≤ 1020) && fieldAt bs 0 4 / 8 == 0 && fieldAt bs 4 4 / 2 ^ 24 == 0 &&
  (bs.drop 12).take 52 == List.replicate 52 0 && finite32 t.x0 &&
  (List.range t.nseg).all fun i => t.coef i 3 == 0 && finite32 (t.coef i 0) && finite32 (t.coef i 1) && (t.interp == 0 || finite32 (t.coef i 2))

/-- (x - x0) x 2^k rounded once to FP32 (09 R210, R222, R223). -/
def scaled (x : FV) (x0 : Nat) (k : Int) : FV :=
  let d := match (FV.add 0 x (fp32.value x0).neg).1 with
    | .fin n m e => .fin n m (e + k)
    | o => o
  fp32.value (fp32.round 0 false d).1
/-- The floor of a finite value. -/
def floorOf (v : FV) : Int := match v with
  | .fin n m e => roundInt 3 n m e
  | _ => 0
/-- a + t x b rounded once, or b's infinity carried through (09 R210). -/
def axpy (fz : Bool) (a t b : FV) : Nat × Nat := fp32.round 0 fz (FV.add 0 a (t.mul b).1).1
/-- The segment that a number falls in and its place there, none where the table answers out of range (09 R210). -/
def TableImage.segment (tab : TableImage) (x : FV) : Option (Nat × FV) :=
  let u := scaled x tab.x0 tab.k
  let i := floorOf u
  let inRange := u.isFinite && decide (0 ≤ i) && decide (i < tab.nseg)
  if !inRange && tab.oor then none
  else if inRange then some (i.toNat, u) else if u.sign then some (0, .fin false 0 0) else some (tab.nseg - 1, .fin false tab.nseg 0)
/-- The bytes of its image that the table reads for an operand (09 R209, R210). -/
def TableImage.touches (tab : TableImage) (fz : Bool) (w : Nat) : List Nat := match fp32.input fz w with
  | .nan _ => []
  | x => List.range 12 ++ match tab.segment x with
    | some (j, _) => (List.range (if tab.interp = 0 then 8 else 12)).map (64 + 16 * j + ·)
    | none => []
/-- The evaluation of a user table (09 R210): overflow is its only flag beside invalid and the underflow of R108 (log 39, DEDUCED). -/
def TableImage.eval (tab : TableImage) (fz : Bool) (w : Nat) : Nat × Nat :=
  let x := fp32.input fz w
  match x with
  | .nan sg => (fp32.qnan, if sg then flagInv else 0)
  | _ => match tab.segment x with
    | none => (fp32.qnan, flagInv)
    | some (j, u') =>
      let t := (FV.add 0 u' (ofInt (-(j : Int)) 0)).1
      let c (n : Nat) : FV := fp32.value (tab.coef j n)
      let inner := if tab.interp = 0 then (tab.coef j 1, 0) else axpy false (c 1) t (c 2)
      let r := axpy fz (c 0) t (fp32.value inner.1)
      (r.1, orFlags (Nat.land r.2 (flagOvf + flagUnf)) (Nat.land inner.2 flagOvf))

/-- Where bank b of table t lies in the system space (09 R209). -/
def Ctx.tableAt (c : Ctx) (t b : Nat) : Nat := c.ftarea + (2 * t + b) * 16384
/-- The bank of table t in the function-table area (09 R209). -/
def tableBytes (s : State) (c : Ctx) (t b : Nat) : List Byte := s.sysRead (c.tableAt t b) 16384
/-- Some of these bytes of the system space cannot be read from a die (01 R22, 02 R43, R49). -/
def State.sysFails (s : State) (die at' : Nat) (offs : List Nat) : Bool := offs.any fun o => s.readFails die (s.sysKey (at' + o))
/-- Some of these bytes of the bank of table t that a run uses cannot be read (01 R22). -/
def tableFails (s : State) (die ctx : Nat) (r : Option Run) (t : Nat) (offs : List Nat) : Bool := match s.ctx ctx, r with
  | some c, some r => s.sysFails die (c.tableAt t (bits r.tables.toNat t 1)) offs
  | _, _ => false
/-- The bank of table t a run uses, if it is not empty (09 R211, R214). -/
def tableImage (s : State) (ctx : Nat) (r : Option Run) (t : Nat) : Option TableImage :=
  match s.ctx ctx, r with
  | some c, some r =>
    let b := bits r.tables.toNat t 1
    if bits c.tfilled.toNat (2 * t + b) 1 = 1 then some (parseTable (tableBytes s c t b)) else none
  | _, _ => none

/-- An operation on table or slot t of the context has not completed (09 R211). -/
def bankBusy (s : State) (ctx : Nat) (model : Bool) (t : Nat) : Bool :=
  s.ops.any fun x => x.2.ctx == ctx && match x.2.kind with
    | .stbl n _ => !model && n == t
    | .sld n _ => model && n == t
    | .bankSwap m n _ => m == model && n == t
    | _ => false
/-- The cores of the present dies (00 R2). -/
def State.allCores (s : State) : List Nat := s.dieSet.flatMap fun d => (List.range 136).map (d * 136 + ·)


end Sys2Proof.Machine
end

