-- ==== Sys2Proof/Machine/Notices.lean ====
section
/-!
DEFINITION. Sys2Proof/Machine/Notices.lean: interrupt records on their way to the host's ring (16 R388 to R390).
-/

namespace Sys2Proof.Machine

/-- A write of a window register other than BOOTSTAT, BOOTCLR and the boot log is ignored until boot has ended (16 R386). -/
def State.booted (s : State) : Bool := bits s.win.bootstat.toNat 0 1 == 1
def Window.intCap (w : Window) : Nat := bits w.intcfg.toNat 0 16
/-- The records the ring has room for. -/
def Window.intRoom (w : Window) : Nat := w.intCap - (w.inttail - w.inthead).toNat
/-- The 32 bytes of an interrupt record (16 R389). -/
def interruptRecord (kind ctx info data cyc : Nat) : List Byte :=
  leBytes 1 kind ++ leBytes 1 ctx ++ leBytes 2 info ++ leBytes 4 0 ++ leBytes 8 data ++ leBytes 8 cyc ++ leBytes 8 0
/-- Post an interrupt record: a disabled kind, or a disabled ring, takes none; one that finds the buffer full is dropped and
counted (16 R388). -/
def State.postInterrupt (s : State) (kind ctx info data : Nat) : State :=
  let w := s.win
  if bits w.intcfg.toNat (16 + kind) 1 = 0 ∨ w.intCap = 0 then s
  else if 256 + w.intRoom ≤ s.pkg.intWait.length then
    if bits w.intcfg.toNat 32 16 = 65535 then s
    else s.setPkg { s.pkg with win := { w with intcfg := w.intcfg + (1#64 <<< 32) } }
  else s.setPkg { s.pkg with intWait := s.pkg.intWait ++ [interruptRecord kind ctx info data (dieCycle 0 s.now)] }

end Sys2Proof.Machine
end

