-- ==== Sys2Proof/Machine/Models.lean ====
section
/-!
DEFINITION. Sys2Proof/Machine/Models.lean: models, regions and their records (09 R220 to R229), and what SRG finds before it issues.
-/

namespace Sys2Proof.Machine

/-- A model image (09 R221). -/
structure Model where
  kind : Nat
  nin : Nat
  nout : Nat
  f8n : Bool
  nlay : Nat
  size : Nat
  grid : List Nat
  widths : List Nat
  acts : List Nat
  bytes : List Byte
  deriving DecidableEq, Repr
def parseModel (bs : List Byte) : Model :=
  let w := fieldAt bs 0 4
  { kind := bits w 0 4, nin := bits w 4 4, nout := bits w 8 3, f8n := bits w 11 1 == 1, nlay := bits w 12 2, size := fieldAt bs 4 4
    grid := [fieldAt bs 8 2, fieldAt bs 10 2, fieldAt bs 12 2], widths := [fieldAt bs 8 1, fieldAt bs 9 1]
    acts := [fieldAt bs 12 1, fieldAt bs 13 1, fieldAt bs 14 1], bytes := bs }
/-- X0i and Ki (09 R221). -/
def Model.origin (m : Model) (i : Nat) : Nat := fieldAt m.bytes (64 + 8 * i) 4
def Model.scale (m : Model) (i : Nat) : Int := signed 8 (fieldAt m.bytes (68 + 8 * i) 1)
/-- Inputs and outputs of each weight layer. -/
def Model.layers (m : Model) : List (Nat × Nat) :=
  let w := m.widths
  if m.nlay = 1 then [(m.nin, m.nout)]
  else if m.nlay = 2 then [(m.nin, w.getD 0 0), (w.getD 0 0, m.nout)]
  else [(m.nin, w.getD 0 0), (w.getD 0 0, w.getD 1 0), (w.getD 1 0, m.nout)]
def pad4 (n : Nat) : Nat := (n + 3) / 4 * 4
/-- The bytes of a layer: weights padded, then biases. -/
def Model.layerBytes (m : Model) (l : Nat × Nat) : Nat := pad4 (l.1 * l.2 * (if m.f8n then 1 else 2)) + 4 * l.2
/-- The grid points and the cells of a table. -/
def Model.points (m : Model) : Nat := m.grid.foldl (· * ·) 1
def Model.cells (m : Model) : Nat := (m.grid.map fun g => max 1 (g - 1)).foldl (· * ·) 1
/-- The size a header implies (09 R221). -/
def Model.implied (m : Model) : Nat :=
  if m.kind = 4 then 128 + (m.layers.map m.layerBytes).foldl (· + ·) 0 + 256
  else 128 + pad4 (4 * m.nout * m.points + m.cells)
/-- A function id an activation may name (09 R207, R221). -/
def actOk (a : Nat) : Bool := decide (a < 12) || (decide (16 ≤ a) && decide (a < 24)) || a == 0xFF
/-- The header's checks (09 R224): the widths and activations of layers a network has not are not checked (log 86, DEDUCED). -/
def Model.headerOk (m : Model) : Bool :=
  let w := fieldAt m.bytes 0 4
  let common := decide (1 ≤ m.nout) && decide (m.nout ≤ 4) && w / 2 ^ 14 == 0 && (m.bytes.drop 16).take 48 == List.replicate 48 0 &&
    (List.range 8).all (fun i => fieldAt m.bytes (69 + 8 * i) 3 == 0) && (List.range m.nin).all (fun i => finite32 (m.origin i)) &&
    m.size == m.implied && decide (m.size ≤ 98304)
  if m.kind = 4 then
    common && decide (1 ≤ m.nin) && decide (m.nin ≤ 8) && decide (1 ≤ m.nlay) && fieldAt m.bytes 10 2 == 0 && fieldAt m.bytes 15 1 == 0 &&
      (List.range (m.nlay - 1)).all (fun i => decide (1 ≤ m.widths.getD i 0) && decide (m.widths.getD i 0 ≤ 32)) &&
      (List.range m.nlay).all fun i => actOk (m.acts.getD i 0)
  else
    let top := if m.kind = 1 then 4096 else if m.kind = 2 then 64 else 16
    common && decide (1 ≤ m.kind) && decide (m.kind ≤ 3) && m.nin == m.kind && !m.f8n && m.nlay == 0 && fieldAt m.bytes 14 2 == 0 &&
      (List.range 3).all fun i => if i < m.kind then decide (2 ≤ m.grid.getD i 0) && decide (m.grid.getD i 0 ≤ top) else m.grid.getD i 0 == 1
/-- The body offset of each layer. -/
def layerOffsets (m : Model) : List (Nat × Nat) → Nat → List (Nat × Nat × Nat)
  | [], _ => []
  | l :: ls, o => (o, l) :: layerOffsets m ls (o + m.layerBytes l)
/-- No value or bias is nonfinite (09 R224). -/
def Model.bodyOk (m : Model) : Bool :=
  if m.kind = 4 then (layerOffsets m m.layers 128).all fun (o, l) =>
    let b := o + pad4 (l.1 * l.2 * (if m.f8n then 1 else 2))
    (List.range l.2).all fun i => finite32 (fieldAt m.bytes (b + 4 * i) 4)
  else (List.range (m.nout * m.points)).all fun i => finite32 (fieldAt m.bytes (128 + 4 * i) 4)

/-- A predicted error: nothing for infinity (09 R221). -/
def errorOf (e : Nat) : Option FV := if e = 0 then some fvZero else if e = 255 then none else some (.fin false 1 ((e : Int) - 128))
/-- Lerp (09 R222), on FP32 encodings. -/
def lerp (t : FV) (a b : Nat) : Nat :=
  let d := (fp32.round 0 false (FV.add 0 (fp32.value b) (fp32.value a).neg).1).1
  (axpy false (fp32.value a) t (fp32.value d)).1
/-- Interpolate corner values, dimension 0 in the lowest bit of their number, along each dimension in turn. -/
def multilinear : List FV → List Nat → Nat
  | [], cs => cs.headD 0
  | t :: ts, cs => multilinear ts ((List.range (cs.length / 2)).map fun i => lerp t (cs.getD (2 * i) 0) (cs.getD (2 * i + 1) 0))
/-- The index with dimension 0 innermost. -/
def flatIndex : List Nat → List Nat → Nat
  | i :: is, n :: ns => i + n * flatIndex is ns
  | _, _ => 0
/-- A table model (09 R222). -/
def Model.table (m : Model) (xs : List Nat) : List Nat × Option FV :=
  let us := (List.range m.kind).map fun k => scaled (fp32.value (xs.getD k 0)) (m.origin k) (m.scale k)
  let out := (List.range m.kind).any fun k =>
    let u := us.getD k (.nan false)
    u.isNan || u.lt fvZero || (ofInt ((m.grid.getD k 0 : Int) - 1) 0).lt u
  if out then ([], none)
  else
    let is := (List.range 3).map fun k => if k < m.kind then min (floorOf (us.getD k fvZero)).toNat (m.grid.getD k 0 - 2) else 0
    let ts := (List.range m.kind).map fun k => (FV.add 0 (us.getD k fvZero) (ofInt (-(is.getD k 0 : Int)) 0)).1
    let corner (c j : Nat) : Nat :=
      let at' := (List.range 3).map fun k => is.getD k 0 + (if k < m.kind then bits c k 1 else 0)
      fieldAt m.bytes (128 + 4 * (flatIndex at' m.grid * m.nout + j)) 4
    let ys := (List.range m.nout).map fun j => multilinear ts ((List.range (2 ^ m.kind)).map fun c => corner c j)
    let cell := flatIndex is (m.grid.map fun g => max 1 (g - 1))
    (ys, errorOf (fieldAt m.bytes (128 + 4 * m.nout * m.points + cell) 1))

/-- A weight as FP32 has it (09 R223). -/
def Model.weight (m : Model) (o i : Nat) : FV :=
  if m.f8n then f8nValue (fieldAt m.bytes (o + i) 1) else bf16.value (fieldAt m.bytes (o + 2 * i) 2)
/-- An activation: none where its user table is empty (log 39, DEDUCED). -/
def activation (s : State) (ctx : Nat) (r : Option Run) (a w : Nat) : Option Nat :=
  if a = 0xFF then some w else if a < 16 then some (builtin a false w).1
  else (tableImage s ctx r (a - 16)).map fun t => (t.eval false w).1
/-- The sums of a layer at offset o of the body, before its activation (09 R223). -/
def Model.sums (m : Model) (o : Nat) (l : Nat × Nat) (h : List Nat) : List Nat :=
  let b := o + pad4 (l.1 * l.2 * (if m.f8n then 1 else 2))
  let row (j : Nat) : Nat :=
    let sum := (List.range l.1).foldl (fun v i => (FV.add 0 v ((m.weight o (j * l.1 + i)).mul (fp32.value (h.getD i 0))).1).1)
      (fp32.value (fieldAt m.bytes (b + 4 * j) 4))
    (fp32.round 0 false sum).1
  (List.range l.2).map row
/-- The layers of a network in turn (09 R223). -/
def runLayers (s : State) (ctx : Nat) (r : Option Run) (m : Model) : List (Nat × Nat × Nat) → Nat → List Nat → Option (List Nat)
  | [], _, h => some h
  | (o, l) :: ls, n, h => match (m.sums o l h).mapM (activation s ctx r (m.acts.getD n 0xFF)) with
    | none => none
    | some h' => runLayers s ctx r m ls (n + 1) h'
/-- The user tables that the layers' activations look up, each with its operand (09 R223). -/
def layerLookups (s : State) (ctx : Nat) (r : Option Run) (m : Model) : List (Nat × Nat × Nat) → Nat → List Nat → List (Nat × Nat)
  | [], _, _ => []
  | (o, l) :: ls, n, h =>
    let a := m.acts.getD n 0xFF
    (if a = 0xFF ∨ a < 16 then [] else (m.sums o l h).map fun w => (a - 16, w)) ++
      match (m.sums o l h).mapM (activation s ctx r a) with
      | none => []
      | some h' => layerLookups s ctx r m ls (n + 1) h'
/-- The predictor byte's index (09 R223). -/
def Model.bucket (m : Model) (xs : List Nat) : Nat :=
  let q (i : Nat) : Nat := match scaled (fp32.value (xs.getD i 0)) (m.origin i) (m.scale i) with
    | .inf n => if n then 0 else 255
    | v => (max 0 (min (floorOf v) 255)).toNat
  let w := (List.range m.nin).foldl (fun a i => a + q i * 2 ^ (8 * i)) 0
  w * 0x9E3779B97F4A7C15 % 2 ^ 64 / 2 ^ 56
/-- The inputs of the first layer (09 R223). -/
def Model.inputs (m : Model) (xs : List Nat) : List Nat :=
  (List.range m.nin).map fun i => (fp32.round 0 false (scaled (fp32.value (xs.getD i 0)) (m.origin i) (m.scale i))).1
def Model.nanInput (m : Model) (xs : List Nat) : Bool := (List.range m.nin).any fun i => (fp32.value (xs.getD i 0)).isNan
/-- The lookups of user tables in the evaluation of a model (09 R223). -/
def Model.lookups (s : State) (ctx : Nat) (r : Option Run) (m : Model) (xs : List Nat) : List (Nat × Nat) :=
  if m.kind ≠ 4 || m.nanInput xs then [] else layerLookups s ctx r m (layerOffsets m m.layers 128) 0 (m.inputs xs)
/-- A network model (09 R223). -/
def Model.network (s : State) (ctx : Nat) (r : Option Run) (m : Model) (xs : List Nat) : List Nat × Option FV :=
  if m.nanInput xs then ([], none)
  else match runLayers s ctx r m (layerOffsets m m.layers 128) 0 (m.inputs xs) with
    | none => ([], none)
    | some ys => (ys, errorOf (fieldAt m.bytes (m.size - 256 + m.bucket xs) 1))
/-- Eval of R228: the outputs and the predicted error, none for infinity (09 R222, R223). -/
def Model.eval (s : State) (ctx : Nat) (r : Option Run) (m : Model) (xs : List Nat) : List Nat × Option FV :=
  let a := if m.kind = 4 then m.network s ctx r xs else m.table xs
  if a.1.all finite32 then a else (a.1, none)

/-- Where bank b of slot m lies in the system space (09 R220). -/
def Ctx.modelAt (c : Ctx) (m b : Nat) : Nat := c.mdarea + (2 * m + b) * 98304
/-- The bank of slot m in the model area (09 R220). -/
def modelBytes (s : State) (c : Ctx) (m b : Nat) : List Byte :=
  s.sysRead (c.modelAt m b) (min 98304 (s.sysNat (c.modelAt m b + 4) 4))
/-- Some of the first n bytes of the image that a run uses in a slot cannot be read (01 R22). -/
def modelFails (s : State) (die ctx : Nat) (r : Option Run) (m n : Nat) : Bool := match s.ctx ctx, r with
  | some c, some r => s.sysFails die (c.modelAt m (bits r.models.toNat m 1)) (List.range n)
  | _, _ => false
/-- The model a run uses in a slot, if its bank is not empty (09 R220, R228). -/
def modelImage (s : State) (ctx : Nat) (r : Option Run) (m : Nat) : Option Model :=
  match s.ctx ctx, r with
  | some c, some r =>
    let b := bits r.models.toNat m 1
    if bits c.mfilled.toNat (2 * m + b) 1 = 1 then some (parseModel (modelBytes s c m b)) else none
  | _, _ => none

/-- A quality record (09 R226). -/
structure Quality where
  bound : Nat
  rel : Bool
  sampen : Bool
  sk : Nat
  vlimit : Nat
  deriving DecidableEq, Repr
def parseQuality (bs : List Byte) : Quality :=
  let f := fieldAt bs 4 4
  { bound := fieldAt bs 0 4, rel := bits f 0 1 == 1, sampen := bits f 1 1 == 1, sk := bits f 2 5, vlimit := fieldAt bs 8 2 }
/-- A reserved bit of a quality record is set (09 R226; log 42, DEDUCED). -/
def qualityReserved (bs : List Byte) : Bool :=
  fieldAt bs 4 4 / 2 ^ 7 != 0 || fieldAt bs 10 2 != 0 || fieldAt bs 12 4 != 0

/-- The place of a region state record in the system space (09 R227). -/
def regionAt (c : Ctx) (r : Nat) : Nat := c.regarea + 64 * r
def State.regionNat (s : State) (ctx r o n : Nat) : Nat := match s.ctx ctx with
  | some c => s.sysNat (regionAt c r + o) n
  | none => 0
def State.regionWrite (s : State) (ctx r o : Nat) (bs : List Byte) : State := match s.ctx ctx with
  | some c => s.sysWrite (regionAt c r + o) bs
  | none => s
/-- A byte of a region state record cannot be read (01 R22, 02 R49). -/
def State.regionFails (s : State) (die ctx r : Nat) : Bool := match s.ctx ctx with
  | some c => s.sysFails die (regionAt c r) (List.range 64)
  | none => false
/-- A write of n bytes at offset o of a region state record crosses a link that is down (02 R49). -/
def State.regionCut (s : State) (die ctx r o n : Nat) : Bool := match s.ctx ctx with
  | some c => s.sysCut die (regionAt c r + o) n
  | none => false
/-- LIVEQ (09 R227). -/
def State.liveq (s : State) (ctx r : Nat) : Quality := match s.ctx ctx with
  | some c => parseQuality (s.sysRead (regionAt c r) 16)
  | none => parseQuality []
/-- Disable a region: the event goes to the host, and the cores are told (09 R236). -/
def State.disableRegion (s : State) (ctx r by' : Nat) : State :=
  let f := s.regionNat ctx r 56 8
  if bits f 1 1 = 1 then s
  else (s.regionWrite ctx r 56 (leBytes 8 (bits f 0 1 + 2 + 4 * by'))).postInterrupt 5 ctx (r + 256 * by') (s.regionNat ctx r 22 2)
/-- Send an increment to a region's slice (09 R235). -/
def State.sendUpdate (s : State) (u : RegionUpd) : State :=
  let (n, s1) := s.fresh
  s1.setPkg { s1.pkg with updates := upd s1.pkg.updates n (some u) }

/-- A region descriptor (09 R225). -/
structure Region where
  slot : Nat
  narg : Nat
  nres : Nat
  args : List Nat
  res : List Nat
  qual : List Byte
  deriving DecidableEq, Repr
/-- A usable descriptor (09 R228; log 42, DEDUCED). -/
def parseRegion (bs : List Byte) : Option Region :=
  let w := fieldAt bs 0 4
  let n := bits w 7 4
  let k := bits w 11 3
  let codes := (List.range 12).map fun i => fieldAt bs (4 + i) 1
  if bits w 0 1 = 0 ∨ w / 2 ^ 14 ≠ 0 ∨ (codes.any fun c => 128 ≤ c) ∨ qualityReserved (bs.drop 16) ∨ n < 1 ∨ 8 < n ∨ k < 1 ∨ 4 < k then none
  else some { slot := bits w 1 6, narg := n, nres := k, args := codes.take n, res := (codes.drop 8).take k, qual := bs.drop 16 }

/-- The predicted error is within bound (09 R228). -/
def withinBound (q : Quality) (ys : List Nat) (p : Option FV) : Bool := match p with
  | none => false
  | some p =>
    let b := fp32.value q.bound
    let least' (b : FV) : Bool := !b.isNan && !b.lt p
    if !q.rel then least' b
    else
      let least := ys.foldl (fun (v : Option FV) y => let a := (fp32.value y).abs
        match v with | none => some a | some w => some (if a.lt w then a else w)) none
      match least with
      | none => false
      | some w => least' (b.mul w).1
/-- A thread's answer is sampled (09 R229). -/
def sampled (q : Quality) (r c t : Nat) : Bool :=
  let h := Nat.xor (Nat.xor (r * 2 ^ 48) (c * 2 ^ 5)) t * 0x9E3779B97F4A7C15 % 2 ^ 64
  q.sampen && (q.sk == 0 || h / 2 ^ (64 - q.sk) == 0)

/-- The region of the RTAG hint (06 R140). -/
def Env.region (e : Env) : Option Nat := e.h.rtag.map (·.toNat)
/-- What SRG found before it evaluates: a fault, or the region, its model, whose header it must be able to read (09 R228, 01 R22; log 43,
DEDUCED; log 106, DESIGN CHOICE). -/
def Env.srgCheck (e : Env) (j : BitVec 16) (s : State) : Except (Nat × Nat × Nat) (Nat × Region × Model) :=
  match e.region with
  | none => .error (0xA0, 0, 0)
  | some r =>
    if e.g.hdr.regtab = 0 then .error (0xA0, 0, 0)
    else
      let at' := (e.g.hdr.regtab + 32 * r) % 2 ^ 64
      match readObject s e.die e.ctx at' 4 8 with
      | .error f => .error (f.cause, f.qual, at')
      | .ok bs => match parseRegion bs with
        | none => .error (0xA0, 0, 0)
        | some g =>
          let join := match fetchWord s e.core e.g (e.pc + 4 * j.setWidth 32) with
            | .ok w => w &&& 0x7FFFFFFF == 0x38100000
            | .error _ => false
          if !join then .error (0xA0, 0x22, 0)
          else if (g.args ++ g.res).any fun c => decide (e.st.allot ≤ c) then .error (0x08, 0, 0)
          else match modelImage s e.ctx e.p.run g.slot with
            | none => .error (0xA1, 0x21, 0)
            | some m =>
              if modelFails s e.die e.ctx e.p.run g.slot 8 then .error (0xB2, 0, 0)
              else if m.nin ≠ g.narg ∨ m.nout ≠ g.nres then .error (0xA0, 0x23, 0) else .ok (r, g, m)
/-- The lines of memory that SRG's region descriptor lies in (09 R225; 14 R364). -/
def Env.srgLines (e : Env) (s : State) : List Nat := match e.region with
  | some r => if e.g.hdr.regtab = 0 then [] else objectLines s e.die e.ctx (e.g.hdr.regtab + 32 * r) 4 8
  | none => []
/-- SRG goes on at the next word: the region is disabled, the strand is a recovery strand, or its allotment is above 64 (09 R228). -/
def Env.srgPasses (e : Env) (r : Nat) (s : State) : Bool :=
  (s.core e.core).disabled.contains (e.ctx, r) || e.st.recov.isSome || decide (64 < e.st.allot)
/-- LIVEQ as an SRG of region r uses it: the descriptor's record where the region has not been opened (09 R227, R228). -/
def Env.srgQuality (e : Env) (r : Nat) (g : Region) (s : State) : Quality :=
  if bits (s.regionNat e.ctx r 56 8) 0 1 = 1 then s.liveq e.ctx r else parseQuality (g.qual.take 16)
/-- The outputs of each active thread, and whether they are within bound (09 R228). -/
def Env.srgAnswers (e : Env) (g : Region) (m : Model) (q : Quality) (s : State) : List (Nat × List Nat × Bool) := e.ts.map fun t =>
  let (ys, p) := m.eval s e.ctx e.p.run (g.args.map fun c => (e.st.vreg c t).toNat)
  (t, ys, withinBound q ys p)
/-- The threads SRG enqueues, as samples where they are within bound (09 R228, R229). -/
def Env.srgQueued (e : Env) (r : Nat) (q : Quality) (as : List (Nat × List Nat × Bool)) : List (Nat × List Nat × Bool) :=
  as.filter fun a => !a.2.2 || sampled q r e.st.srgCount.toNat a.1
/-- An SRG that is to evaluate cannot read what it needs: its region's record, its model's image, which the Garnet SRAM takes whole, or a user
table that an activation looks up. It raises 0xB2 for its strand (01 R22, 09 R220; log 106, DESIGN CHOICE). -/
def Env.srgUnread (e : Env) (r : Nat) (g : Region) (m : Model) (s : State) : Bool :=
  s.regionFails e.die e.ctx r || modelFails s e.die e.ctx e.p.run g.slot m.bytes.length ||
  e.ts.any fun t => (m.lookups s e.ctx e.p.run (g.args.map fun c => (e.st.vreg c t).toNat)).any fun x =>
    match tableImage s e.ctx e.p.run x.1 with
    | some tab => tableFails s e.die e.ctx e.p.run x.1 (tab.touches false x.2)
    | none => false
/-- SRG finds no room for its entries in the recovery queue (09 R231, 12 R285). -/
def Env.srgFull (e : Env) (j : BitVec 16) (s : State) : Bool := match e.srgCheck j s with
  | .error _ => false
  | .ok (r, g, m) =>
    let q := e.srgQuality r g s
    !e.srgPasses r s && !e.srgUnread r g m s && decide (256 < (s.core e.core).recq.length + (e.srgQueued r q (e.srgAnswers g m q s)).length)
/-- The registers SRG reads and writes, which its region's descriptor names (09 R228). -/
def Env.srgUses (e : Env) (j : BitVec 16) (s : State) : List Use := match e.srgCheck j s with
  | .error _ => []
  | .ok (_, g, _) => g.args.map (fun c => { file := .vec, code := c, n := 1, write := false }) ++
      g.res.map fun c => { file := .vec, code := c, n := 1, write := true }


end Sys2Proof.Machine
end

