-- ==== Sys2Proof/Machine/Waits.lean ====
section
/-!
DEFINITION. Sys2Proof/Machine/Waits.lean: the conditions outside a path on which its instruction waits (12 R285), apart from its own
outstanding results: copies as they form and the coalescer (03 R57 to R61), batches, fences, barrier slots (13 R338), key tables (04
R90), the matrix engine (10 R257), banks (09 R211) and the recovery queue.
-/

namespace Sys2Proof.Machine

/-- The line operations of a core that no engine has accepted (03 R60). -/
def coalescerLoad (s : State) (core : Nat) : Nat :=
  s.ops.foldl (fun n e => if e.2.core != core then n else match e.2.kind with
    | .copy _ | .copyv _ => n + (e.2.lines.filter (· == .waiting)).length
    | _ => n) 0
/-- The slot a CREDIT hint names, when there is one (06 R140). -/
def Env.creditSlot (e : Env) : Option Nat := e.h.credit.map (·.toNat)
/-- A credit that raises 0x60 for the whole strand: an object destination, or a slot that is none (03 R70, 06 R151). -/
def Env.creditBad (e : Env) (object : Bool) : Bool := match e.creditSlot with
  | none => false
  | some c => object || decide (16 ≤ c) || decide (e.g.hdr.nbcore ≤ c)

/-- A thread's source and destination, when both pass (03 R57): where both fail, the thread reports the check that comes earlier in
01 R28's order, the source's on a tie (log 88, DESIGN CHOICE). -/
def pairUp (src : Reach (List Src × Option GenRef)) (dst : Reach (List Nat × Option GenRef)) :
    List (Item × List GenRef) × List (Nat × Nat × Failed) :=
  (src.zip dst).foldl (fun r p => match p.1.2.2, p.2.2.2 with
    | .ok x, .ok y => (r.1 ++ [({ t := p.1.1, addr := p.1.2.1, src := x.1, dst := y.1 }, x.2.toList ++ y.2.toList)], r.2)
    | .error f, .ok _ => (r.1, r.2 ++ [(p.1.1, p.1.2.1, f)])
    | .ok _, .error f => (r.1, r.2 ++ [(p.1.1, p.2.2.1, f)])
    | .error f, .error g => (r.1, r.2 ++ [if g.rank < f.rank then (p.1.1, p.2.2.1, g) else (p.1.1, p.1.2.1, f)])) ([], [])
def objSrc (rs : Reach Located) : Reach (List Src × Option GenRef) := rs.map fun r => (r.1, r.2.1, r.2.2.map fun l => (l.bytes, some l.gen))
def scrSrc (rs : Reach (List Nat)) : Reach (List Src × Option GenRef) := rs.map fun r => (r.1, r.2.1, r.2.2.map fun ks => (ks.map Src.mem, none))
def objDst (rs : Reach Located) : Reach (List Nat × Option GenRef) := rs.map fun r => (r.1, r.2.1, r.2.2.map fun l => (memKeys l.bytes, some l.gen))
def scrDst (rs : Reach (List Nat)) : Reach (List Nat × Option GenRef) := rs.map fun r => (r.1, r.2.1, r.2.2.map fun ks => (ks, none))

/-- A publish has swapped the object of some thread's destination and has not reached every die: new shadow translations are held
(01 R31 steps 3 to 7). -/
def Env.shadowHeld (e : Env) (s : State) (addr : Nat → Nat) : Bool :=
  e.ts.any fun t => s.pkg.pubs.any fun p => p.2.swapped && p.2.ctx == e.ctx && p.2.obj == bits (addr t) 40 24

/-- Bytes of CPY's size code: .b4, .b8, .b16 (07 R170). -/
def copySize (c : BitVec 2) : Nat := 4 * 2 ^ c.toNat
/-- A copy as it forms: each thread's source and destination, whether the destination is an object's, and the object address it names. -/
structure Move where
  src : Reach (List Src × Option GenRef)
  dst : Reach (List Nat × Option GenRef)
  object : Bool
  toward : Nat → Nat := fun _ => 0
  tile : Bool := false
/-- The line operations of a copy: the threads whose bytes share a source line and a destination line, or for CPYV a destination tile
(03 R59, R61); a move whose bytes a layout scatters belongs to the lines of its first bytes, and a source of padding to none (log 87, DEDUCED). The
items, their translations, the failing threads and the count. -/
def Move.lines (m : Move) : List Item × List GenRef × List (Nat × Nat × Failed) × Nat :=
  let (ps, fs) := pairUp m.src m.dst
  let (its, n) := numberLines (fun i => if m.tile then i.dst else ((memKeys i.src).take 1).map lineOf ++ (i.dst.take 1).map lineOf) (ps.map (·.1))
  (its, ((its.zip ps).map fun x => x.2.2.map (GenRef.forLine x.1.line)).flatten, fs, n)
/-- Scratchpad from object (07 R170): u the offset of version 1 (06 R148). -/
def Env.moveSG (e : Env) (s : State) (n : Nat) (d a : BitVec 7) (k u : Nat) : Move :=
  { src := objSrc (e.reach s .read n (e.objAddr k a (u * n))), dst := scrDst (e.reachScr n (e.scrAddr d e.off)), object := false }
/-- Object from scratchpad: the object's shadow (07 R170, 03 R57). -/
def Env.moveGS (e : Env) (s : State) (n : Nat) (d a : BitVec 7) (k u : Nat) : Move :=
  { src := scrSrc (e.reachScr n (e.scrAddr d e.off)), dst := objDst (e.reach s .shadow n (e.objAddr k a (u * n))), object := true
    toward := e.objAddr k a (u * n) }
/-- Scratchpad from scratchpad (07 R170). -/
def Env.moveSS (e : Env) (n : Nat) (d a : BitVec 7) : Move :=
  { src := scrSrc (e.reachScr n (e.scrAddr a 0)), dst := scrDst (e.reachScr n (e.scrAddr d 0)), object := false }
/-- Object from object: pair k + 1 names the destination (07 R170). -/
def Env.moveGG (e : Env) (s : State) (n : Nat) (d a : BitVec 7) (k : Nat) : Move :=
  { src := objSrc (e.reach s .read n (e.objAddr k a 0)), dst := objDst (e.reach s .shadow n (e.objAddr (k + 1) d 0)), object := true
    toward := e.objAddr (k + 1) d 0 }
/-- CPYV from an object (07 R171). -/
def Env.moveVG (e : Env) (s : State) (a : BitVec 7) (k : Nat) : Move :=
  { src := objSrc (e.reach s .read 128 (e.objAddr (k + 1) (e.third a) 0)), dst := objDst (e.reach s .tile 128 (e.objAddr k a e.off))
    object := true, toward := e.objAddr k a e.off, tile := true }
/-- CPYV from the scratchpad (07 R171). -/
def Env.moveVS (e : Env) (s : State) (a : BitVec 7) (k : Nat) : Move :=
  { src := scrSrc (e.reachScr 128 (e.scrAddr (e.third a) 0)), dst := objDst (e.reach s .tile 128 (e.objAddr k a e.off))
    object := true, toward := e.objAddr k a e.off, tile := true }
/-- The copy an instruction makes, if it is one. -/
def Env.move (e : Env) (s : State) : Option Move := match e.i with
  | .cpySFromG _ c d a k _ u => some (e.moveSG s (copySize c) d a k.toNat u.toNat)
  | .cpyGFromS _ c d a k _ u => some (e.moveGS s (copySize c) d a k.toNat u.toNat)
  | .cpySFromS _ c d a _ => some (e.moveSS (copySize c) d a)
  | .cpyGFromGB4 _ d a k _ => some (e.moveGG s 4 d a k.toNat)
  | .cpyGFromGB8 _ d a k _ => some (e.moveGG s 8 d a k.toNat)
  | .cpyGFromGB16 _ d a k _ => some (e.moveGG s 16 d a k.toNat)
  | .cpyvG _ _ a k _ => some (e.moveVG s a k.toNat)
  | .cpyvS _ _ a k _ => some (e.moveVS s a k.toNat)
  | _ => none
/-- A copy waits at issue: its object's shadow is held by a publish, or its line operations do not fit the coalescer (01 R31, 03 R60). -/
def Env.copyHeld (e : Env) (m : Move) (s : State) : Bool :=
  !e.creditBad m.object && ((m.object && e.shadowHeld s m.toward) || decide (64 < coalescerLoad s e.core + m.lines.2.2.2))

/-- The header's count of slots of a scope (06 R150). -/
def slotCount (h : Header) (scope : Nat) : Nat :=
  if scope = 1 then h.nbcore else if scope = 2 then h.nbquad else if scope = 3 then h.nbdie else if scope = 4 then h.nbpkg else h.nbpod
/-- The cause that a use of a slot raises, with its qualifier (13 R338, R340). -/
def Env.slotFault (e : Env) (s : State) (scope slot : Nat) : Option (Nat × Nat) :=
  if scope = 5 ∧ !s.wilmo then some (0x05, 0)
  else if e.st.divided then some (0x60, 0x18)
  else if slotCount e.g.hdr scope ≤ slot then some (0x60, 0)
  else if scope = 2 ∧ !e.g.hdr.team then some (0x60, 0)
  else if scope = 5 ∧ !(match s.ctx e.ctx with | some c => c.podmap.getLsbD slot | none => false) then some (0x60, 0)
  else none
def Env.barKey (e : Env) (scope slot : Nat) : Nat := Machine.barKey scope (barOwner e.g e.st.gang scope) slot
/-- The strand's target phase of a slot it may wait on has not completed (13 R339). -/
def Env.phaseHeld (e : Env) (s : State) (scope slot : Nat) : Bool :=
  let b := s.bar (e.barKey scope slot)
  (e.slotFault s scope slot).isNone && (match look e.st.targets (targetBit scope slot) with
    | some ph => decide (ph = b.phase) && !b.err
    | none => false)

/-- The handle's descriptor, where the handle is valid (04 R87). -/
def tableOf (g : Gang) (handle : Nat) : Option (Nat × KeyDesc) :=
  match look g.keys (handle % 8) with
  | some d => if bits handle 3 13 = 0 ∧ bits handle 16 16 = d.serial then some (handle % 8, d) else none
  | none => none

/-- Another instruction on the same table has not finished: its clearing, or its spill writes (04 R90). -/
def tableBusy (s : State) (gang desc : Nat) : Bool :=
  s.ops.any fun e => e.2.gang == gang && (match e.2.kind with
    | .key _ n _ _ => n == desc
    | .hclaim _ => e.2.items.any (·.t == desc)
    | _ => false)
/-- The table that uniform register 56 + h names is busy (07 R176, R177). -/
def Env.keyHeld (e : Env) (s : State) (h : BitVec 3) : Bool := match tableOf e.g (e.st.sreg (56 + h.toNat)).toNat with
  | some (n, _) => tableBusy s e.st.gang n
  | none => false

/-- An older access of the path to the spill object of that table has not taken place: the unit's own accesses to it follow (11 R271). -/
def Env.spillHeld (e : Env) (s : State) (h : BitVec 3) : Bool := match tableOf e.g (e.st.sreg (56 + h.toNat)).toNat with
  | some (_, d) => s.ops.any fun (_, o) => o.strand == e.k && (!e.st.divided || o.path == 2 || o.path == e.pi) &&
      (match o.kind with | .prefetch _ => false | _ => o.items.any fun i => bits i.addr 40 24 == bits d.spobj 40 24)
  | none => false

/-- The strand may name a tile (10 R246). -/
def Env.team (e : Env) : Bool := e.g.hdr.team && e.st.recov.isNone
/-- The operations the engine of a gang's core has accepted for a tile (10 R257). -/
def tileOps (s : State) (gang : Nat) (n : BitVec 3) : List Nat :=
  (s.ops.filter fun x => x.2.gang == gang && (match x.2.kind with
    | .mma t _ _ _ _ _ _ _ acc => acc && t == n.toNat
    | .mld t _ _ _ => t == n.toNat
    | _ => false)).map (·.1)
/-- The tile an MRD or an MZ names. -/
def tileOf : Instr → Option (BitVec 3)
  | .mrd _ _ n _ _ _ _ | .mz _ n _ => some n
  | _ => none
/-- What an MRD or an MZ that issues is to wait for: the operations of its tile that the core has accepted (10 R257). -/
def Env.toAwait (e : Env) (s : State) : Option (List Nat) := match (if e.team && e.p.awaits.isNone then tileOf e.i else none) with
  | some n => if (tileOps s e.st.gang n).isEmpty then none else some (tileOps s e.st.gang n)
  | none => none
/-- It has issued and waits for what it found then (10 R257). -/
def Env.engineHeld (e : Env) (s : State) : Bool := (e.p.awaits.getD []).any fun id => (s.op id).isSome

/-- Operations of the strand that a FENCE on this path waits for: its own, or those issued before the split (11 R278; log 80, DEDUCED).
The acquire side waits for loads and atomics alone (11 R272). -/
def Env.fenceHeld (e : Env) (s : State) (loadsOnly : Bool) : Bool :=
  s.ops.any fun (_, o) => o.strand == e.k && (!e.st.divided || o.path == 2 || o.path == e.pi) && o.acc == some 0 &&
    (!loadsOnly || (match o.kind with | .store _ => false | _ => true))

/-- The scratchpad displacement of an M-format word: off5, or off9 of version 1, in units of the size (06 R136, R148). -/
def Env.scrOff (e : Env) (o : BitVec 5) (u : BitVec 4) (n : Nat) : Int := e.off + (o.toNat + 32 * u.toNat) * n
/-- The scratchpad bytes that an instruction writes as it issues (07 R160, 09 R217, 10 R261, 13 R334). -/
def Env.scrWrites (e : Env) : List Nat :=
  let of (rs : Reach (List Nat)) : List Nat := rs.passed.flatMap (·.2.2)
  let at' (a n : Nat) : List Nat := match scratch e.g a n with | .ok ks => ks | .error _ => []
  match e.i with
  | .stS _ c _ a o _ u => of (e.reachScr (sizeOf c) (e.scrAddr a (e.scrOff o u (sizeOf c))))
  | .stSB128 _ _ a _ => of (e.reachScr 16 (e.scrAddr a e.off))
  | .lst _ a _ q _ => if q == 1 then [] else at' (e.st.sreg a.toNat).toNat 64
  | .pln _ _ u p _ c => rangeKeys e.g (e.st.sreg u.toNat).toNat (if c == 3 then 48 else 16 + 4 * (if p == 0 then 16 else p.toNat)) 16
  | .take _ _ a _ => at' (e.st.sreg a.toNat).toNat 64
  | _ => []
/-- The scratchpad bytes that the matrix engine reads for an instruction: its operands from no buffer, and A's blocks by the header found
there (10 R249, R258, R264). -/
def Env.scrReads (e : Env) (s : State) : List Nat :=
  let reg (n : Nat) : Nat := (e.st.sreg n).toNat
  match e.i with
  | .mma _ _ u ra rb p _ =>
      let planes := blockPlanes ((rangeKeys e.g (reg (2 * u.toNat)) 16 16).map (readByte s.mem))
      (if ra == 1 then [] else rangeKeys e.g (reg (2 * u.toNat)) (128 * (16 + 4 * planes)) 16) ++
        (if rb == 1 then [] else rangeKeys e.g (reg (2 * u.toNat + 1)) (128 * (16 + 4 * (if p == 0 then 16 else p.toNat))) 16)
  | .mmt _ _ u ra rb p _ =>
      (if ra == 1 then [] else rangeKeys e.g (reg (2 * u.toNat)) (256 * 48) 16) ++
        (if rb == 1 then [] else rangeKeys e.g (reg (2 * u.toNat + 1)) (256 * (16 + 4 * (if p == 0 then 16 else p.toNat))) 16)
  | .mld _ _ u g _ => rangeKeys e.g (reg u.toNat) (if g == 1 then 16384 else 4096) 128
  | _ => []
/-- An instruction that writes the scratchpad as it issues, or that the matrix engine reads it for, waits for older copies and MLDs of the
strand that have still to read its bytes (11 R271, R279; 10 R258; log 115, DESIGN CHOICE). -/
def Env.storeHeld (e : Env) (s : State) : Bool :=
  s.ops.any fun (_, o) => o.strand == e.k && (match o.kind with
    | .copy _ | .copyv _ => meets (e.scrWrites ++ e.scrReads s) o.unread
    | .mld .. => meets (e.scrReads s) o.unread
    | _ => false)

/-- The checks of PUB of scope c (07 R174): POD scope needs Wilmo links (00 R9). -/
def pubFault (s : State) (d ctx : Nat) (c : BitVec 3) (id : Nat) : Option (Nat × Nat) := if c == 5 && !s.wilmo then some (0x05, 0) else match record s d ctx id with
  | none => some (0x20, 0)
  | some r => match recordBad s d ctx r r.current with
    | some q => some (0x20, q)
    | none => if r.current.frz then some (0x22, 0x10) else if bits r.current.perm 3 1 = 0 then some (0x22, 0) else none
/-- The threads the instruction acts for are the strand's last (12 R297). -/
def Env.lastOut (e : Env) : Bool := ((e.st.remove e.act).settle e.pi).mode == .exiting

/-- Whether an instruction issues (12 R285, R286): it goes, it holds and its run ends, it stalls and its path keeps the lane, or it issues and
begins a wait before it acts (10 R257). -/
inductive Wait where
  | go
  | hold
  | stall
  | await
  deriving DecidableEq, Repr
def Wait.holdIf (b : Bool) : Wait := if b then .hold else .go
def Wait.stallIf (b : Bool) : Wait := if b then .stall else .go
/-- One that goes stalls where b holds. -/
def Wait.orStall (w : Wait) (b : Bool) : Wait := match w with
  | .go => .stallIf b
  | w => w

/-- An AOADD request that has not been applied (07 R166, R168; log 21, DEDUCED). -/
def Op.parked (o : Op) : Bool := match o.kind with | .aoadd _ _ _ _ st _ => st == 1 || st == 2 | _ => false
/-- Nothing of the strand is in flight but prefetches, for which nothing waits (03 R63). -/
def State.idle (s : State) (k : Nat) : Bool := s.ops.all fun x => x.2.strand != k || (match x.2.kind with | .prefetch _ => true | _ => false)
/-- Nothing of the strand is in flight but what a stop withdraws (14 R345) and prefetches, for which nothing waits (03 R63). -/
def State.drained (s : State) (k : Nat) : Bool :=
  s.ops.all fun x => x.2.strand != k || x.2.parked || (match x.2.kind with
    | .mma _ _ _ _ _ _ _ _ acc => !acc
    | .prefetch _ => true
    | _ => false)
/-- The waits of each instruction (12 R285; log 80, DEDUCED). One that is to raise a fault whatever it waits for raises it at once. -/
def waits (s : State) (e : Env) : Wait :=
  let st := e.st
  match e.i with
  | .seal _ p => .holdIf (decide (16 ≤ st.unfinished p.toNat))
  | .wait _ u p => .holdIf (decide ((st.sreg u.toNat).toNat < st.unfinished p.toNat))
  | .fence _ c kind => .holdIf (!(c == 5 && !s.wilmo) && ((kind != 0 && e.fenceHeld s false) || (kind != 1 && e.fenceHeld s true)))
  | .barWait _ sc t => .holdIf (e.phaseHeld s sc.toNat t.toNat)
  | .barArriveWait _ _ _ sc t => .holdIf (if e.p.half then e.phaseHeld s sc.toNat t.toNat
      else (e.slotFault s sc.toNat t.toNat).isNone && e.fenceHeld s false)
  | .barArrive _ _ _ sc t => .holdIf ((e.slotFault s sc.toNat t.toNat).isNone && e.fenceHeld s false)
  | .sjn _ => .holdIf (if st.recov.isSome then !s.idle e.k
      else decide (st.pending ≠ 0) || s.pkg.updates.any fun u => u.2.strand == e.k)
  | .give _ n => .holdIf (!st.divided && st.recov.isNone && decide (8 * n.toNat + 8 ≤ st.allot) &&
      s.ops.any fun (id, o) => o.strand == e.k && (o.vregs ++ if (s.outstanding id).isSome then o.named else []).any fun r => decide (st.allot - 8 * n.toNat ≤ r))
  | .claim .. => .holdIf ((s.core e.core).claims.any fun (_, c) => c.strand == e.k && c.path == e.pi)
  | .waitq .. => .holdIf (st.recov.isNone && !st.divided && e.g.sec.any fun h => h.returned && !domainQuiet s h.domain && !domainUnk s h.domain)
  | .mma .. | .mmt .. => (Wait.holdIf (s.ops.any fun (_, o) => o.strand == e.k && (o.path == 2 || o.path == e.pi) &&
      (match o.kind with | .mma _ _ _ _ _ _ _ _ acc => !acc | _ => false))).orStall (e.storeHeld s)
  | .rsm .. | .kill .. | .hx _ => .holdIf (!s.idle e.k)
  | .spwn .. => .holdIf (st.recov.isNone && e.fenceHeld s false)
  | .done _ _ c => .holdIf (st.recov.isNone && (e.fenceHeld s false ||
      (c == 0 && e.g.task.succ != 0 && !e.g.prim.returned && pinsFull s e.g.task 1)))
  | .pub _ _ c k _ => .holdIf ((pubFault s e.die e.ctx c (bits (st.upair (2 * k.toNat)) 40 24)).isNone && e.fenceHeld s false)
  | .exit _ => .holdIf (e.lastOut && (List.range 4).any fun a => decide (16 ≤ st.unfinished a))
  | .srg _ j _ => .holdIf (e.srgFull j s)
  | .stbl _ t _ _ | .tswp _ t _ => .holdIf (bankBusy s e.ctx false t.toNat)
  | .sld _ m _ _ | .ssw _ m _ => .holdIf (bankBusy s e.ctx true m.toNat)
  | .hins _ _ _ _ h | .hprb _ _ _ _ h | .hdel _ _ _ _ h | .haccAdd _ _ _ _ h | .haccMin _ _ _ _ h | .haccMax _ _ _ _ h
  | .haccOr _ _ _ _ h | .haccFadd _ _ _ _ h | .hdrn _ _ _ _ h | .hdrnDel _ _ _ _ h => .stallIf (e.keyHeld s h || e.spillHeld s h)
  | .hrel _ h => .stallIf (e.keyHeld s h)
  | .mrd .. | .mz .. => if (e.toAwait s).isSome then .await else .stallIf (e.engineHeld s)
  | .stS .. | .stSB128 .. | .lst .. | .pln .. | .take .. | .mld .. => .stallIf (e.storeHeld s)
  | _ => match e.move s with
    | some m => .holdIf (e.copyHeld m s)
    | none => .go

end Sys2Proof.Machine
end

