-- ==== Sys2Proof/Machine/Issue.lean ====
section
/-!
DEFINITION. Sys2Proof/Machine/Issue.lean: issuing one chain of a path: what stops it or holds it before it issues (the checks of 06
R146, the scoreboard and the lookahead of R137, guards, breakpoints, deferred faults, runs), and the hint words of a chain.
-/

namespace Sys2Proof.Machine

/-- An address breakpoint of the core matches a chain of the path (15 R376): the numbers of those that do. -/
def breakpoints (s : State) (e : Env) : List Nat :=
  if e.p.skipBp then [] else
  (List.range 8).filter fun n =>
    let b := (rd 0 (s.core e.core).ibp n).toNat
    bits b 63 1 == 1 && bits b 56 6 == e.ctx && bits b 32 24 == e.g.task.entry / 2 ^ 40 &&
      (List.range e.len).any fun j => decide ((e.chain.toNat + 4 * j) % 2 ^ 32 = bits b 2 30 * 4)

/-- The instruction as version 3 has it: bits [8:5] of a version-1 offset apart (06 R148). -/
def sansOffset : Instr → Instr
  | .ldG z s d a k l _ => .ldG z s d a k l 0
  | .ldGExt z s d a k l _ => .ldGExt z s d a k l 0
  | .ldS z s d a o l _ => .ldS z s d a o l 0
  | .ldSExt z s d a o l _ => .ldSExt z s d a o l 0
  | .stG z s d a k l _ => .stG z s d a k l 0
  | .stS z s d a o l _ => .stS z s d a o l 0
  | .cpySFromG z s d a k l _ => .cpySFromG z s d a k l 0
  | .cpyGFromS z s d a k l _ => .cpyGFromS z s d a k l 0
  | i => i

/-- Orders 1 to 10 of R146 on an instruction of a chain: the cause it raises, if any. -/
def decodeFault (e : Env) : Option Nat :=
  let i := if e.g.hdr.version = 1 then sansOffset e.i else e.i
  let fails : Nat → Bool := fun t => match e.h.guard with
    | some (n, p) => has e.p.act t && (e.st.pred p.toNat t == n)
    | none => false
  if !i.wf || !codesOk i e.h || !payloadOk i e.h then some 0x01
  else if !hintsOk i e.h then some 0x03
  else if guardClass i == .wholeStrand && (threads.any fails ||
      (match i with | .mma .. | .mmt .. => decide (e.p.act ≠ 0xFFFFFFFF) | _ => false)) then some 0x04
  else if beyondAllotment i e.h e.st.allot then some 0x08
  else match i with
    | .rsm .. | .kill .. | .hx .. => if e.st.mode == .handler then none else some 0x09
    | _ => none

/-- The predicate a GUARD hint reads (06 R141). -/
def Hints.guardUse (h : Hints) : List Use := match h.guard with | some (_, p) => [pr p.toNat] | none => []
/-- The registers a chain reads and writes: those of its instruction, SRG's by its region's descriptor (09 R228), and its guard's. -/
def Env.names (e : Env) (s : State) : List Use := uses e.i e.h ++ (match e.i with | .srg _ j _ => e.srgUses j s | _ => [])
/-- An outstanding instruction of the path writes a register of `us` (06 R137). -/
def dependsOn (s : State) (p : Path) (us : List Use) : Bool :=
  p.outs.any fun (id, _, _) => match s.outstanding id with
    | some o => us.any (·.depends o)
    | none => false
/-- The chain's guard depends on an operation in flight of its path: whether it issues is not known yet (06 R137, R141). -/
def guardHeld (s : State) (e : Env) : Bool := dependsOn s e.p e.h.guardUse
/-- The instruction depends on an operation in flight of its path (06 R137). -/
def dependHeld (s : State) (e : Env) : Bool :=
  !e.skips && (dependsOn s e.p (e.names s) || e.p.outs.any fun (id, _, _) => match s.outstanding id with
    | some o => (match o.kind with | .lmrg a => Nat.land (accNamed e.i) (a + 1) != 0 | _ => false)
    | none => false)

/-- A register the faulting instruction was to write. -/
def Deferred.wrote (d : Deferred) (u : Use) : Bool := !u.write && (match u.file with
  | .vec => if u.code < 112 then d.vregs.any (fun r => overlaps u.code u.n r 1) else d.sregs.any (fun r => overlaps (u.code - 112) u.n r 1)
  | .uni => d.sregs.any (fun r => overlaps u.code u.n r 1)
  | .pred => d.preds.contains u.code)
/-- A fault found after issue stops the strand before this instruction (03 R67, 07 R159): a WAIT that its batch satisfies, a
barrier wait at CORE scope or wider, EXIT, or a read of a register it was to write, by the guard or by an instruction that is not
skipped (06 R141; log 55, DEDUCED). -/
def deferredStop (s : State) (e : Env) : Option Deferred :=
  let st := e.st
  st.deferred.find? fun d =>
    (!st.divided || d.path == 2 || d.path == e.pi) &&
    (e.h.guardUse.any d.wrote || (!e.skips &&
      ((match e.i with
        | .wait _ u p => d.acc == some p.toNat && (match d.batch with
            | some b => decide ((st.sreg u.toNat).toNat ≤ (rd 0 st.sealedB p.toNat - b).toNat)
            | none => false)
        | .barWait .. | .barArriveWait .. | .exit .. => true
        | .sjn _ => st.recov.isSome
        | _ => false) || Nat.land (accRead e.i) d.accs != 0 || (e.names s).any d.wrote)))

/-- What comes before a chain is decoded: the run's forced boundary ends the run (12 R284), an exhausted lookahead or a watched
access holds the chain (06 R137, 15 R378), a breakpoint stops the path (15 R376). -/
def Env.gate (e : Env) (r : Run) (s : State) : Option State :=
  let bps := breakpoints s e
  if runLimit e.g.hdr.version < r.words + e.len then some ((s.countEvent e.core 0).endRun e.k e.pi)
  else if lookaheadHeld s e.p e.len then some (e.stall s)
  else if !bps.isEmpty then
    some ((s.onCore e.core fun c => { c with dbgstat := c.dbgstat ||| BitVec.ofNat 64 (bps.foldl (fun m n => m + 2 ^ n) 0) }).faultPath
      e.k e.pi { cause := 0xB0, pc := e.chain } e.chain)
  else none

/-- What becomes of a chain that comes to issue. -/
inductive Verdict where
  /-- the scoreboard holds it: the path keeps its lane (12 R286) -/
  | stall
  /-- a fault found after issue stops the path before it -/
  | stopped (d : Deferred)
  /-- it raises a cause of 06 R146 -/
  | fault (cause : Nat)
  /-- its guard skips it -/
  | skip
  /-- it waits, and the run ends before it (12 R285) -/
  | hold
  /-- it issues, and waits before it acts (10 R257) -/
  | await
  | run
  deriving DecidableEq, Repr
def verdict (s : State) (e : Env) : Verdict :=
  if guardHeld s e then .stall
  else match deferredStop s e with
    | some d => .stopped d
    | none => match decodeFault e with
      | some cause => .fault cause
      | none =>
        if dependHeld s e then .stall
        else if e.skips then .skip
        else match waits s e with
          | .hold => .hold
          | .stall => .stall
          | .await => .await
          | .go => .run

/-- The path's run takes the banks of tables and models as its first word issues (09 R211, R220). -/
def Path.begun (p : Path) (c : Core) (ctx : Nat) : Path :=
  { p with run := p.run.map fun r => if r.words = 0 then { r with tables := rd 0 c.tbits ctx, models := rd 0 c.mbits ctx } else r }
/-- The path whose lane issues, and its run, as it issues i: none where no lane has chosen a path with a run. -/
def envOf (i : Instr) (s : State) : Option (Env × Run) :=
  match s.cur with
  | none => none
  | some (k, pi) => match s.strand k with
    | none => none
    | some st => match s.gang st.gang with
      | none => none
      | some g =>
        let p := (st.path pi).begun (s.core (coreOf k)) g.task.ctx
        p.run.map fun r => (envAt k pi i (st.setPath pi p) g, r)

/-- An MRD or an MZ issues while its tile is busy: it notes what it waits for, and an MRD counts an early read (10 R257, 15 R379). Its path
keeps its lane (log 108, DEDUCED). -/
def Env.await (e : Env) (s : State) : State :=
  let s1 := e.stall (s.onPath e.k e.pi fun p => { p with awaits := e.toAwait s })
  match e.i with
  | .mrd .. => s1.countEvent e.core 2
  | _ => s1

/-- Issue one instruction word with the chain before it, on the current path. -/
def issue (i : Instr) (s0 : State) (body : Env → State → State) : Host.Outcome State Fault Refusal :=
  match envOf i s0 with
  | none => .refused .noPath
  | some (e, r) =>
    let s := s0.setStrand e.k e.st
    .next (match e.gate r s with
      | some s' => s'
      | none => match verdict s e with
        | .stall => e.stall s
        | .stopped d => (s.setStrand e.k { e.st with deferred := e.st.deferred.filter (· != d) }).faultPath e.k e.pi d.fault e.chain
        | .fault cause => e.raise (e.payIdle false s) cause
        | .skip => e.next (e.payIdle true s)
        | .hold => e.hold s
        | .await => e.await s
        | .run => body e (e.pay s))

/-- Issue one hint word: it joins the path's chain (06 R139, R140, R142). -/
def issueHint (i : Instr) (s : State) (twice : Hints → Bool) (add : Hints → Hints) : Host.Outcome State Fault Refusal :=
  match envOf i s with
  | none => .refused .noPath
  | some (e, r) =>
    if i.wf && !twice e.h then
      .next (s.onPath e.k e.pi fun p => { p with pc := p.pc + 4, hints := add p.hints, chainPc := e.chain, chainLen := p.chainLen + 1 })
    else .next ((e.gate r s).getD (e.raise (s.charge e.core e.ctx 2 e.len) (if i.wf then 0x03 else 0x01)))

/-- What a hint word adds to a chain (06 R140). -/
def addHint (h : Hints) : Instr → Option Hints
  | .hintWide w => some { h with wide := some w }
  | .hintMod e c n m a s r q => some { h with mod := some { rm := q, rmen := r == 1, sat := s == 1, nega := a == 1, negb := m == 1, negc := n == 1, cache := c, d64 := e == 1 } }
  | .hintThird t => some { h with third := some t }
  | .hintGuard n p => some { h with guard := some (n == 1, p) }
  | .hintRtag r => some { h with rtag := some r }
  | .hintTtag t => some { h with ttag := some t }
  | .hintCredit c => some { h with credit := some c }
  | _ => none

end Sys2Proof.Machine
end

