-- ==== Sys2Proof/Machine/Atomics.lean ====
section
/-!
DEFINITION. Sys2Proof/Machine/Atomics.lean: ATOM, RED and AOADD as they issue (07 R163 to R168), and what one element does at its
slice (07 R164).
-/

namespace Sys2Proof.Machine

/-- The bytes of an atomic's element (07 R163): 8 for add, exch and cas on 64 bits, 16 for the grid form. -/
def atomBytes (o : Nat) : Nat := if o = 1 ∨ o = 10 ∨ o = 12 then 8 else if o = 14 then 16 else 4
/-- The new contents of an element (07 R164), by operation code (06 R144). `w` is the window of the grid form, `rm` its
rounding; FZ32 does not flush the operand of a grid form (log 39, DEDUCED). -/
def atomNew (o : Nat) (w : Int) (rm : Nat) (old v c : Nat) : Nat :=
  if o = 0 then (old + v) % 2 ^ 32
  else if o = 1 then (old + v) % 2 ^ 64
  else if o = 2 then (if signed 32 v < signed 32 old then v else old)
  else if o = 3 then (if signed 32 old < signed 32 v then v else old)
  else if o = 4 then min old v
  else if o = 5 then max old v
  else if o = 6 then Nat.land old v
  else if o = 7 then Nat.lor old v
  else if o = 8 then Nat.xor old v
  else if o = 9 ∨ o = 10 then v
  else if o = 11 ∨ o = 12 then (if old = c then v else old)
  else if o = 13 then plainFadd old v
  else
    let (g, ovf, nf) := toGrid rm (fp32.value v) w 126
    gridAdd old (gridWord g ovf nf)

/-- The window of a grid atomic: WIDE [8:0], signed (07 R158, R163). -/
def Env.window (e : Env) : Int := match e.h.wide with
  | some w => signed 9 (w.toNat % 512)
  | none => 0
/-- The operand and comparand of thread t (07 R163). -/
def Env.atomOperand (e : Env) (o : Nat) (d : BitVec 7) (t : Nat) : Nat × Nat :=
  let n := if o = 1 ∨ o = 10 then 2 else 1
  if o = 11 then (e.st.srcN (d.toNat + 1) 1 t, e.st.srcN d.toNat 1 t)
  else if o = 12 then (e.st.srcN (d.toNat + 2) 2 t, e.st.srcN d.toNat 2 t)
  else (e.st.srcN (e.third d).toNat n t, 0)
/-- ATOM and RED (07 R163): the elements of one line of memory share a line operation (02 R47), and the core's copies of the
lines are removed at issue (04 R74). -/
def Env.atomic (e : Env) (o : Nat) (d a : BitVec 7) (k : Nat) (ret : Bool) (s : State) : State :=
  let grid := o == 14
  let rs := e.reach s .atomic (atomBytes o) (e.objAddr k a (if grid then 0 else e.off))
  let ps := rs.passed
  let its := ps.map fun p =>
    let v := e.atomOperand o d p.1
    let ks := memKeys p.2.2.bytes
    ({ t := p.1, addr := p.2.1, src := p.2.2.bytes, dst := ks, val := v.1, cmp := v.2, rol := p.2.2.rol } : Item)
  let (its', n) := numberLines (fun i => (i.dst.take 1).map lineOf) its (128 / atomBytes o)
  let ls := dedup (its.flatMap Item.lines)
  let s1 := if its.isEmpty then s else s.invalidate e.core ls.contains false
  let dst := keysFrom d.toNat (if grid then 4 else atomBytes o / 4)
  e.nextFailed (e.launchOp { kind := .atomic o ret d.toNat (if grid then e.window else 0) e.rm, acc := some 0, items := its'
                             lines := List.replicate n .waiting, gens := gensOf ps, vregs := if ret then dst else []
                             outstanding := ret } s1) rs.failed
/-- ATOM (07 R163). -/
def execAtom (z : BitVec 1) (o : BitVec 4) (d a : BitVec 7) (k : BitVec 2) (l : BitVec 4) (s : State) : Answer :=
  issue (.atom z o d a k l) s fun e => e.atomic o.toNat d a k.toNat true
/-- RED (07 R163). -/
def execRed (z : BitVec 1) (o : BitVec 4) (d a : BitVec 7) (k : BitVec 2) (l : BitVec 4) (s : State) : Answer :=
  issue (.red z o d a k l) s fun e => e.atomic o.toNat d a k.toNat false

/-- The exclusive prefix of the values of the threads below t (07 R166). -/
def prefixBelow (ts : List Nat) (v : Nat → Nat) (t : Nat) : Nat := (ts.filter (· < t)).foldl (fun r u => r + v u) 0
/-- A strand's rank (07 R166). -/
def Env.rank (e : Env) : Word := BitVec.ofNat 32 (e.g.index * e.g.hdr.nstr + e.st.index)
/-- AOADD (07 R165, R166, R168): one request for the strand, whatever its guard. -/
def Env.aoadd (e : Env) (wide : Bool) (d a : BitVec 7) (s : State) : State :=
  if e.st.divided then e.raise s 0x60 0x17
  else if e.st.recov.isSome then e.raise s 0x60
  else
    let addr := e.pairAddr a e.off 0
    match translate s e.die e.ctx addr 16 .atomic with
    | .error f => e.raise s f.cause f.qual addr
    | .ok l =>
      let n := if wide then 2 else 1
      let v := e.st.srcN d.toNat n
      let sum := e.ts.foldl (fun r t => r + v t) 0 % 2 ^ (32 * n)
      let ks := memKeys l.bytes
      let cell : Item := { t := lowest e.act, addr, src := l.bytes, dst := ks }
      let parts := e.ts.map fun t => ({ t, addr, val := prefixBelow e.ts v t % 2 ^ (32 * n) } : Item)
      let s1 := s.invalidate e.core (ks.map lineOf).contains false
      e.next (e.launchOp { kind := .aoadd wide d.toNat e.rank sum 0 0, acc := some 0, items := cell :: parts, gens := [l.gen]
                           lines := [.waiting], vregs := if e.act = 0 then [] else keysFrom d.toNat n } s1)
/-- AOADD.b32 (07 R165). -/
def execAoaddB32 (z : BitVec 1) (d a : BitVec 7) (l : BitVec 4) (s : State) : Answer :=
  issue (.aoaddB32 z d a l) s fun e => e.aoadd false d a
/-- AOADD.b64 (07 R165). -/
def execAoaddB64 (z : BitVec 1) (d a : BitVec 7) (l : BitVec 4) (s : State) : Answer :=
  issue (.aoaddB64 z d a l) s fun e => e.aoadd true d a

end Sys2Proof.Machine
end

