-- ==== Sys2Proof/Machine/Barriers.lean ====
section
/-!
DEFINITION. Sys2Proof/Machine/Barriers.lean: barrier slots (13 R338 to R342), pending bytes (03 R69, R70) and FENCE (11 R277,
R278).
-/

namespace Sys2Proof.Machine

/-- Complete a phase when every arrival is in and, at CORE scope, no byte is pending (13 R339). A slot that no arrival has ever
given an expected count completes nothing (log 14, DEDUCED). -/
def BarSlot.test (b : BarSlot) (scope : Nat) : BarSlot :=
  if b.exp ≠ 0 ∧ b.arr = b.exp ∧ (scope ≠ 1 ∨ b.pend = 0) then { b with phase := b.phase + 1, arr := 0 } else b
/-- A pending-byte count leaves its range: the slot enters its error state (03 R70; log 14, DEDUCED). -/
def BarSlot.addPend (b : BarSlot) (v : Int) : BarSlot :=
  let n := b.pend + v
  if n < -(2 ^ 31 : Nat) ∨ ((2 ^ 31 : Nat) : Int) ≤ n then { b with err := true } else ({ b with pend := n } : BarSlot).test 1
/-- Credit bytes that have landed to a CORE slot of a gang (03 R69). -/
def State.credit (s : State) (gang slot bytes : Nat) : State :=
  let k := barKey 1 gang slot
  s.setBar k ((s.bar k).addPend (-(bytes : Int)))

/-- The greatest expected count of a scope (13 R338). -/
def countLimit (scope : Nat) : Nat := if scope = 1 then 32 else if scope = 2 then 128 else 2 ^ 24
/-- The expected count an arrival names (13 R338, R340). -/
def Env.expected (e : Env) (n : BitVec 7) (d : BitVec 1) (scope : Nat) : Nat :=
  if d == 1 then (if scope = 1 then e.g.hdr.nstr else 4 * e.g.hdr.nstr) else (e.st.sreg n.toNat).toNat

/-- The arrival of 13 R339 on a slot: its new contents, or the cause it raises. -/
def BarSlot.arrive (b : BarSlot) (scope n : Nat) : Except (Nat × Nat) BarSlot :=
  if n < 1 ∨ countLimit scope < n then .error (0x60, 0)
  else if b.err then .error (0x60, 0)
  else if 0 < b.arr ∧ n ≠ b.exp then .error (0x60, 0x19)
  else if 0 < b.arr ∧ b.arr = b.exp then .error (0x60, 0x1A)
  else .ok (({ b with exp := n, arr := b.arr + 1 } : BarSlot).test scope)
/-- Arrive at a slot, and take the phase it had as the strand's target: what the arrival does. -/
def Env.arrive (e : Env) (n : BitVec 7) (d : BitVec 1) (scope slot : Nat) (s : State) : Except (Nat × Nat) (State → State) :=
  match e.slotFault s scope slot with
  | some f => .error f
  | none =>
    let b := s.bar (e.barKey scope slot)
    match b.arrive scope (e.expected n d scope) with
    | .error f => .error f
    | .ok b' => .ok fun s => (s.setBar (e.barKey scope slot) b').onStrand e.k fun st =>
        { st with targets := upd st.targets (targetBit scope slot) (some b.phase) }
/-- Wait on a slot (13 R339): hold until the target phase completes, then acquire. `unpaid` is s without the chain's charge, which is
made as the wait ends (14 R364). -/
def Env.waitPhase (e : Env) (scope slot : Nat) (unpaid s : State) : State :=
  match e.slotFault s scope slot with
  | some f => e.raise s f.1 f.2
  | none =>
    let b := s.bar (e.barKey scope slot)
    let bit := targetBit scope slot
    if b.err then e.raise s 0x60
    else
      let tgt := match s.strand e.k with
        | some st => (look st.targets bit).getD b.phase
        | none => b.phase
      if b.phase = tgt then
        e.hold (unpaid.onStrand e.k fun st => { st with targets := upd st.targets bit (some tgt) })
      else
        let s1 := s.onStrand e.k fun st => { st with targets := upd st.targets bit none }
        e.next (if 2 ≤ scope then s1.acquire e.core else s1)

/-- BAR.arrive (13 R339, R340). -/
def execBarArrive (z : BitVec 1) (n : BitVec 7) (d : BitVec 1) (c : BitVec 3) (t : BitVec 6) (s : State) : Answer :=
  issue (.barArrive z n d c t) s fun e s => match e.arrive n d c.toNat t.toNat s with
    | .error f => e.raise s f.1 f.2
    | .ok f => e.next (f s)
/-- BAR.wait (13 R339, R340). -/
def execBarWait (z : BitVec 1) (c : BitVec 3) (t : BitVec 6) (s : State) : Answer :=
  issue (.barWait z c t) s fun e => e.waitPhase c.toNat t.toNat s
/-- BAR.arrive-wait (13 R339, R340): it arrives once, however often its wait is withdrawn (13 R342). -/
def execBarArriveWait (z : BitVec 1) (n : BitVec 7) (d : BitVec 1) (c : BitVec 3) (t : BitVec 6) (s : State) : Answer :=
  issue (.barArriveWait z n d c t) s fun e s1 =>
    if e.p.half then e.waitPhase c.toNat t.toNat s s1
    else match e.arrive n d c.toNat t.toNat s1 with
      | .error f => e.raise s1 f.1 f.2
      | .ok f =>
        let go (s : State) : State := (f s).onPath e.k e.pi fun p => { p with half := true }
        e.waitPhase c.toNat t.toNat (go s) (go s1)
/-- BART (13 R341). -/
def execBart (z : BitVec 1) (v : BitVec 7) (i : BitVec 1) (c : BitVec 5) (s : State) : Answer :=
  issue (.bart z v i c) s fun e s =>
    let slot := c.toNat
    if 16 ≤ slot ∨ e.g.hdr.nbcore ≤ slot then e.raise s 0x60
    else
      let k := Machine.barKey 1 e.st.gang slot
      let b := s.bar k
      let x := (e.st.sreg v.toNat).toInt
      e.next (s.setBar k (if i == 1 then ({ b with pend := x, arr := 0, err := false } : BarSlot).test 1 else b.addPend x))
/-- FENCE (11 R277, R278): its waits are those of `waits`. -/
def execFence (z : BitVec 1) (c : BitVec 3) (q : BitVec 2) (s : State) : Answer :=
  issue (.fence z c q) s fun e s =>
    if c.toNat = 5 ∧ !s.wilmo then e.raise s 0x05
    else e.next (if q != 1 && decide (2 ≤ c.toNat) then s.acquire e.core else s)

end Sys2Proof.Machine
end

