-- ==== Sys2Proof/Machine/Batches.lean ====
section
/-!
DEFINITION. Sys2Proof/Machine/Batches.lean: SEAL, WAIT and PUB (07 R173, R174; 03 R64 to R66), the tag table (04 R84, 07 R175) and
LDSUM as it issues (07 R169, 02 R51, R53).
-/

namespace Sys2Proof.Machine

/-- SEAL (07 R173, 03 R64): the whole open set becomes the next batch. -/
def execSeal (z : BitVec 1) (p : BitVec 2) (s : State) : Answer :=
  issue (.seal z p) s fun e s => e.next (s.seal e.k p.toNat)
/-- WAIT (07 R173, 03 R65): its wait is that of `waits`. -/
def execWait (z : BitVec 1) (u : BitVec 7) (p : BitVec 2) (s : State) : Answer := issue (.wait z u p) s fun e => e.next

/-- PUB (07 R174): its release is that of `waits`; the request goes to the home unit (01 R31). -/
def execPub (z : BitVec 1) (d : BitVec 7) (c : BitVec 3) (k : BitVec 2) (l : BitVec 4) (s : State) : Answer :=
  issue (.pub z d c k l) s fun e s =>
    let id := bits (e.st.upair (2 * k.toNat)) 40 24
    match pubFault s e.die e.ctx c id with
    | some f => e.raise s f.1 f.2 (id * 2 ^ 40)
    | none =>
      let (op, s1) := e.start { kind := .pub d.toNat id, sregs := [d.toNat] } s
      let (n, s2) := s1.fresh
      e.next (s2.setPkg { s2.pkg with pubs := upd s2.pkg.pubs n (some { ctx := e.ctx, obj := id, op := some op }) })

/-- The set of an object address (04 R84). -/
def tagSet (code a : Nat) : Nat := Nat.xor (bits a 8 32) (bits a 40 24) % tagSets code
/-- The slot that holds the line of an address: the lowest matching way (04 R84). -/
def tagLook (tags : Tab Dword) (code a : Nat) : Option Nat :=
  if tagEntries code = 0 then none
  else ((List.range 4).map fun w => tagSet code a * 4 + w).find? fun i => (rd 0 tags i).toNat == a / 256 * 256 + 1
/-- TLOOK (07 R175, 04 R84). -/
def execTlook (z : BitVec 1) (d a : BitVec 7) (s : State) : Answer :=
  issue (.tlook z d a) s fun e s => e.next (e.put 0 d 1 (fun t =>
    (tagLook (s.core e.core).tags e.g.hdr.carve (e.pairAddr a 0 t)).getD 0xFFFFFFFF) s)
/-- TSET (07 R175, 04 R84). -/
def execTset (z : BitVec 1) (a b : BitVec 7) (s : State) : Answer :=
  issue (.tset z a b) s fun e s =>
    let code := e.g.hdr.carve
    let slot (t : Nat) : Nat := (e.st.src b.toNat t).toNat
    let addr := e.pairAddr a 0
    let bad (t : Nat) : Bool := decide (tagEntries code ≤ slot t) || slot t / 4 != tagSet code (addr t)
    let good := e.ts.filter fun t => !bad t
    let put (g : Tab Dword) (t : Nat) : Tab Dword := wr 0 g (slot t) (BitVec.ofNat 64 (addr t / 256 * 256 + 1))
    let s1 := s.onCore e.core fun c => { c with tags := good.foldl put c.tags }
    e.nextFailed s1 ((e.ts.filter bad).map fun t => (t, 0, ⟨0, 0x83, 0⟩))
/-- TINV (07 R175, 04 R84). -/
def execTinv (z : BitVec 1) (b : BitVec 7) (s : State) : Answer :=
  issue (.tinv z b) s fun e s =>
    let slot (t : Nat) : Nat := (e.st.src b.toNat t).toNat
    let bad (t : Nat) : Bool := decide (tagEntries e.g.hdr.carve ≤ slot t)
    let good := e.ts.filter fun t => !bad t
    let clear (g : Tab Dword) (t : Nat) : Tab Dword := wr 0 g (slot t) (rd 0 g (slot t) &&& ~~~1#64)
    let s1 := s.onCore e.core fun c => { c with tags := good.foldl clear c.tags }
    e.nextFailed s1 ((e.ts.filter bad).map fun t => (t, 0, ⟨0, 0x83, 0⟩))

/-- A replica set descriptor (02 R51). -/
structure ReplicaSet where
  first : Nat
  count : Nat
  stride : Nat
  deriving DecidableEq, Repr

/-- This package's id (02 R55). -/
def State.pkgId (s : State) : Nat := bits s.win.rpctl.toNat 16 10
/-- The package of rank k. -/
def ReplicaSet.member (r : ReplicaSet) (k : Nat) : Nat := (r.first + k * r.stride) % 1024
/-- The rank of this package. -/
def ReplicaSet.rank (r : ReplicaSet) (s : State) : Option Nat := (List.range r.count).find? fun k => r.member k == s.pkgId
/-- The descriptor of a replica set, where it is usable (02 R51, R55; log 120, DESIGN CHOICE). -/
def replicaSet (s : State) (rset : Nat) : Option ReplicaSet :=
  let at' := s.win.rstoff.toNat % 2 ^ 32 + 16 * rset
  let f (o n : Nat) : Nat := bits (s.onyxNat 0 (at' + o) 4) n 16
  let r : ReplicaSet := { first := f 0 16 % 1024, count := f 4 0 % 2048, stride := f 4 16 % 1024 }
  if bits s.win.rstoff.toNat 32 16 ≤ rset ∨ f 0 0 % 2 = 0 ∨ r.count = 0 ∨ 1024 < r.count ∨
      1024 / Nat.gcd r.stride 1024 < r.count ∨ (r.rank s).isNone then none
  else some r

/-- LDSUM (07 R169, 02 R53 step 1; log 38, DEDUCED). -/
def Env.ldsum (e : Env) (f n : Nat) (d a : BitVec 7) (q : BitVec 2) (s : State) : State :=
  if !s.wilmo then e.raise s 0x05
  else
    let rs := e.reach s .read n (e.pairAddr a e.off)
    let ps := rs.passed
    let rec? (addr : Nat) : Option ObjRec := record s e.die e.ctx (bits addr 40 24)
    let ok (addr : Nat) : Bool := match rec? addr with
      | some r => r.repl && (replicaSet s r.rset).isSome
      | none => false
    if ps.any fun p => !ok p.2.1 then e.nextFailed s (rs.failed ++ ps.map fun p => (p.1, p.2.1, ⟨9, 0x26, 0⟩))
    else
      let addr := (ps.map (·.2.1)).headD 0
      let rset := match rec? addr with | some r => r.rset | none => 0
      e.nextFailed (e.launchOp { kind := .ldsum f d.toNat (4 + q.toNat) none rset (bits addr 40 24) none, acc := some 0
                                 items := readItems ps, gens := gensOf ps, lines := [.waiting]
                                 vregs := keysFrom d.toNat (n / 4), preds := [4 + q.toNat] } s) rs.failed
/-- LDSUM.b32 (07 R169). -/
def execLdsumB32 (z : BitVec 1) (d a : BitVec 7) (q : BitVec 2) (l : BitVec 4) (s : State) : Answer :=
  issue (.ldsumB32 z d a q l) s fun e => e.ldsum 0 4 d a q
/-- LDSUM.b64 (07 R169). -/
def execLdsumB64 (z : BitVec 1) (d a : BitVec 7) (q : BitVec 2) (l : BitVec 4) (s : State) : Answer :=
  issue (.ldsumB64 z d a q l) s fun e => e.ldsum 1 8 d a q
/-- LDSUM.g (07 R169). -/
def execLdsumG (z : BitVec 1) (d a : BitVec 7) (q : BitVec 2) (l : BitVec 4) (s : State) : Answer :=
  issue (.ldsumG z d a q l) s fun e => e.ldsum 2 16 d a q
/-- LDSUM.f32 (07 R169). -/
def execLdsumF32 (z : BitVec 1) (d a : BitVec 7) (q : BitVec 2) (l : BitVec 4) (s : State) : Answer :=
  issue (.ldsumF32 z d a q l) s fun e => e.ldsum 3 4 d a q

end Sys2Proof.Machine
end

