-- ==== Sys2Proof/Machine/Fetch.lean ====
section
/-!
DEFINITION. Sys2Proof/Machine/Fetch.lean: reading ahead over a chain for lane arbitration (12 R289), the readiness and the age of
paths (12 R286 to R290), and fetching the word at a path's PC (06 R147).
-/

namespace Sys2Proof.Machine

/-- The instruction at the end of the chain at an offset, none where a word cannot be fetched, is no instruction, or the chain has no
end in eight words; and the path as it stands at that word. -/
def peek (s : State) (core : Nat) (g : Gang) : Nat → Path → Option Instr × Path
  | 0, p => (none, p)
  | n + 1, p =>
    match fetchWord s core g p.pc with
    | .error _ => (none, p)
    | .ok w => match decode g.hdr.version w with
      | .error _ => (none, p)
      | .ok i => match addHint p.hints i with
        | none => (some i, p)
        | some h => peek s core g n { p with pc := p.pc + 4, hints := h, chainPc := if p.chainLen = 0 then p.pc else p.chainPc, chainLen := p.chainLen + 1 }
/-- A path as it comes to issue its next chain; a chain that will fault before it is decoded stands as a NOP. -/
def comingTo (s : State) (k pi : Nat) (st : Strand) (g : Gang) : Env × Bool :=
  let (i?, p) := peek s (coreOf k) g 8 (st.path pi)
  (envAt k pi (i?.getD (.nop 0)) (st.setPath pi (p.begun (s.core (coreOf k)) g.task.ctx)) g, i?.isSome)
/-- The chain would go past the run's forced boundary, which ends the run before it whatever holds it (12 R284). -/
def Env.straddles (e : Env) : Bool := e.p.run.any fun r => decide (runLimit e.g.hdr.version < r.words + e.len)
/-- The scoreboard or the lookahead holds the path's next chain (12 R286), or it is an MRD or an MZ that waits (10 R257). -/
def stalled (s : State) (e : Env) (whole : Bool) : Bool :=
  !e.straddles && (lookaheadHeld s e.p e.len || (whole && (breakpoints s e).isEmpty && verdict s e == .stall))
/-- Nothing holds a chain that comes to issue (12 R289): one that will fault, stop the path or end the run is free. -/
def unheld (s : State) (e : Env) (whole : Bool) : Bool :=
  e.straddles || (!stalled s e whole && (!whole || !(breakpoints s e).isEmpty || verdict s e != .hold))
/-- The path's next chain can issue (12 R289). -/
def canIssue (s : State) (k pi : Nat) (st : Strand) (g : Gang) : Bool := let (e, whole) := comingTo s k pi st g; unheld s e whole

/-- The path has issued its chain of a step (15 R373). -/
def Strand.stepped (st : Strand) (pi : Nat) : Bool := match st.stepping with
  | some (a, b) => if pi = 0 then a else b
  | none => false

/-- A path may still issue its chain of a step (15 R373). -/
def Strand.able (st : Strand) (pi : Nat) : Bool :=
  let p := st.path pi
  (pi == 0 || st.divided) && p.act != 0 && !p.ended && !p.arrived && p.fault.isNone
/-- A strand that steps has issued its chain on each path that can issue one (15 R373). -/
def Strand.stepDone (st : Strand) : Bool := st.stepping.isSome && (!st.able 0 || st.stepped 0) && (!st.able 1 || st.stepped 1)

/-- The power manager gates the issue of a core's quad in the current die cycle: of each 1,024 cycles the share G, in rotation (16 R396;
log 79, DESIGN CHOICE). -/
def State.gatedNow (s : State) (core : Nat) : Bool :=
  decide (0 < s.pkg.gated) && decide (s.pkg.gated * (dieCycle (coreDie core) s.now + Config.gateOffset (quadOf core)) % 1024 < s.pkg.gated)

/-- A path is placed and free to go, whatever its next word: it has a live thread, its gang is placed and not marked for swap, it is stopped
by nothing, it is not waiting at a rejoin, and its quad is not gated (12 R289). -/
def unblockedPath (s : State) (k pi : Nat) (st : Strand) (g : Gang) : Bool :=
  let p := st.path pi
  (st.mode == .running || (st.mode == .handler && st.path0.fault.isNone && st.path1.fault.isNone)) && (pi == 0 || st.divided) && decide (p.act ≠ 0) && p.fault.isNone &&
    !p.arrived && !p.ended && (g.resident || st.recov.isSome) && (!g.swap || st.recov.isSome || st.mode == .handler) && !st.stepped pi &&
    !s.gatedNow (coreOf k)
/-- A path may be chosen: it is free to go, and it has no run (12 R289, R290). -/
def eligible (s : State) (k pi : Nat) (st : Strand) (g : Gang) : Bool := unblockedPath s k pi st g && (st.path pi).run.isNone
/-- It may be chosen and its next chain can issue (12 R289). -/
def ready (s : State) (k pi : Nat) : Bool :=
  match s.strand k with
  | none => false
  | some st => match s.gang st.gang with
    | none => false
    | some g => eligible s k pi st g && canIssue s k pi st g

/-- What a die cycle does to a path, as it begins: it becomes ready and takes its age (12 R290; log 82, DEDUCED), a run it has being no
condition of R289, and its held chain grows older in its run (12 R286). -/
def Path.aged (s : State) (k pi : Nat) (st : Strand) (g : Gang) : Path :=
  let p := st.path pi
  let may := unblockedPath s k pi st g
  if p.run.isNone && !may then { p with isReady := false, heldFrom := none }
  else
    let (e, whole) := comingTo s k pi st g
    let now := may && unheld s e whole
    { p with
      age := if now && !p.isReady then s.now else p.age
      isReady := now
      heldFrom := if p.run.isSome && stalled s e whole then some (p.heldFrom.getD s.now) else none }
/-- What a die cycle does to the paths of the strands, as it begins (12 R286, R290). -/
def State.reage (s : State) : State :=
  s.strands.foldl (fun (r : State) x => match s.gang x.2.gang with
    | none => r
    | some g =>
      let st := x.2
      if st.mode != .running && st.mode != .handler then r
      else
        let one (r : State) (pi : Nat) : State := r.onPath x.1 pi fun _ => Path.aged s x.1 pi st g
        if st.divided then one (one r 0) 1 else one r 0) s

/-- A path that waits at issue, as it stands at its instruction (12 R285). -/
def heldEnv (s : State) (k pi : Nat) : Option Env :=
  match s.strand k with
  | none => none
  | some st => match s.gang st.gang with
    | none => none
    | some g => match comingTo s k pi st g with
      | (e, true) => some e
      | (_, false) => none
/-- A waiting instruction has issued: it is charged, and its path goes on after it. -/
def State.passHeld (s : State) (k pi : Nat) : State :=
  match heldEnv s k pi with
  | none => s
  | some e => e.finish none false (e.pay (s.setStrand k e.st))
/-- A waiting instruction raises a cause for its whole strand. -/
def State.raiseHeld (s : State) (k pi cause qual addr aux : Nat) (team : Bool := false) : State :=
  match heldEnv s k pi with
  | none => s
  | some e =>
    let s1 := (e.pay s).faultPath k pi { cause, qual, emask := e.p.act, whole := true, pc := e.chain, addr, aux, team } e.after
    { s1 with cur := if s.cur = some (k, 0) ∨ s.cur = some (k, 1) then none else s.cur }

/-- What the word at the current path's PC is. -/
inductive Next where
  | idle
  | fault (s : State)
  | word (i : Instr)

/-- Fetch and decode the word at the current path's PC: a failed fetch raises its check's cause for the whole strand with the PC
of the word (06 R147), a word that is no instruction raises the cause of its decoding (06 R146); what comes before a chain is decoded
comes before either. A gated quad issues no word (16 R396). -/
def nextWord (s : State) : Next :=
  match envOf (.nop 0) s with
  | none => .idle
  | some (e, r) => if s.gatedNow e.core then .idle else match fetchWord s e.core e.g e.pc with
    | .error f => .fault ((e.gate r s).getD ((s.charge e.core e.ctx 2 e.p.chainLen).faultPath e.k e.pi
        { cause := f.cause, qual := f.qual, emask := e.p.act, whole := true, pc := e.pc, addr := codeAddr e.g e.pc } e.after))
    | .ok w => match decode e.g.hdr.version w with
      | .error r' => .fault ((e.gate r s).getD (e.raise (s.charge e.core e.ctx 2 e.len) r'.cause))
      | .ok i => .word i

end Sys2Proof.Machine
end

