-- ==== Sys2Proof/Machine/Control.lean ====
section
/-!
DEFINITION. Sys2Proof/Machine/Control.lean: branches, calls, divergence and its rejoin, EXIT, YLD and NOP (12 R292 to R297, R309
to R316). PC is the offset of the instruction word itself.
-/

namespace Sys2Proof.Machine

/-- The entries a strand's stack may hold (12 R293). -/
def stackLimit (st : Strand) : Nat := if st.role = 3 then 16 else 24
/-- The entries of the frozen part and of both paths. -/
def Strand.depth (st : Strand) : Nat := st.frozen.length + st.path0.stack.length + st.path1.stack.length

/-- The target of a C-format word (12 R309). -/
def Env.target (e : Env) (o : BitVec 20) : Word := e.pc + 4 * o.signExtend 32
/-- A taken branch. -/
def Env.jump (e : Env) (x : Word) (s : State) : State :=
  (e.finish (some x) true s).trace e.k e.pi 1 x e.p.act e.pc

/-- BR (12 R310). -/
def execBr (z : BitVec 1) (o : BitVec 20) (s : State) : Answer := issue (.br z o) s fun e => e.jump (e.target o)
/-- BRC (12 R310). -/
def execBrc (z : BitVec 1) (p : BitVec 3) (o : BitVec 20) (s : State) : Answer :=
  issue (.brc z p o) s fun e s =>
    if e.st.pred p.toNat (lowest e.p.act) then e.jump (e.target o) s else e.finish (some (e.pc + 4)) false s

/-- Push a level and go on with one of its sides (12 R294; log 27, DEDUCED). -/
def Env.pushLevel (e : Env) (fm pm : Mask) (ppc : Word) (act : Mask) (pc : Word) (taken : Bool) (s : State) : State :=
  if stackLimit e.st ≤ e.st.depth then e.raisePath s 0x0E 0 0 e.after
  else
    let s1 := e.finish (some pc) taken s
    let s2 := s1.onPath e.k e.pi fun p => { p with act := act, stack := { fmask := fm, pmask := pm, ppc, nfrs := e.p.nfr, pushed := e.st.nextPush } :: p.stack }
    if taken then s2.trace e.k e.pi 1 pc e.p.act e.pc else s2

/-- BRD (12 R294; log 34, DEDUCED). -/
def execBrd (z : BitVec 1) (q : BitVec 3) (o : BitVec 20) (s : State) : Answer :=
  issue (.brd z q o) s fun e s =>
    let x := e.target o
    let t := e.act &&& e.st.pmask q.toNat
    let f := e.p.act &&& ~~~t
    let fall := e.pc + 4
    if !e.st.divided && decide (t ≠ 0) && decide (f ≠ 0) then
      let s1 := e.finish (some fall) true s
      let s2 := s1.onStrand e.k fun st =>
        let p := st.path0
        { st with divided := true, nfrs := p.nfr, frozen := p.stack
                  path0 := { p with act := f, stack := [] }, path1 := { p with act := t, pc := x, stack := [], isReady := false } }
      s2.trace e.k 0 2 fall f t
    else if t ≠ 0 ∧ f ≠ 0 then e.pushLevel t f fall t x true s
    else if t = 0 then e.pushLevel f 0 0 e.p.act fall false s
    else e.pushLevel t 0 0 e.p.act x true s

/-- JOIN (12 R295, R296; log 27, DEDUCED): one that goes on at the next word leaves its run to go on, any other is a taken branch (12
R284). -/
def execJoin (z : BitVec 1) (s : State) : Answer :=
  issue (.join z) s fun e s => match e.p.stack with
    | en :: es =>
      if !en.side && decide (en.pmask ≠ 0) then
        let s1 := e.finish (some en.ppc) true s
        (s1.onPath e.k e.pi fun p => { p with
          act := en.pmask, nfr := withFlags en.nfrs p.nfr, stack := { en with fmask := e.p.act, side := true, ppc := e.pc } :: es }).trace
          e.k e.pi 1 en.ppc en.pmask e.pc
      else
        let s1 := e.finish (some (e.pc + 4)) false s
        s1.onPath e.k e.pi fun p => { p with act := en.fmask ||| e.p.act, nfr := withFlags en.nfrs p.nfr, stack := es }
    | [] =>
      if e.st.divided then
        let s1 := e.finish (some e.pc) false s
        let s2 := s1.onStrand e.k fun st => (st.setPath e.pi { st.path e.pi with arrived := true }).tryRejoin
        let run := match s1.strand e.k with | some st => (st.path e.pi).run | none => none
        let goes := match s2.strand e.k with | some st => !st.divided && st.path0.pc == e.pc + 4 && run.isSome | none => false
        let s3 := (s2.onPath e.k (if goes then 0 else e.pi) fun p => { p with run := if goes then run else none }).rejoined e.k true
        if goes then { s3 with cur := some (e.k, 0) }
        else match s2.strand e.k with
          | some st => if st.divided || st.path0.pc == e.pc + 4 then s3.uncur e.k e.pi else (s3.uncur e.k e.pi).trace e.k 0 1 st.path0.pc st.path0.act e.pc
          | none => s3
      else e.raisePath s 0x0F 0 0 e.after

/-- CALL (12 R311). -/
def execCall (z : BitVec 1) (k : BitVec 3) (o : BitVec 20) (s : State) : Answer :=
  issue (.call z k o) s fun e s => e.jump (e.target o) (e.put 0 (k.setWidth 7) 1 (fun _ => (e.pc + 4).toNat) s)

/-- The landing pad at an offset of the code object, as CALLX and BRX read it (12 R312, R313; 06 R147). -/
def Env.pad (e : Env) (s : State) (pc : Word) : Except Failed (Option (Bool × BitVec 12)) :=
  match fetchWord s e.core e.g pc with
  | .error f => .error f
  | .ok w => .ok (match decode e.g.hdr.version w with
    | .ok (.lpad _ c l) => some (c == 1, l)
    | _ => none)
/-- A fault that leaves the PC at the instruction (12 R312, R313; log 28, DEDUCED). -/
def Env.raiseHere (e : Env) (s : State) (cause qual addr : Nat) : State := e.raisePath s cause qual addr e.chain

/-- CALLX (12 R312; log 28, DEDUCED). -/
def execCallx (z : BitVec 1) (k t : BitVec 7) (s : State) : Answer :=
  issue (.callx z k t) s fun e s =>
    let x := e.st.src t.toNat (lowest e.p.act)
    match e.pad s x with
    | .error f => e.raiseHere s f.cause f.qual (codeAddr e.g x)
    | .ok (some (true, _)) => e.jump x (e.put 0 k 1 (fun _ => (e.pc + 4).toNat) s)
    | .ok _ => e.raiseHere s 0x06 0 0
/-- RET (12 R312; log 28, DEDUCED). -/
def execRet (z : BitVec 1) (k : BitVec 7) (s : State) : Answer :=
  issue (.ret z k) s fun e s =>
    let x := e.st.src k.toNat (lowest e.p.act)
    if x.toNat % 4 ≠ 0 then e.raiseHere s 0x24 0 (codeAddr e.g x) else e.jump x s
/-- BRX (12 R313; log 28, DEDUCED). -/
def execBrx (z : BitVec 1) (i : BitVec 6) (o : BitVec 14) (s : State) : Answer :=
  issue (.brx z i o) s fun e s =>
    let tbl := e.pc + 4 * o.setWidth 32
    let n := e.st.sreg i.toNat
    match fetchWord s e.core e.g tbl with
    | .error f => e.raiseHere s f.cause f.qual (codeAddr e.g tbl)
    | .ok h =>
      if bits h.toNat 24 8 ≠ 0 then e.raiseHere s 0x07 0x1E 0
      else if bits h.toNat 12 12 ≤ n.toNat then e.raiseHere s 0x07 0 0
      else match fetchWord s e.core e.g (tbl + 4 + 4 * n) with
        | .error f => e.raiseHere s f.cause f.qual (codeAddr e.g (tbl + 4 + 4 * n))
        | .ok w =>
          let x := tbl + 4 * w
          match e.pad s x with
          | .error f => e.raiseHere s f.cause f.qual (codeAddr e.g x)
          | .ok (some (_, l)) => if l.toNat = bits h.toNat 0 12 then e.jump x s else e.raiseHere s 0x06 0 0
          | .ok none => e.raiseHere s 0x06 0 0
/-- LPAD does nothing (12 R314). -/
def execLpad (z c : BitVec 1) (l : BitVec 12) (s : State) : Answer :=
  issue (.lpad z c l) s fun e => e.finish (some (e.pc + 4)) false

/-- EXIT (12 R315, R297; log 32, DEDUCED): a strand that ends seals its open sets (03 R68); a path that unwinds takes a branch (12 R284). -/
def execExit (z : BitVec 1) (s : State) : Answer :=
  issue (.exit z) s fun e s =>
    let gone := decide (e.p.act &&& ~~~e.act = 0)
    let s1 := e.finish (some (e.pc + 4)) gone s
    (((s1.onStrand e.k fun st => (st.remove e.act).settle e.pi).traceUnwound e.k e.st e.act).rejoined e.k e.st.divided).sealEnding e.k
/-- YLD (12 R316). -/
def execYld (z : BitVec 1) (s : State) : Answer :=
  issue (.yld z) s fun e s => (e.finish none true s).onPath e.k e.pi fun p => { p with age := s.now + 1 }
/-- NOP (12 R316). -/
def execNop (z : BitVec 1) (s : State) : Answer := issue (.nop z) s fun e => e.next

end Sys2Proof.Machine
end

