-- ==== Sys2Proof/Machine/Copies.lean ====
section
/-!
DEFINITION. Sys2Proof/Machine/Copies.lean: CPY, CPYV and GATH as they issue (03 R57 to R61, R69, R70; 07 R170 to R172; 01 R39 to
R41).
-/

namespace Sys2Proof.Machine

/-- One copy instruction: its line operations wait in the coalescer (03 R59, R60; log 87, DEDUCED). -/
def Env.copy (e : Env) (m : Move) (s : State) : State :=
  if e.creditBad m.object then e.raise s 0x60
  else
    let (its, gens, fs, n) := m.lines
    e.nextFailed (e.launchOp { kind := .copy e.creditSlot, acc := some 1, items := its, gens, lines := List.replicate n .waiting
                               outstanding := false } s) fs

/-- CPY, scratchpad from object (07 R170). In version 1 the object side takes an offset as LD does (06 R148). -/
def execCpySFromG (z : BitVec 1) (c : BitVec 2) (d a : BitVec 7) (k : BitVec 5) (l u : BitVec 4) (s : State) : Answer :=
  issue (.cpySFromG z c d a k l u) s fun e s => e.copy (e.moveSG s (copySize c) d a k.toNat u.toNat) s
/-- CPY, object from scratchpad: the object's shadow (07 R170, 03 R57). -/
def execCpyGFromS (z : BitVec 1) (c : BitVec 2) (d a : BitVec 7) (k : BitVec 5) (l u : BitVec 4) (s : State) : Answer :=
  issue (.cpyGFromS z c d a k l u) s fun e s => e.copy (e.moveGS s (copySize c) d a k.toNat u.toNat) s
/-- CPY, scratchpad from scratchpad (07 R170). -/
def execCpySFromS (z : BitVec 1) (c : BitVec 2) (d a : BitVec 7) (l : BitVec 4) (s : State) : Answer :=
  issue (.cpySFromS z c d a l) s fun e s => e.copy (e.moveSS (copySize c) d a) s
/-- CPY.b4, object from object (07 R170). -/
def execCpyGFromGB4 (z : BitVec 1) (d a : BitVec 7) (k : BitVec 2) (l : BitVec 4) (s : State) : Answer :=
  issue (.cpyGFromGB4 z d a k l) s fun e s => e.copy (e.moveGG s 4 d a k.toNat) s
/-- CPY.b8, object from object (07 R170). -/
def execCpyGFromGB8 (z : BitVec 1) (d a : BitVec 7) (k : BitVec 2) (l : BitVec 4) (s : State) : Answer :=
  issue (.cpyGFromGB8 z d a k l) s fun e s => e.copy (e.moveGG s 8 d a k.toNat) s
/-- CPY.b16, object from object (07 R170). -/
def execCpyGFromGB16 (z : BitVec 1) (d a : BitVec 7) (k : BitVec 2) (l : BitVec 4) (s : State) : Answer :=
  issue (.cpyGFromGB16 z d a k l) s fun e s => e.copy (e.moveGG s 16 d a k.toNat) s

/-- CPYV (07 R171, 03 R61): one tile operation for each destination tile, the threads that name it in ascending order; the
core's copies of the tiles' lines are removed at issue (04 R74). -/
def Env.copyV (e : Env) (d : BitVec 7) (m : Move) (s : State) : State :=
  if e.creditBad m.object then e.raise s 0x60
  else
    let (its, gens, fs, n) := m.lines
    let its' := its.map fun i => { i with cmp := e.st.src64 d.toNat i.t }
    let s1 := if its'.isEmpty then s else s.invalidate e.core (its'.flatMap fun i => i.dst.map lineOf).contains false
    e.nextFailed (e.launchOp { kind := .copyv d.toNat, acc := some 1, items := its', gens
                               lines := List.replicate n .waiting, vregs := [d.toNat, d.toNat + 1] } s1) fs
/-- CPYV from an object: pair k + 1 and the THIRD register, or a7's, name the source (07 R171). -/
def execCpyvG (z : BitVec 1) (d a : BitVec 7) (k : BitVec 2) (l : BitVec 4) (s : State) : Answer :=
  issue (.cpyvG z d a k l) s fun e s => e.copyV d (e.moveVG s a k.toNat) s
/-- CPYV from the scratchpad (07 R171). -/
def execCpyvS (z : BitVec 1) (d a : BitVec 7) (k : BitVec 2) (l : BitVec 4) (s : State) : Answer :=
  issue (.cpyvS z d a k l) s fun e s => e.copyV d (e.moveVS s a k.toNat) s

/-- Where a gather's elements go: the scratchpad under THIRD, else registers (07 R172). -/
def Env.gatherDst (e : Env) (n : Nat) : Reach (List Nat × Option GenRef) := match e.h.third with
  | some c => scrDst (e.reachScr n (e.scrAddr c 0))
  | none => e.ts.map fun t => (t, 0, .ok ([], none))
/-- One gather: a request part for each thread, numbered in thread order (01 R39; log 22, DEDUCED). `indexed` is GATH.x, whose precise
failures are known once every index has been followed: those of the first hop then join them (01 R41). -/
def Env.gather (e : Env) (n : Nat) (d : BitVec 7) (src : Reach (List Src × Option GenRef)) (indexed : Option (Nat × List Byte))
    (gens : List GenRef) (s : State) : State :=
  let (ps, fs) := pairUp src (e.gatherDst n)
  let mark : Nat := match indexed with | some (vals, _) => vals + 2 ^ 64 | none => 0
  let items := (ps.map (·.1)).mapIdx fun j i => { i with line := j, cmp := mark }
  let failed : List Item := fs.map fun x => { t := x.1, addr := x.2.1, bad := x.2.2.cause + 256 * x.2.2.qual, rank := x.2.2.rank, line := items.length }
  let joined := indexed.isSome && !items.isEmpty && !failed.isEmpty
  let reg := e.h.third.isNone
  e.nextFailed (e.launchOp { kind := .gather n d.toNat reg e.creditSlot, acc := some 3, items := if joined then items ++ failed else items
                             gens := gens ++ (ps.mapIdx fun j p => p.2.map (GenRef.forLine j)).flatten, carried := (indexed.map (·.2)).getD []
                             lines := List.replicate items.length .waiting ++ (if joined then [.finished] else [])
                             vregs := if reg then keysFrom d.toNat (regsOf n) else [], outstanding := reg } s) (if joined then [] else fs)
/-- GATH.e (07 R172): the offset is the element index times the element size. -/
def execGathE (z : BitVec 1) (c : BitVec 2) (d a : BitVec 7) (k : BitVec 2) (l : BitVec 4) (s : State) : Answer :=
  issue (.gathE z c d a k l) s fun e s =>
    let n := 2 * 2 ^ c.toNat
    if !s.gather then e.raise s 0x05
    else if e.creditBad false then e.raise s 0x60
    else
      let addr (t : Nat) : Nat := (e.st.upair (2 * k.toNat) + (e.st.src a.toNat t).toNat * n) % 2 ^ 64
      e.gather n d (objSrc (e.reach s .read n addr)) none [] s
/-- GATH.x (07 R172, 01 R40, R41): the index is read first; its item carries the base of the value object and a mark, bit 64, and the
request carries the value object's record; both generations are those of issue (log 37, DEDUCED). -/
def Env.gatherX (e : Env) (n : Nat) (d a : BitVec 7) (k : Nat) (s : State) : State :=
  if !s.gather then e.raise s 0x05
  else if e.creditBad false then e.raise s 0x60
  else
    let base := e.st.upair (2 * k)
    let vals := e.st.upair (2 * (k + 1))
    match record s e.die e.ctx (bits base 40 24) with
    | some r =>
      if (recordBad s e.die e.ctx r r.current).isNone && r.current.place != 2 then e.raise s 0x22 0x12
      else
        let addr (t : Nat) : Nat := (base + (e.st.src a.toNat t).toNat * 4) % 2 ^ 64
        let sent := sentRecord s e.die e.ctx (bits vals 40 24)
        let gen : List GenRef := if sent.isEmpty then [] else
          [{ die := e.die, ctx := e.ctx, obj := bits vals 40 24, gen := (parseRecord sent).current.gen }]
        e.gather n d (objSrc (e.reach s .read 4 addr)) (some (vals, sent)) gen s
    | none => e.nextFailed s (e.ts.map fun t => (t, base + (e.st.src a.toNat t).toNat * 4, ⟨0, 0x20, 0⟩))
/-- GATH.x of 2-byte elements (07 R172). -/
def execGathXB16 (z : BitVec 1) (d a : BitVec 7) (k : BitVec 2) (l : BitVec 4) (s : State) : Answer :=
  issue (.gathXB16 z d a k l) s fun e => e.gatherX 2 d a k.toNat
/-- GATH.x of 4-byte elements (07 R172). -/
def execGathXB32 (z : BitVec 1) (d a : BitVec 7) (k : BitVec 2) (l : BitVec 4) (s : State) : Answer :=
  issue (.gathXB32 z d a k l) s fun e => e.gatherX 4 d a k.toNat
/-- GATH.x of 8-byte elements (07 R172). -/
def execGathXB64 (z : BitVec 1) (d a : BitVec 7) (k : BitVec 2) (l : BitVec 4) (s : State) : Answer :=
  issue (.gathXB64 z d a k l) s fun e => e.gatherX 8 d a k.toNat

end Sys2Proof.Machine
end

