-- ==== Sys2Proof/Machine/FloatAlu.lean ====
section
/-!
DEFINITION. Sys2Proof/Machine/FloatAlu.lean: FP32, packed 16-bit and conversion instructions (08 R189 to R197).
-/

namespace Sys2Proof.Machine

/-- An FP32 source, flushed under FZ32 and negated by its MOD bit (08 R189, 05 R108). -/
def Env.fp (e : Env) (x : BitVec 1) (c : BitVec 7) (neg : Bool) (t : Nat) : FV :=
  (fp32.input e.fz32 (e.get x c 1 t)).negIf neg
/-- Round, flush and clamp an FP32 result. -/
def Env.fpDone (e : Env) (r : FV × Nat) : Nat × Nat := fp32.finish e.rm e.fz32 e.h.sat r
/-- An FP32 instruction of two sources. -/
def Env.fp2 (e : Env) (x : BitVec 1) (d a b : BitVec 7) (f : FV → FV → FV × Nat) (s : State) : State :=
  e.putFlagged x d 1 (fun t => e.fpDone (f (e.fp x a e.h.nega t) (e.fp x b e.h.negb t))) s

/-- FADD (08 R189). -/
def execFadd (z : BitVec 1) (d a b : BitVec 7) (x : BitVec 1) (s : State) : Answer :=
  issue (.fadd z d a b x) s fun e => e.fp2 x d a b (FV.add e.rm)
/-- FSUB (08 R189). -/
def execFsub (z : BitVec 1) (d a b : BitVec 7) (x : BitVec 1) (s : State) : Answer :=
  issue (.fsub z d a b x) s fun e => e.fp2 x d a b fun p q => FV.add e.rm p q.neg
/-- FMUL (08 R189). -/
def execFmul (z : BitVec 1) (d a b : BitVec 7) (x : BitVec 1) (s : State) : Answer :=
  issue (.fmul z d a b x) s fun e => e.fp2 x d a b FV.mul
/-- FFMA (08 R189). -/
def execFfma (z : BitVec 1) (d a b : BitVec 7) (x : BitVec 1) (s : State) : Answer :=
  issue (.ffma z d a b x) s fun e s => e.putFlagged x d 1 (fun t =>
    e.fpDone (FV.mulAdd e.rm (e.fp x a e.h.nega t) (e.fp x b e.h.negb t) (e.fp x (e.third d) e.h.negc t))) s

/-- a is below b, with -0 below +0 (08 R190). -/
def FV.below (a b : FV) : Bool := a.lt b || (a.isZero && b.isZero && a.sign && !b.sign)
/-- FMIN and FMAX: the lesser, or the greater, with the flag of a signalling NaN (08 R190). -/
def minMax (greater : Bool) (a b : FV) : Nat × Nat :=
  let v := if a.isNan then (if b.isNan then .nan false else b) else if b.isNan then a
    else if greater then (if a.below b then b else a) else if b.below a then b else a
  ((fp32.round 0 false v).1, if a.isSnan || b.isSnan then flagInv else 0)
/-- FMIN (08 R190). -/
def execFmin (z : BitVec 1) (d a b : BitVec 7) (x : BitVec 1) (s : State) : Answer :=
  issue (.fmin z d a b x) s fun e s => e.putFlagged x d 1 (fun t => minMax false (e.fp x a e.h.nega t) (e.fp x b e.h.negb t)) s
/-- FMAX (08 R190). -/
def execFmax (z : BitVec 1) (d a b : BitVec 7) (x : BitVec 1) (s : State) : Answer :=
  issue (.fmax z d a b x) s fun e s => e.putFlagged x d 1 (fun t => minMax true (e.fp x a e.h.nega t) (e.fp x b e.h.negb t)) s

/-- Round to an integral value; only a signalling NaN raises a flag (08 R191). -/
def toIntegral (rm : Nat) (v : FV) : Nat × Nat :=
  match v with
  | .nan sg => (fp32.qnan, if sg then flagInv else 0)
  | .inf _ => ((fp32.round 0 false v).1, 0)
  | .fin n m e =>
    if isIntegral m e then ((fp32.round 0 false v).1, 0)
    else ((fp32.round 0 false (.fin n (roundInt rm n m e).natAbs 0)).1, 0)
/-- FRND (08 R191). -/
def execFrnd (z : BitVec 1) (d a : BitVec 7) (x : BitVec 1) (s : State) : Answer :=
  issue (.frnd z d a x) s fun e s => e.putFlagged x d 1 (fun t => toIntegral e.rm (e.fp x a e.h.nega t)) s

/-- The class of an FP32 value as one bit of ten (08 R191). -/
def classOf (v : FV) : Nat :=
  match v with
  | .nan sg => if sg then 2 ^ 8 else 2 ^ 9
  | .inf n => if n then 2 ^ 0 else 2 ^ 7
  | .fin n m _ =>
    if m = 0 then (if n then 2 ^ 3 else 2 ^ 4) else if m < 2 ^ 23 then (if n then 2 ^ 2 else 2 ^ 5) else if n then 2 ^ 1 else 2 ^ 6
/-- FCLS classifies the encoding whatever FZ32 says (08 R191). -/
def execFcls (z : BitVec 1) (d a : BitVec 7) (x : BitVec 1) (s : State) : Answer :=
  issue (.fcls z d a x) s fun e => e.one x d a 1 1 fun p => classOf ((fp32.value p).negIf e.h.nega)

/-- The condition of FCMP and its invalid flag (08 R192). -/
def floatCompare (c : BitVec 3) (a b : FV) : Bool × Nat :=
  let un := a.isNan || b.isNan
  let quiet := c == 0 || c == 1 || c == 6 || c == 7
  let r := if c == 0 then a.eq b else if c == 1 then !a.eq b else if c == 2 then a.lt b else if c == 3 then a.lt b || a.eq b
    else if c == 4 then b.lt a else if c == 5 then b.lt a || a.eq b else if c == 6 then un else !un
  (r, if (if quiet then a.isSnan || b.isSnan else un) then flagInv else 0)
/-- FCMP (08 R192). -/
def execFcmp (z : BitVec 1) (c : BitVec 3) (d a b : BitVec 7) (x : BitVec 1) (s : State) : Answer :=
  issue (.fcmp z c d a b x) s fun e s =>
    e.putCompare x d (fun t => floatCompare c (e.fp x a e.h.nega t) (e.fp x b e.h.negb t)) s

/-- The format of a packed 16-bit instruction (08 R193). -/
def halfFmt (h : BitVec 1) : FFmt := if h == 1 then bf16 else fp16
/-- Element i of a packed source. -/
def Env.half (e : Env) (h x : BitVec 1) (c : BitVec 7) (neg : Bool) (t i : Nat) : FV :=
  ((halfFmt h).input e.fz16 (bits (e.get x c 1 t) (16 * i) 16)).negIf neg
/-- Both elements of a packed result (08 R193). -/
def Env.halves (e : Env) (h x : BitVec 1) (d : BitVec 7) (f : Nat → Nat → FV × Nat) (s : State) : State :=
  e.putFlagged x d 1 (fun t =>
    let lo := (halfFmt h).finish e.rm e.fz16 e.h.sat (f t 0)
    let hi := (halfFmt h).finish e.rm e.fz16 e.h.sat (f t 1)
    (lo.1 + 2 ^ 16 * hi.1, orFlags lo.2 hi.2)) s
/-- HADD2 (08 R193). -/
def execHadd2 (z h : BitVec 1) (d a b : BitVec 7) (x : BitVec 1) (s : State) : Answer :=
  issue (.hadd2 z h d a b x) s fun e => e.halves h x d fun t i => FV.add e.rm (e.half h x a e.h.nega t i) (e.half h x b e.h.negb t i)
/-- HMUL2 (08 R193). -/
def execHmul2 (z h : BitVec 1) (d a b : BitVec 7) (x : BitVec 1) (s : State) : Answer :=
  issue (.hmul2 z h d a b x) s fun e => e.halves h x d fun t i => FV.mul (e.half h x a e.h.nega t i) (e.half h x b e.h.negb t i)
/-- HFMA2 (08 R193). -/
def execHfma2 (z h : BitVec 1) (d a b : BitVec 7) (x : BitVec 1) (s : State) : Answer :=
  issue (.hfma2 z h d a b x) s fun e => e.halves h x d fun t i =>
    FV.mulAdd e.rm (e.half h x a e.h.nega t i) (e.half h x b e.h.negb t i) (e.half h x (e.third d) e.h.negc t i)
/-- Two infinities of opposite sign. -/
def FV.opposed : FV → FV → Bool
  | .inf n, .inf k => n != k
  | _, _ => false
/-- a0 b0 + a1 b1 + c, unrounded (08 R194): infinities of opposite sign raise invalid whatever the third term and the order. -/
def dot2 (rm : Nat) (a0 b0 a1 b1 c : FV) : FV × Nat :=
  let p := a0.mul b0
  let q := a1.mul b1
  let u := FV.add rm p.1 q.1
  let v := FV.add rm u.1 c
  let clash := p.1.opposed q.1 || p.1.opposed c || q.1.opposed c
  (v.1, unionFlags [p.2, q.2, u.2, v.2, if clash then flagInv else 0])
/-- FDOT2 (08 R194). -/
def execFdot2 (z h : BitVec 1) (d a b : BitVec 7) (x : BitVec 1) (s : State) : Answer :=
  issue (.fdot2 z h d a b x) s fun e s => e.putFlagged x d 1 (fun t =>
    e.fpDone (dot2 e.rm (e.half h x a e.h.nega t 0) (e.half h x b e.h.negb t 0) (e.half h x a e.h.nega t 1)
      (e.half h x b e.h.negb t 1) (e.fp x (e.third d) e.h.negc t))) s

/-- An integer format code (05 R106). -/
def isIntFmt (c : Nat) : Bool := decide (c ≤ 8)
/-- The signedness of an integer format code. -/
def isSignedFmt (c : Nat) : Bool := c % 2 == 0
/-- The bits of a format's element. -/
def fmtBits (c : Nat) : Nat := 8 * formatBytes c
/-- The value of a floating-point element; FP32 and 16-bit subnormals are flushed under FZ (05 R108, R113, R114, R118). -/
def readFloat (nfr : Word) (c w : Nat) : FV :=
  if c = 0x10 then fp32.input (nfrFz32 nfr) w else if c = 0x11 then fp16.input (nfrFz16 nfr) w
  else if c = 0x12 then bf16.input (nfrFz16 nfr) w else if c = 0x13 then f8nValue w else if c = 0x14 then f8wValue w
  else ts8Value (nfrTscale nfr) w
/-- A value rounded into a floating-point format (05 R110, R111, R115, R117). -/
def writeFloat (nfr : Word) (rm c : Nat) (v : FV) : Nat × Nat :=
  if c = 0x10 then fp32.round rm (nfrFz32 nfr) v else if c = 0x11 then fp16.round rm (nfrFz16 nfr) v
  else if c = 0x12 then bf16.round rm (nfrFz16 nfr) v else if c = 0x13 then toF8 false rm v else if c = 0x14 then toF8 true rm v
  else toTs8 (nfrTscale nfr) v
/-- One conversion from format code src to tgt: the bits of the target element and the flags; without SAT an integer goes to an
integer as the source's bits, extended by the target's signedness (08 R195; log 24, DEDUCED; log 54, DEDUCED). -/
def convert (nfr : Word) (rm : Nat) (sat : Bool) (src tgt w : Nat) : Nat × Nat :=
  let bits' := w % 2 ^ fmtBits src
  if isIntFmt src then
    let i : Int := if isSignedFmt src then signed (fmtBits src) bits' else bits'
    if isIntFmt tgt then
      let (lo, hi) := intRange tgt
      let low : Int := if isSignedFmt tgt then signed (fmtBits src) bits' else bits'
      (unsigned (fmtBits tgt) (if sat then max lo (min i hi) else low), 0)
    else writeFloat nfr rm tgt (if sat then (ofInt i 0).clamp else ofInt i 0)
  else
    let v := readFloat nfr src bits'
    if isIntFmt tgt then
      let (i, f) := toIntFmt tgt rm sat v
      (unsigned (fmtBits tgt) i, f)
    else
      let (r, f) := writeFloat nfr rm tgt (if sat then v.clamp else v)
      (r, if v.isSnan then orFlags f flagInv else f)
/-- A converted element as it stands in its registers: integers narrower than 32 bits are extended (08 R195; log 54, DEDUCED). -/
def extend (c w : Nat) : Nat := if isIntFmt c && isSignedFmt c && decide (fmtBits c < 32) then unsigned 32 (signed (fmtBits c) w) else w
/-- The registers of one element. -/
def elemRegs (c : Nat) : Nat := if wide64 c then 2 else 1
/-- CVT (08 R195). -/
def execCvt (z : BitVec 1) (f : BitVec 5) (d a : BitVec 7) (t : BitVec 6) (s : State) : Answer :=
  issue (.cvt z f d a t) s fun e s => e.putFlagged 0 d (elemRegs t.toNat) (fun i =>
    let r := convert e.p.nfr e.rm e.h.sat f.toNat t.toNat (e.get 0 a (elemRegs f.toNat) i)
    (extend t.toNat r.1, r.2)) s
/-- FMT (08 R196). -/
def execFmt (z : BitVec 1) (f : BitVec 5) (d a : BitVec 7) (t : BitVec 6) (s : State) : Answer :=
  issue (.fmt z f d a t) s fun e s =>
    let sb := fmtBits f.toNat
    let tb := fmtBits t.toNat
    e.putFlagged 0 d (fmtRegs f.toNat t.toNat t.toNat) (fun i =>
      let w := e.get 0 a (fmtRegs f.toNat t.toNat f.toNat) i
      (List.range (fmtCount f.toNat t.toNat)).foldl (fun (r : Nat × Nat) j =>
        let c := convert e.p.nfr e.rm e.h.sat f.toNat t.toNat (bits w (sb * j) sb)
        (r.1 + c.1 * 2 ^ (tb * j), orFlags r.2 c.2)) (0, 0)) s

/-- A signed int32 clamped to the range of n bits, as its n-bit encoding (08 R197). -/
def satBits (isSigned : Bool) (n w : Nat) : Nat :=
  let i := signed 32 w
  if isSigned then unsigned n (clampSigned n i) else (max 0 (min i ((2 ^ n : Nat) - 1))).toNat
/-- The result of PACK (08 R197). -/
def packBits (m : BitVec 3) (old a b : Nat) : Nat :=
  if m == 0 then bits a 0 16 + 2 ^ 16 * bits b 0 16
  else if m == 1 then bits a 16 16 + 2 ^ 16 * bits b 16 16
  else if m == 2 then satBits true 16 a + 2 ^ 16 * satBits true 16 b
  else if m == 3 then satBits false 16 a + 2 ^ 16 * satBits false 16 b
  else
    let sg := m == 4 || m == 5
    let v := satBits sg 8 a + 2 ^ 8 * satBits sg 8 b
    if m == 4 || m == 6 then v + 2 ^ 16 * bits old 16 16 else bits old 0 16 + 2 ^ 16 * v
/-- PACK (08 R197). -/
def execPack (z : BitVec 1) (m : BitVec 3) (d a b : BitVec 7) (x : BitVec 1) (s : State) : Answer :=
  issue (.pack z m d a b x) s fun e s =>
    e.next (e.put x d 1 (fun t => packBits m (e.get x d 1 t) (e.get x a 1 t) (e.get x b 1 t)) s)
/-- The result of UNPK (08 R197). -/
def unpackBits (m : BitVec 3) (a b : Nat) : Nat :=
  let n := if m.toNat < 2 then 8 else if m.toNat < 4 then 16 else 4
  let v := bits a (n * (b % (32 / n))) n
  if m.toNat % 2 = 1 then unsigned 32 (signed n v) else v
/-- UNPK (08 R197). -/
def execUnpk (z : BitVec 1) (m : BitVec 3) (d a b : BitVec 7) (x : BitVec 1) (s : State) : Answer :=
  issue (.unpk z m d a b x) s fun e => e.two x d a b 1 1 1 (unpackBits m)

end Sys2Proof.Machine
end

