-- ==== Sys2Proof/Machine/CrossLane.lean ====
section
/-!
DEFINITION. Sys2Proof/Machine/CrossLane.lean: instructions that read the values of other threads of the strand (08 R198 to
R206). All reads happen before any write, and only active threads take part.
-/

namespace Sys2Proof.Machine

/-- The source thread of SHFL, none when it is out of range (08 R199). -/
def shuffleSource (m : BitVec 3) (t d : Nat) : Option Nat :=
  if m == 0 then some d
  else if m == 1 then (if t < d then none else some (t - d))
  else if m == 2 then (if 31 < t + d then none else some (t + d))
  else if m == 3 then some (Nat.xor t d)
  else some ((t + d) % 32)
/-- SHFL (08 R199). -/
def execShfl (z : BitVec 1) (m : BitVec 3) (d a b : BitVec 7) (s : State) : Answer :=
  issue (.shfl z m d a b) s fun e s => e.next (e.put 0 d 1 (fun t =>
    match shuffleSource m t (e.get 0 b 1 t % 32) with
    | some u => if has e.act u then e.get 0 a 1 u else e.get 0 a 1 t
    | none => e.get 0 a 1 t) s)

/-- The active threads whose predicate is true. -/
def Env.yes (e : Env) (a : BitVec 7) : Mask := e.act &&& e.st.pmask a.toNat
/-- VOTE (08 R200). -/
def execVote (z : BitVec 1) (m : BitVec 3) (d a : BitVec 7) (s : State) : Answer :=
  issue (.vote z m d a) s fun e s =>
    let yes := e.yes a
    let flag (b : Bool) : State := e.putPred d.toNat (if b then 0xFFFFFFFF else 0) s
    e.next (
      if m == 0 then flag (decide (yes = e.act))
      else if m == 1 then flag (decide (yes ≠ 0))
      else if m == 2 then e.put 0 d 1 (fun _ => yes.toNat) s
      else if m == 3 then flag (e.ts.all fun t => e.get 0 a 1 t == e.get 0 a 1 (lowest e.act))
      else e.put 0 d 1 (fun _ => (active yes).length) s)

/-- RDFL (08 R201). -/
def execRdfl (z : BitVec 1) (d a b : BitVec 7) (s : State) : Answer :=
  issue (.rdfl z d a b) s fun e s =>
    if e.act = 0 then e.next s
    else e.next (e.put (if b == 1 then 1 else 0) d 1 (fun _ => e.get 0 a 1 (lowest e.act)) s)

/-- PRFX (08 R202). -/
def scan (m : BitVec 7) (ts : List Nat) (v : Nat → Nat) (t : Nat) : Nat :=
  let sum (us : List Nat) : Nat := us.foldl (fun r u => r + v u) 0
  if m == 0 then sum (ts.filter (· ≤ t))
  else if m == 1 then sum (ts.filter (· < t))
  else if m == 2 then sum ts
  else (ts.filter (· ≤ t)).foldl (fun r u => if signed 32 r < signed 32 (v u) then v u else r) (2 ^ 31)
def execPrfx (z : BitVec 1) (d a b : BitVec 7) (s : State) : Answer :=
  issue (.prfx z d a b) s fun e s => e.next (e.put 0 d 1 (scan b e.ts (e.get 0 a 1)) s)

/-- The active threads below t with t's key (08 R203). -/
def earlier (ts : List Nat) (key : Nat → Nat) (t : Nat) : List Nat := ts.filter fun u => decide (u < t) && key u == key t
/-- CONF (08 R203). -/
def execConf (z : BitVec 1) (d a b : BitVec 7) (s : State) : Answer :=
  issue (.conf z d a b) s fun e s =>
    let key := e.get 0 a e.w
    e.next (e.putPred b.toNat (maskWhere fun t => (earlier e.ts key t).isEmpty)
      (e.put 0 d 1 (fun t => (maskOf (earlier e.ts key t)).toNat) s))

/-- One step of KCOMB (08 R204): the new value and its flags. -/
def Env.combine (e : Env) (b : BitVec 7) (p q : Nat) : Nat × Nat :=
  if b == 0 then ((p + q) % 2 ^ 32, 0)
  else if b == 1 then fp32.finish e.rm e.fz32 false (FV.add e.rm (fp32.input e.fz32 p) (fp32.input e.fz32 q))
  else if b == 2 then (if signed 32 p < signed 32 q then q else p, 0)
  else (if signed 32 q < signed 32 p then q else p, 0)
/-- KCOMB (08 R204): each leader folds the values of its key in ascending thread order. -/
def execKcomb (z : BitVec 1) (d a b : BitVec 7) (s : State) : Answer :=
  issue (.kcomb z d a b) s fun e s =>
    let key := e.get 0 a 1
    let leaders := e.ts.filter fun t => (earlier e.ts key t).isEmpty
    let fold (t : Nat) : Nat × Nat :=
      (e.ts.filter fun u => decide (t < u) && key u == key t).foldl (fun (r : Nat × Nat) u =>
        let c := e.combine b r.1 (e.get 0 d 1 u)
        (c.1, orFlags r.2 c.2)) (e.get 0 d 1 t, 0)
    let rs := leaders.map fun t => (t, fold t)
    e.flagged (rs.map fun r => (r.1, r.2.2))
      (fun m s => s.onStrand e.k fun st => rs.foldl (fun st r => if has m r.1 then st.setGroup d.toNat 1 r.1 r.2.1 else st) st) s

/-- The row of element f among rows of the given (thread, length), with its offset (08 R205). -/
def rowOf : List (Nat × Nat) → Nat → Option (Nat × Nat)
  | [], _ => none
  | (t, n) :: rows, f => if f < n then some (t, f) else rowOf rows (f - n)
/-- REBAL (08 R205). -/
def execRebal (z : BitVec 1) (d a b : BitVec 7) (s : State) : Answer :=
  issue (.rebal z d a b) s fun e s =>
    let rows := e.ts.map fun t => (t, e.get 0 a 1 t)
    let base := e.get 0 b 1 (lowest e.act)
    e.next (e.put 0 d 2 (fun t => match rowOf rows (base + t) with
      | some (r, o) => r + 2 ^ 32 * (o % 2 ^ 32)
      | none => 2 ^ 32 - 1) s)

/-- MASK (08 R206). -/
def execMask (z : BitVec 1) (d b : BitVec 7) (s : State) : Answer :=
  issue (.mask z d b) s fun e s => e.next (e.put 0 d 1 (fun t =>
    if b == 0 then e.act.toNat else if b == 1 then 2 ^ t - 1 else if b == 2 then 2 ^ (t + 1) - 1 else 2 ^ 32 - 2 ^ (t + 1)) s)

end Sys2Proof.Machine
end

