-- ==== Sys2Proof/Machine/FuncUnit.lean ====
section
/-!
DEFINITION. Sys2Proof/Machine/FuncUnit.lean: SFE, STBL and TSWP (09 R207 to R214).
-/

namespace Sys2Proof.Machine

/-- Results whose threads may not have been served, because ECC cannot correct what they read: those threads raise 0xB2 beside those whose
result is trapped, and the others have theirs (01 R22, 05 R110; log 106, DESIGN CHOICE). -/
def Env.putServed (e : Env) (d : BitVec 7) (lost : Nat → Bool) (f : Nat → Nat × Nat) (s : State) : State :=
  if !e.ts.any lost then e.putFlagged 0 d 1 f s
  else
    let rs := (e.ts.map fun t => (t, f t)).filter fun r => !lost r.1 && trapped e.p.nfr r.2.2 == 0
    let s1 := s.onStrand e.k fun st => rs.foldl (fun st r => st.setGroup d.toNat 1 r.1 r.2.1) st
    e.nextFault (e.sticky (unionFlags (rs.map (·.2.2))) s1) 0xB2 0 (e.act &&& ~~~(maskOf (rs.map (·.1)))) 0
/-- SFE (09 R207, R214). -/
def execSfe (z : BitVec 1) (d a : BitVec 7) (f : BitVec 5) (l u : BitVec 4) (s : State) : Answer :=
  issue (.sfe z d a f l u) s fun e s =>
    if f.toNat < 16 then e.putFlagged 0 d 1 (fun t => builtin f.toNat e.fz32 (e.get 0 a 1 t)) s
    else match tableImage s e.ctx e.p.run (f.toNat - 16) with
      | none => e.raise s 0xA2
      | some tab =>
        let x (t : Nat) : Nat := e.get 0 a 1 t
        e.putServed d (fun t => tableFails s e.die e.ctx e.p.run (f.toNat - 16) (tab.touches e.fz32 (x t))) (fun t => tab.eval e.fz32 (x t)) s

/-- STBL (09 R212): the header is read, then the segments it counts, in elements of four bytes (log 114, DESIGN CHOICE), and the lines read are
charged (14 R364). -/
def execStbl (z : BitVec 1) (t p : BitVec 7) (l : BitVec 4) (s : State) : Answer :=
  issue (.stbl z t p l) s fun e s =>
    let a := e.st.upair p.toNat
    match readObject s e.die e.ctx a 4 16 with
    | .error f => e.raise s f.cause f.qual a
    | .ok hd =>
      let n := (parseTable hd).nseg
      let read (k : Nat) : State := s.chargeHomes e.core e.ctx (objectLines s e.die e.ctx a 4 k)
      if n = 0 ∨ 1020 < n then e.raise (read 16) 0xA1 0x1F a
      else match readObject s e.die e.ctx (a + 64) 4 (4 * n) with
        | .error f => e.raise (read 16) f.cause f.qual a
        | .ok body =>
          if !tableValid (hd ++ body) then e.raise (read (16 + 4 * n)) 0xA1 0x1F a
          else e.next (e.start { kind := .stbl t.toNat (hd ++ body) } (read (16 + 4 * n))).2
/-- TSWP (09 R213): the bit is inverted at its home; the cores take it as they are told. -/
def execTswp (z : BitVec 1) (t : BitVec 7) (l : BitVec 4) (s : State) : Answer :=
  issue (.tswp z t l) s fun e s =>
    match s.ctx e.ctx with
    | none => e.next s
    | some c =>
      let b := bits c.tactive.toNat t.toNat 1
      if bits c.tfilled.toNat (2 * t.toNat + (1 - b)) 1 = 0 then e.raise s 0xA1 0x20
      else
        let s1 := s.setCtx e.ctx { c with tactive := c.tactive ^^^ (1 <<< t.toNat) }
        e.next (e.start { kind := .bankSwap false t.toNat s.allCores } s1).2

end Sys2Proof.Machine
end

