-- ==== Sys2Proof/Machine/LongAcc.lean ====
section
/-!
DEFINITION. Sys2Proof/Machine/LongAcc.lean: the long accumulators (05 R128, R129; 09 R215 to R219).
-/

namespace Sys2Proof.Machine

/-- An accumulator: its integer, and its state 0 finite, 1 +infinity seen, 2 -infinity seen, 3 NaN (05 R128). -/
abbrev Acc := BitVec 512 × BitVec 2

def Strand.acc (st : Strand) (l : BitVec 1) : Acc := if l == 1 then (st.l1, st.fl1) else (st.l0, st.fl0)
def Strand.setAcc (st : Strand) (l : BitVec 1) (a : Acc) : Strand :=
  if l == 1 then { st with l1 := a.1, fl1 := a.2 } else { st with l0 := a.1, fl0 := a.2 }
/-- Fold one state into another (05 R128). -/
def foldState (a b : BitVec 2) : BitVec 2 := if a == 0 then b else if b == 0 || a == b then a else 3
/-- Add a state and an integer. -/
def Acc.add (a : Acc) (fl : BitVec 2) (n : Int) : Acc := (a.1 + BitVec.ofInt 512 n, foldState a.2 fl)
/-- Add one term (05 R128): an FP32 value enters exactly, a square through the grid by nearest-even. -/
def Acc.term (a : Acc) (v : FV) (sq : Bool) : Acc :=
  match v with
  | .nan _ => a.add 3 0
  | .inf neg => a.add (if neg && !sq then 2 else 1) 0
  | .fin neg m e => a.add 0 (toGrid 0 (if sq then .fin false (m * m) (2 * e) else .fin neg m e) (-200) 512).1

/-- The spilled form (05 R129). -/
def Acc.spill (a : Acc) : BitVec 512 := if a.2 == 0 then a.1 else (1#512 <<< 511) + (if a.2 == 3 then 0 else if a.2 == 1 then 1 else 2)
/-- Merge a spilled form, its three markers read as states (05 R128, R129). -/
def Acc.merge (a : Acc) (w : BitVec 512) : Acc :=
  let m : BitVec 512 := 1#512 <<< 511
  if w == m then a.add 3 0 else if w == m + 1 then a.add 1 0 else if w == m + 2 then a.add 2 0 else (a.1 + w, a.2)

/-- Round num / den to the nearest integer, ties to even. -/
def nearestDiv (num den : Nat) : Nat :=
  let q := num / den
  let r := num % den
  if den < 2 * r ∨ (2 * r = den ∧ q % 2 = 1) then q + 1 else q
/-- The variance of LVAR before its one rounding (09 R219). -/
def variance (a b : Acc) (n : Nat) : FV :=
  if n = 0 ∨ a.2 ≠ 0 ∨ b.2 ≠ 0 then .nan false
  else
    let q := nearestDiv (a.1.toInt.natAbs * a.1.toInt.natAbs) (n * n * 2 ^ 200)
    let v : Int := b.1.toInt - (n * q : Nat)
    if v ≤ 0 then .fin false 0 0 else quotient false v.toNat n (-200)

/-- LZ (09 R216). -/
def execLz (z e' : BitVec 1) (s : State) : Answer :=
  issue (.lz z e') s fun e s => e.next (s.onStrand e.k fun st => st.setAcc e' (0, 0))
/-- LADD (09 R216). -/
def execLadd (z : BitVec 1) (a : BitVec 7) (e' q : BitVec 1) (s : State) : Answer :=
  issue (.ladd z a e' q) s fun e s => e.next (s.onStrand e.k fun st =>
    st.setAcc e' (e.ts.foldl (fun c t => c.term (e.fp 0 a false t) (q == 1)) (st.acc e')))
/-- LST (09 R217): the scratchpad form is written as it issues; the object form is outstanding until the memory side is done. -/
def execLst (z : BitVec 1) (a : BitVec 7) (e' q : BitVec 1) (l : BitVec 4) (s : State) : Answer :=
  issue (.lst z a e' q l) s fun e s =>
    let v := ((e.st.acc e').spill).toNat
    if q == 1 then
      let addr := e.st.upair a.toNat
      match translate s e.die e.ctx addr 64 .write with
      | .error f => e.raise s f.cause f.qual addr
      | .ok x =>
        let item : Item := { t := lowest e.act, addr, dst := memKeys x.bytes, val := v, rol := x.rol }
        e.next (e.launchOp { kind := .store false, acc := some 0, gens := [x.gen], items := [item] } s false)
    else
      let addr := (e.st.sreg a.toNat).toNat
      match scratch e.g addr 64 with
      | .error f => e.raise s f.cause f.qual addr
      | .ok ks =>
        e.next ((s.setMem (writeBytes s.mem ks (leBytes 64 v))).charge e.core e.ctx 5 (occupancy ks))
/-- LMRG (09 R217). -/
def execLmrg (z : BitVec 1) (a : BitVec 7) (e' q : BitVec 1) (l : BitVec 4) (s : State) : Answer :=
  issue (.lmrg z a e' q l) s fun e s =>
    if q == 1 then
      let addr := e.st.upair a.toNat
      match translate s e.die e.ctx addr 64 .read with
      | .error f => e.raise s f.cause f.qual addr
      | .ok x => e.next (e.launchOp { kind := .lmrg e'.toNat, acc := some 0, gens := [x.gen]
                                      items := [{ t := lowest e.act, addr, src := x.bytes, rol := x.rol }] } s)
    else
      let addr := (e.st.sreg a.toNat).toNat
      match scratch e.g addr 64 with
      | .error f => e.raise s f.cause f.qual addr
      | .ok ks =>
        if ks.any s.uncorrectable then e.raise s 0xB2 0 addr
        else e.next ((s.charge e.core e.ctx 5 (occupancy ks)).onStrand e.k fun st =>
          st.setAcc e' ((st.acc e').merge (BitVec.ofNat 512 (leNat (ks.map (readByte s.mem))))))
/-- The FP32 reading of an accumulator, with its flags (09 R218). -/
def Acc.read (a : Acc) (rm : Nat) (fz : Bool) : Nat × Nat :=
  if a.2 == 0 then fp32.round rm fz (ofInt a.1.toInt (-200))
  else (if a.2 == 1 then fp32.infEnc else if a.2 == 2 then fp32.infEnc + fp32.signBit else fp32.qnan, 0)
/-- LRD (09 R218). -/
def execLrd (z : BitVec 1) (d : BitVec 7) (e' : BitVec 1) (s : State) : Answer :=
  issue (.lrd z d e') s fun e s => e.putFlagged 1 d 1 (fun _ => (e.st.acc e').read e.rm e.fz32) s
/-- LVAR (09 R219). -/
def execLvar (z : BitVec 1) (d a : BitVec 7) (s : State) : Answer :=
  issue (.lvar z d a) s fun e s => e.putFlagged 1 d 1 (fun _ =>
    let v := variance (e.st.acc 0) (e.st.acc 1) (e.st.sreg a.toNat).toNat
    if v.isNan then (fp32.qnan, flagInv) else fp32.round e.rm e.fz32 v) s

end Sys2Proof.Machine
end

