-- ==== Sys2Proof/Machine/Matrix.lean ====
section
/-!
DEFINITION. Sys2Proof/Machine/Matrix.lean: plane blocks (05 R119 to R124), accumulator tiles and the matrix instructions up to the
acceptance of a joint operation (10 R246 to R266).
-/

namespace Sys2Proof.Machine

/-- A plane block (05 R119): mantissas of planes, or TS8 codes. -/
structure Block where
  e : Int
  p : Nat
  sfmt : Nat
  dense : Bool
  nz : Nat
  nf : Nat
  nan : Nat
  body : List Nat
  reserved : Bool
  deriving DecidableEq, Repr
def Block.isTs8 (b : Block) : Bool := b.sfmt == 0x15
/-- The block of these bytes (05 R119, R123). -/
def parseBlock (bs : List Byte) : Block :=
  let p := fieldAt bs 1 1
  let f := fieldAt bs 2 1
  let d := fieldAt bs 3 1
  let sfmt := bits f 0 6
  { e := signed 8 (fieldAt bs 0 1), p := blockPlanes bs, sfmt, dense := bits d 0 1 == 1, nz := fieldAt bs 4 4, nf := fieldAt bs 8 4
    nan := fieldAt bs 12 4
    body := if sfmt = 0x15 then ((bs.drop 16).take 32).map (·.toNat) else (List.range (blockPlanes bs)).map fun k => fieldAt bs (16 + 4 * k) 4
    reserved := bits p 5 3 != 0 || bits f 6 2 != 0 || d / 2 != 0 }
/-- The source formats a block may have (05 R107). -/
def blockFormat (f : Nat) : Bool := f == 0x02 || f == 0x04 || (decide (0x10 ≤ f) && decide (f ≤ 0x15))
/-- R124, apart from a layout's PLANES. -/
def Block.ok (b : Block) : Bool :=
  decide (1 ≤ b.p) && decide (b.p ≤ 16) && blockFormat b.sfmt && (!b.isTs8 || b.p == 8) && !b.reserved &&
  Nat.land b.nf b.nz == b.nf && Nat.land b.nan b.nf == b.nan
/-- The mantissa of element i (05 R120). -/
def Block.mant (b : Block) (i : Nat) : Int :=
  let w := (b.body.mapIdx fun k v => bits v i 1 * 2 ^ k).foldl (· + ·) 0
  if b.p = 1 then (if w = 0 then 1 else -1) else signed b.p w
/-- The value of element i (05 R120, R123). -/
def Block.value (b : Block) (i : Nat) : FV :=
  if bits b.nz i 1 = 0 then fvZero
  else if b.isTs8 then ts8Value b.e (b.body.getD i 8)
  else if bits b.nf i 1 = 1 then (if bits b.nan i 1 = 1 then .nan false else .inf (decide (b.mant i < 0)))
  else ofInt (b.mant i) b.e

/-- The exponent of R121 before its clamp, from the largest magnitude. -/
def blockExp (p : Nat) (m : FV) : Int := match m with
  | .fin _ n e =>
    if p = 1 then leadExp n e
    else
      let x := leadExp n e - ((p : Int) - 2)
      if ((2 ^ (p - 1) : Nat) : Int) - 1 < roundInt 0 false n (e - x) then x + 1 else x
  | _ => 0
/-- The largest magnitude of a list of values, if any. -/
def largest (vs : List FV) : Option FV := vs.foldl (fun (m : Option FV) v => match m with
  | none => some v.abs
  | some w => some (if w.lt v.abs then v.abs else w)) none
/-- Bits of a mask from a test of the element numbers. -/
def bitsWhere (f : Nat → Bool) : Nat := (maskWhere f).toNat
/-- 32 values as a block of p planes (05 R121, R122): absent elements are none; the bytes, and the overflow of a clamp (log 39, DEDUCED).
With one plane a stored zero of a dense block reads as +1 (log 121, DESIGN CHOICE). -/
def makeBlock (p sfmt : Nat) (dense : Bool) (xs : List (Option FV)) : List Byte × Nat :=
  let x (i : Nat) : Option FV := xs.getD i none
  let lim : Int := ((2 ^ (p - 1) : Nat) : Int)
  let e0 := match largest (xs.filterMap fun v => match v with | some (.fin n m e) => if m = 0 then none else some (.fin n m e) | _ => none) with
    | none => 0
    | some m => blockExp p m
  let e := max (-128) (min e0 127)
  let raw (i : Nat) : Int := match x i with
    | some (.inf n) => if n then -1 else 0
    | some (.fin n m ex) => if m = 0 then 0 else if p = 1 then (if n then -1 else 1) else roundInt 0 n m (ex - e)
    | _ => 0
  let m (i : Nat) : Int := if p = 1 then raw i else max (-lim) (min (raw i) (lim - 1))
  let clamped := threads.any fun i => m i != raw i
  let nz := bitsWhere fun i => match x i with | some (.fin _ k _) => dense || k != 0 | some _ => true | none => false
  let nf := bitsWhere fun i => match x i with | some (.nan _) | some (.inf _) => true | _ => false
  let nan := bitsWhere fun i => match x i with | some (.nan _) => true | _ => false
  let plane (k : Nat) : Nat := bitsWhere fun i => if p = 1 then decide (m i < 0) else bits (unsigned p (m i)) k 1 == 1
  (leBytes 1 (unsigned 8 e) ++ leBytes 1 p ++ leBytes 1 sfmt ++ leBytes 1 (if dense then 1 else 0) ++ leBytes 4 nz ++ leBytes 4 nf ++
    leBytes 4 nan ++ (List.range p).flatMap (fun k => leBytes 4 (plane k)), if clamped then flagOvf else 0)
/-- 32 values as a TS8 block (05 R123, 10 R261): the bytes and the flags of R117. E is clamped to its byte, and the codes are those at the
clamped scale (log 113, DESIGN CHOICE). -/
def makeTs8 (dense : Bool) (xs : List (Option FV)) : List Byte × Nat :=
  let s : Int := match largest (xs.filterMap fun v => match v with | some (.fin n m e) => if m = 0 then none else some (.fin n m e) | _ => none) with
    | some (.fin _ m e) => leadExp m e
    | _ => 0
  let e := max (-128) (min s 127)
  let cs : List (Nat × Nat) := (List.range 32).map fun i => match xs.getD i none with | some v => toTs8 e v | none => (0x08, 0)
  let nz := bitsWhere fun i => (xs.getD i none).isSome && (dense || ts8Int (cs.getD i (8, 0)).1 != 0)
  (leBytes 1 (unsigned 8 e) ++ leBytes 1 8 ++ leBytes 1 0x15 ++ leBytes 1 (if dense then 1 else 0) ++ leBytes 4 nz ++ leBytes 8 0 ++
    cs.flatMap (fun c => leBytes 1 c.1), unionFlags (cs.map (·.2)))

/-- A scratchpad block of n bytes at a uniform address, with its failure raised for the whole strand (10 R261, R262, R264). -/
def Env.block (e : Env) (u n al : Nat) : Except Failed Nat := scratchRange e.g (e.st.sreg u).toNat n al
/-- PLN (10 R261). -/
def execPln (z : BitVec 1) (a : BitVec 7) (u : BitVec 6) (p : BitVec 4) (e' : BitVec 1) (c : BitVec 2) (s : State) : Answer :=
  issue (.pln z a u p e' c) s fun e s =>
    let planes := if p == 0 then 16 else p.toNat
    let xs : List (Option FV) := (List.range 32).map fun t =>
      let w := e.get 0 a 1 t
      if !has e.act t then none
      else some (if c == 1 then fp16.value (bits w 0 16) else if c == 2 then bf16.value (bits w 0 16) else fp32.value w)
    let (bytes, fl) := if c == 3 then makeTs8 (e' == 1) xs else makeBlock planes (0x10 + c.toNat) (e' == 1) xs
    let addr := (e.st.sreg u.toNat).toNat
    match e.block u.toNat bytes.length 16 with
    | .error f => e.raise s f.cause f.qual addr
    | .ok k =>
      let ks := keysFrom k bytes.length
      e.flaggedOnce fl (fun s => (s.setMem (writeBytes s.mem ks bytes)).charge e.core e.ctx 5 (occupancy ks)) s
/-- The element of a block in a target format, with its flags (10 R262, 08 R195). -/
def blockElement (nfr : Word) (rm : Nat) (b : Block) (tgt i : Nat) : Nat × Nat :=
  let v := b.value i
  if isIntFmt tgt then
    let (n, f) := toIntFmt tgt rm false v
    (unsigned 32 n, f)
  else writeFloat nfr rm tgt v
/-- UPLN (10 R262). -/
def execUpln (z : BitVec 1) (d : BitVec 7) (u : BitVec 6) (t : BitVec 2) (s : State) : Answer :=
  issue (.upln z d u t) s fun e s =>
    let addr := (e.st.sreg u.toNat).toNat
    match e.block u.toNat 16 16 with
    | .error f => e.raise s f.cause f.qual addr
    | .ok k =>
      let hd := parseBlock (readAt s.mem k 16)
      let n := if hd.isTs8 then 48 else 16 + 4 * hd.p
      if !hd.ok then e.raise s 0x27 0 addr
      else match e.block u.toNat n 16 with
        | .error f => e.raise s f.cause f.qual addr
        | .ok _ =>
          if (keysFrom k n).any s.uncorrectable then e.raise s 0xB2 0 addr
          else
            let b := parseBlock (readAt s.mem k n)
            let tgt := if t == 0 then b.sfmt else 0x0F + t.toNat
            e.putFlagged 0 d 1 (blockElement e.p.nfr e.rm b tgt) (s.charge e.core e.ctx 5 (occupancy (keysFrom k n)))

/-- The key of element (i, n) of a tile. -/
def tileKey (t i n : Nat) : Nat := t * 1024 + i * 64 + n
def Gang.window (g : Gang) (t : Nat) : Int := (rd 0 g.windows t).toInt
def Gang.elem (g : Gang) (t i n : Nat) : TileElem := rd {} g.tiles (tileKey t i n)
/-- Keep a tile element in its range (05 R127). -/
def clampTile (v : Int) (nf ovf : Bool) : TileElem :=
  let hi : Int := (2 ^ 95 : Nat) - 1
  if hi < v then { t := BitVec.ofInt 96 hi, nf, ovf := true } else if v < -hi - 1 then { t := BitVec.ofInt 96 (-hi - 1), nf, ovf := true }
  else { t := BitVec.ofInt 96 v, nf, ovf }

/-- MZ (10 R263): its wait is that of R257. -/
def execMz (z : BitVec 1) (n : BitVec 3) (w : BitVec 9) (s : State) : Answer :=
  issue (.mz z n w) s fun e s =>
    if !e.team then e.raise s 0x0C
    else e.next (s.onGang e.st.gang fun g => { g with
      tiles := g.tiles.filter fun x => x.1 / 1024 != n.toNat, windows := wr 0 g.windows n.toNat w })
/-- One tile element as FP32 or BF16 (10 R266). -/
def readElem (f : FFmt) (rm : Nat) (fz : Bool) (x : TileElem) (w : Int) : Nat × Nat :=
  if x.nf then (f.qnan, 0)
  else if x.ovf then (f.infEnc + (if x.t.toInt < 0 then f.signBit else 0), flagOvf)
  else f.round rm fz (ofInt x.t.toInt w)
/-- MRD (10 R266): one that raises 0x0C runs no beat (14 R364; log 49, DEDUCED). -/
def execMrd (z : BitVec 1) (d : BitVec 7) (n : BitVec 3) (r : BitVec 4) (l : BitVec 3) (h f : BitVec 1) (unpaid : State) : Answer :=
  issue (.mrd z d n r l h f) unpaid fun e s =>
    if !e.team then e.raise (e.payIdle false (unpaid.setStrand e.k e.st)) 0x0C
    else
      let w := e.g.window n.toNat
      let rows := 2 ^ l.toNat
      e.putFlagged 0 d rows (fun t => (List.range rows).foldl (fun (a : Nat × Nat) k =>
        let i := r.toNat + k
        let one : Nat × Nat :=
          if f == 0 then readElem fp32 e.rm e.fz32 (e.g.elem n.toNat i (32 * h.toNat + t)) w
          else
            let lo := readElem bf16 e.rm e.fz16 (e.g.elem n.toNat i t) w
            let hi := readElem bf16 e.rm e.fz16 (e.g.elem n.toNat i (32 + t)) w
            (lo.1 + 2 ^ 16 * hi.1, orFlags lo.2 hi.2)
        (a.1 + one.1 * 2 ^ (32 * k), orFlags a.2 one.2)) (0, 0)) s
/-- MLD (10 R264): it enters the core's matrix queue. -/
def execMld (z : BitVec 1) (n : BitVec 3) (u : BitVec 6) (g : BitVec 1) (l : BitVec 4) (s : State) : Answer :=
  issue (.mld z n u g l) s fun e s =>
    let size := if g == 1 then 16384 else 4096
    if !e.team then e.raise s 0x0C
    else match e.block u.toNat size 128 with
      | .error f => e.raise s f.cause f.qual (e.st.sreg u.toNat).toNat
      | .ok k =>
        let (id, s1) := e.start { kind := .mld n.toNat k (g == 1) e.rm, acc := some 2, outstanding := false } s
        e.next (((s1.onCore e.core fun c => { c with queue := c.queue ++ [id] }).charge e.core e.ctx 4 16).charge e.core e.ctx 5 (size / 1024))

/-- What a member's operation reads, once its checks pass: its quarters, and the bytes read from the scratchpad (10 R249 to R253). -/
structure Member4 where
  bufA : OpBuffer
  bufB : OpBuffer
  read : Nat
  /-- a byte read, or an operand buffer it uses, cannot be corrected (10 R255; log 4, DESIGN CHOICE) -/
  bad : Bool
  deriving DecidableEq, Repr
/-- A quarter read from the scratchpad: the first failing check (10 R249, R250, R253). -/
def readQuarter (s : State) (g : Gang) (a rows kb bs p : Nat) (ts8 k512 : Bool) : Except (Nat × Nat) OpBuffer :=
  match scratchRange g a (rows * kb * bs) 16 with
  | .error f => .error (f.cause, a)
  | .ok k => .ok { ts8, planes := p, k512, data := readAt s.mem k (rows * kb * bs) }
/-- Every block of a quarter meets R124 and R250. -/
def OpBuffer.blocksOk (b : OpBuffer) : Bool :=
  let bs := if b.ts8 then 48 else 16 + 4 * b.planes
  (List.range (16 * (if b.k512 then 16 else 8))).all fun i =>
    let x := parseBlock ((b.data.drop (i * bs)).take 16)
    x.ok && x.isTs8 == b.ts8 && x.p == b.planes
/-- The checks of one member (10 R253 steps 3 to 5): its failing cause and address (log 40, DESIGN CHOICE). The address of
a quarter that the buffer gives is not checked (log 122, DESIGN CHOICE); a header with an error passes as its bytes stand (log 123, DESIGN CHOICE). -/
def memberCheck (s : State) (core : Nat) (g : Gang) (mmt : Bool) (a b : Nat) (ra rb : Bool) (pb : Nat) : Except (Nat × Nat) Member4 :=
  let kb := if mmt then 16 else 8
  let pa : Except (Nat × Nat) Nat :=
    if ra then .ok 0 else if mmt then .ok 8
    else match scratchRange g a 16 16 with
      | .error f => .error (f.cause, a)
      | .ok k => .ok (parseBlock (readAt s.mem k 16)).p
  match pa with
  | .error f => .error f
  | .ok pa =>
    let bsA := if mmt then 48 else 16 + 4 * pa
    let bsB := 16 + 4 * pb
    let qa : Except (Nat × Nat) (Option OpBuffer) := if ra then .ok none else (readQuarter s g a 16 kb bsA pa mmt mmt).map some
    let qb : Except (Nat × Nat) (Option OpBuffer) := if rb then .ok none else (readQuarter s g b 16 kb bsB pb false mmt).map some
    match qa, qb with
    | .error f, _ => .error f
    | _, .error f => .error f
    | .ok qa, .ok qb =>
      let useA : Option OpBuffer := match qa with
        | some q => some q
        | none => g.bufA.filter fun x => x.ts8 == mmt && x.k512 == mmt
      let useB : Option OpBuffer := match qb with
        | some q => some q
        | none => g.bufB.filter fun x => x.planes == pb && x.k512 == mmt
      match useA, useB with
      | some x, some y =>
        if !(ra || (decide (1 ≤ pa) && x.blocksOk)) then .error (0x27, a)
        else if !(rb || y.blocksOk) then .error (0x27, b)
        else
          let keys (on : Bool) (at' n : Nat) : List Nat := if on then [] else match scratchRange g at' n 16 with
            | .ok k => keysFrom k n
            | .error _ => []
          .ok { bufA := x, bufB := y, read := (if ra then 0 else x.data.length) + (if rb then 0 else y.data.length)
                bad := (keys ra a x.data.length ++ keys rb b y.data.length).any s.uncorrectable ||
                  (ra && s.phys.badBuf.contains (2 * core)) || (rb && s.phys.badBuf.contains (2 * core + 1)) }
      | _, _ => .error (0x0D, 0)

/-- An unmatched entry leaves the match list (10 R247, R248). -/
def State.withdraw (s : State) (id : Nat) : State := match s.op id with
  | none => s
  | some o => (s.onCore o.core fun c => { c with matchList := c.matchList.filter (· != id) }).dropOp id
/-- The path of an operation of an undivided strand is path 0. -/
def Op.pathOf (o : Op) : Nat := if o.path = 2 then 0 else o.path

/-- What two entries must agree on (10 R247). -/
def mmaKey (o : Op) : Option (Nat × Bool × Nat × Nat) := match o.kind with
  | .mma t mmt _ _ _ _ pb tag _ => some (t, mmt, pb, tag)
  | _ => none
/-- Raise a cause at a member and remove its entry. -/
def failMember (s : State) (id cause qual addr aux : Nat) : State := match s.op id with
  | none => s
  | some o => (s.withdraw id).raiseHeld o.strand o.pathOf cause qual addr aux true
/-- Accept one member's entry (10 R253): it joins the mx path and the core's queue, and its path goes on (log 40, DESIGN CHOICE). -/
def acceptMember (s : State) (id : Nat) (m : Member4) : State := match s.op id with
  | none => s
  | some o => match o.kind with
    | .mma t mmt a b ra rb pb tag _ =>
      let o' := { o with kind := .mma t mmt a b ra rb pb tag true, acc := some 2, outstanding := false, data := [m.bufA.data, m.bufB.data]
                         items := if m.bad then [{ t := 0, bad := 0xB2 }] else [] }
      let s1 := (s.setOp id o').onCore o.core fun c => { c with matchList := c.matchList.filter (· != id), queue := c.queue ++ [id] }
      ((s1.charge o.core o.ctx 4 (4 * pb)).charge o.core o.ctx 5 ((m.read + 1023) / 1024)).passHeld o.strand o.pathOf
    | _ => s
/-- Every buffer of a team is emptied (10 R252), as the fault is found (log 124, DESIGN CHOICE). -/
def State.emptyBuffers (s : State) (os : List Op) : State :=
  os.foldl (fun s o => s.onGang o.gang fun g => { g with bufA := none, bufB := none }) s
/-- An entry reuses a buffer while a joint operation its core has accepted is not committed: what the buffer will hold is not known, and
the entries wait at the match (10 R252, R253; log 93, DEDUCED). -/
def reuseWaits (s : State) (o : Op) : Bool := (match o.kind with | .mma _ _ _ _ ra rb _ _ _ => ra || rb | _ => false) &&
  (s.core o.core).queue.any fun id => match s.op id with | some p => (mmaKey p).isSome | none => false
/-- Form a joint operation when every list of the quad holds an entry (10 R247, R253, R254): one that faults empties the buffers (10 R252). -/
def State.formJoint (s : State) (quad : Nat) : State :=
  let heads := (List.range 4).filterMap fun c => (s.core (quadCore quad c)).matchList.head?
  let os := heads.filterMap s.op
  if heads.length ≠ 4 ∨ os.length ≠ 4 then s
  else if !os.all fun o => mmaKey o == mmaKey (os.getD 0 o) then (heads.foldl (fun s id => failMember s id 0x0B 0x1B 0 0) s).emptyBuffers os
  else if os.any (reuseWaits s) then s
  else
    let checks : List (Except (Nat × Nat) Member4) := os.map fun o => match o.kind, s.gang o.gang with
      | .mma _ mmt a b ra rb pb _ _, some g => memberCheck s o.core g mmt a b ra rb pb
      | _, _ => .error (0x0B, 0)
    let failing : Nat := (checks.mapIdx fun i c => match c with | .error _ => 2 ^ i | .ok _ => 0).foldl (· + ·) 0
    if failing = 0 then
      (heads.zip checks).foldl (fun s x => match x.2 with | .ok m => acceptMember s x.1 m | .error _ => s) s
    else
      ((heads.zip checks).foldl (fun s x => match x.2 with
        | .error (c, a) => failMember s x.1 c 0 a 0
        | .ok _ => failMember s x.1 0x0B 0x1D 0 failing) s).emptyBuffers os

/-- Form joint operations as long as every list of the quad holds an entry (10 R247). -/
def State.formAll (s : State) (quad : Nat) : State :=
  (List.range (s.core (quadCore quad 0)).matchList.length).foldl (fun (s : State) _ => s.formJoint quad) s

/-- MMA and MMT: the entry joins its core's match list, and the path waits for acceptance, in its run where it is accepted at once (10
R247, R248; 12 R285), or issues again once a marked gang is back (12 R307). `unpaid` is s without the chain's charge, which acceptance makes. -/
def Env.joint (e : Env) (mmt : Bool) (n : BitVec 3) (u : BitVec 5) (ra rb : BitVec 1) (p : BitVec 4) (unpaid s : State) : State :=
  if !e.team then e.raise s 0x0C
  else
    let pb := if p == 0 then 16 else p.toNat
    let (id, s1) := (unpaid.setStrand e.k e.st).fresh
    let o : Op := {
      kind := .mma n.toNat mmt (e.st.sreg (2 * u.toNat)).toNat (e.st.sreg (2 * u.toNat + 1)).toNat (ra == 1) (rb == 1) pb
        ((e.h.ttag.map (·.toNat)).getD 0) false
      strand := e.k, gang := e.st.gang, ctx := e.ctx, core := e.core, path := e.opPath, pc := e.chain, mask := e.act, active := e.p.act, named := e.vregsNamed, born := s.now }
    let s2 := ((s1.setOp id o).onCore e.core fun c => { c with matchList := c.matchList ++ [id] }).formJoint (quadOf e.core)
    match (s2.op id).map Op.kind with
    | some (.mma _ _ _ _ _ _ _ _ false) => e.hold (if e.withdrawn then s2.withdraw id else s2)
    | _ => s2
/-- MMA (10 R265). -/
def execMma (z : BitVec 1) (n : BitVec 3) (u : BitVec 5) (a b : BitVec 1) (p : BitVec 4) (l : BitVec 4) (s : State) : Answer :=
  issue (.mma z n u a b p l) s fun e => e.joint false n u a b p s
/-- MMT (10 R265). -/
def execMmt (z : BitVec 1) (n : BitVec 3) (u : BitVec 5) (a b : BitVec 1) (p : BitVec 4) (l : BitVec 4) (s : State) : Answer :=
  issue (.mmt z n u a b p l) s fun e => e.joint true n u a b p s

end Sys2Proof.Machine
end

