-- ==== Sys2Proof/Machine/Surrogate.lean ====
section
/-!
DEFINITION. Sys2Proof/Machine/Surrogate.lean: the Garnet engine's models, regions and recovery as instructions meet them (09
R220 to R244).
-/

namespace Sys2Proof.Machine

/-- SRG (09 R228): its results are written as it issues (log 41, DESIGN CHOICE); in a handler the entries are the handler's (log 33,
DEDUCED). -/
def execSrg (z : BitVec 1) (j : BitVec 16) (l : BitVec 4) (s : State) : Answer :=
  issue (.srg z j l) s fun e paid =>
    let s := paid.chargeHomes e.core e.ctx (e.srgLines paid)
    match e.srgCheck j s with
    | .error (c, q, a) => e.raise (s.charge e.core e.ctx 2 1) c q a
    | .ok (r, g, m) =>
      if e.srgPasses r s then e.next (s.charge e.core e.ctx 2 1)
      else if e.srgUnread r g m s then e.raise (s.charge e.core e.ctx 2 1) 0xB2
      else
        let fl := s.regionNat e.ctx r 56 8
        let q := e.srgQuality r g s
        let as := e.srgAnswers g m q s
        let queued := e.srgQueued r q as
        let good := as.filter (·.2.2)
        let entries : List RecEntry := queued.map fun x =>
          { ctx := e.ctx, region := r, header := e.g.task.entry, pc := e.pc, source := e.k, srcSlot := slotOf e.k, srcThread := x.1
            srcAllot := e.st.allot, sample := x.2.2, args := g.args.map fun c => e.st.vreg c x.1, ys := x.2.1.map (BitVec.ofNat 32)
            argRegs := g.args, resRegs := g.res, handler := e.st.mode == .handler }
        let s0 := if bits fl 0 1 = 1 then s else (s.regionWrite e.ctx r 0 (g.qual.take 16)).regionWrite e.ctx r 56 (leBytes 8 (fl + 1))
        let s1 := s0.onStrand e.k fun st =>
          let st1 := good.foldl (fun st x => (g.res.zip x.2.1).foldl (fun st y => st.setV y.1 x.1 (BitVec.ofNat 32 y.2)) st) st
          { st1 with srgCount := st1.srgCount + 1, pending := st1.pending + entries.length }
        let s2 := s1.onCore e.core fun c => { c with recq := c.recq ++ entries }
        let s3 := s2.sendUpdate { ctx := e.ctx, region := r, strand := e.k, calls := as.length
                                  fallb := as.length - good.length, samp := (queued.filter (·.2.2)).length }
        e.finish (some (e.pc + 4 * j.setWidth 32)) false (s3.charge e.core e.ctx 3 1)

/-- SLD (09 R224, R241): the header is read, then the rest, in elements of four bytes (log 114, DESIGN CHOICE), and the lines read are charged (14
R364). -/
def execSld (z : BitVec 1) (m p : BitVec 7) (l : BitVec 4) (s : State) : Answer :=
  issue (.sld z m p l) s fun e s =>
    let a := e.st.upair p.toNat
    match readObject s e.die e.ctx a 4 32 with
    | .error f => e.raise s f.cause f.qual a
    | .ok hd =>
      let read (n : Nat) : State := s.chargeHomes e.core e.ctx (objectLines s e.die e.ctx a 4 n)
      let n := (parseModel hd).size / 4
      if !(parseModel hd).headerOk then e.raise (read 32) 0xA1 0 a
      else match readObject s e.die e.ctx (a + 128) 4 (n - 32) with
        | .error f => e.raise (read 32) f.cause f.qual a
        | .ok body =>
          if !(parseModel (hd ++ body)).bodyOk then e.raise (read n) 0xA1 0 a
          else e.next (e.start { kind := .sld m.toNat (hd ++ body) } (read n)).2
/-- SSW (09 R241). -/
def execSsw (z : BitVec 1) (m : BitVec 7) (l : BitVec 4) (s : State) : Answer :=
  issue (.ssw z m l) s fun e s =>
    match s.ctx e.ctx with
    | none => e.next s
    | some c =>
      let b := bits c.mactive.toNat m.toNat 1
      if bits c.mfilled.toNat (2 * m.toNat + (1 - b)) 1 = 0 then e.raise s 0xA1 0x20
      else
        let s1 := s.setCtx e.ctx { c with mactive := c.mactive ^^^ (1 <<< m.toNat) }
        e.next (e.start { kind := .bankSwap true m.toNat s.allCores } s1).2

/-- The bytes of four uniform registers. -/
def Strand.quadBytes (st : Strand) (u : Nat) : List Byte := leBytes 16 (st.uniN u 4)
/-- QSET (09 R242): the record is checked as it issues, and every core uses it once the operation completes (log 41, DESIGN CHOICE). -/
def execQset (z : BitVec 1) (u : BitVec 7) (l : BitVec 4) (s : State) : Answer :=
  issue (.qset z u l) s fun e s => match e.region with
    | none => e.raise s 0xA0
    | some r =>
      let bs := e.st.quadBytes u.toNat
      let b := fp32.value (parseQuality bs).bound
      if qualityReserved bs || !b.isFinite || (b.sign && !b.isZero) then e.raise s 0xA0
      else e.next (e.start { kind := .qset r, data := [bs] } s).2
/-- SCTR (09 R243; log 41, DESIGN CHOICE): a record that it cannot read, or cannot reach to write, raises 0xB2 (01 R22, 02 R49; log 106,
DESIGN CHOICE). -/
def execSctr (z : BitVec 1) (u : BitVec 7) (o : BitVec 2) (l : BitVec 4) (s : State) : Answer :=
  issue (.sctr z u o l) s fun e s => match e.region with
    | none => e.raise s 0xA0
    | some r =>
      if o == 2 then
        if s.regionCut e.die e.ctx r 16 40 then e.raise s 0xB2 else
        let viol0 := s.regionWrite e.ctx r 16 (leBytes 16 0)
        e.next (viol0.regionWrite e.ctx r 32 (leBytes 24 0))
      else if s.regionFails e.die e.ctx r then e.raise s 0xB2
      else
        let v := if o == 0 then s.regionNat e.ctx r 40 16 else s.regionNat e.ctx r 16 6 + s.regionNat e.ctx r 24 6 * 2 ^ 64
        e.next (s.onStrand e.k fun st => st.setSGroup u.toNat 4 v)
/-- SDIS (09 R244; log 41, DESIGN CHOICE): it reads the record's flags and sets one (01 R22, 02 R49; log 106, DESIGN CHOICE). -/
def execSdis (z : BitVec 1) (s : State) : Answer :=
  issue (.sdis z) s fun e s => match e.region with
    | none => e.raise s 0xA0
    | some r => if s.regionFails e.die e.ctx r then e.raise s 0xB2 else e.next (s.disableRegion e.ctx r 1)

end Sys2Proof.Machine
end

