-- ==== Sys2Proof/Machine/TaskBase.lean ====
section
/-!
DEFINITION. Sys2Proof/Machine/TaskBase.lean: task records and kernel headers (06 R150, R151; 13 R317, R318), quad queues and the
spill (13 R321, R322; 12 R302), quiescence domains (13 R327 to R330) and fault records that name no strand (14 R347).
-/

namespace Sys2Proof.Machine

def noDomain : Nat := 0xFFFFFFFF

/-- A task record of 64 bytes (13 R317). -/
def parseTask (bs : List Byte) : Task :=
  let c := fieldAt bs 16 8
  let d := fieldAt bs 40 8
  let x := fieldAt bs 48 8
  let g := fieldAt bs 56 8
  { entry := fieldAt bs 0 8, argp := fieldAt bs 8 8, tc0 := bits c 0 16, tc1 := bits c 16 16, tc2 := bits c 32 16, tc3 := bits c 48 16
    succ := fieldAt bs 24 8, weight := fieldAt bs 32 8, domain := bits d 0 32, ctx := bits d 32 16, kind := bits d 48 1
    prio := bits d 49 2, graph := bits d 51 1 == 1, ex0 := bits x 0 16, ex1 := bits x 16 16, ex2 := bits x 32 16, nsg := bits x 48 8
    gen := bits g 0 32, reserved := bits d 52 12 != 0 || bits x 56 8 != 0 || bits g 32 32 != 0 }
/-- The 64 bytes of a record the device forms (13 R317). -/
def Task.bytes (t : Task) : List Byte :=
  leBytes 8 t.entry ++ leBytes 8 t.argp ++ leBytes 2 t.tc0 ++ leBytes 2 t.tc1 ++ leBytes 2 t.tc2 ++ leBytes 2 t.tc3 ++
  leBytes 8 t.succ ++ leBytes 8 t.weight ++ leBytes 4 t.domain ++ leBytes 2 t.ctx ++
  leBytes 2 (t.kind + 2 * t.prio + (if t.graph then 8 else 0)) ++ leBytes 2 t.ex0 ++ leBytes 2 t.ex1 ++ leBytes 2 t.ex2 ++
  leBytes 2 t.nsg ++ leBytes 4 t.gen ++ leBytes 4 0

/-- A kernel header of 64 bytes (06 R150). -/
def parseHeader (bs : List Byte) : Header :=
  let a := fieldAt bs 4 4
  let b := fieldAt bs 16 4
  { version := fieldAt bs 0 1, nstr := fieldAt bs 1 1, nload := fieldAt bs 2 1, nstore := fieldAt bs 3 1, vregs := bits a 0 8
    carve := bits a 8 2, team := bits a 10 1 == 1, direct := fieldAt bs 8 4, keyu := fieldAt bs 12 2, nbcore := bits b 0 5
    nbquad := bits b 5 6, nbdie := bits b 11 7, nbpkg := bits b 18 7, nbpod := bits b 25 5, entryOff := fieldAt bs 24 4
    handlerOff := fieldAt bs 28 4, regtab := fieldAt bs 32 8 }
/-- A reserved bit of a header is set (06 R150). -/
def headerReserved (bs : List Byte) : Bool :=
  bits (fieldAt bs 4 4) 11 21 != 0 || fieldAt bs 14 2 != 0 || bits (fieldAt bs 16 4) 30 2 != 0 || fieldAt bs 20 4 != 0 ||
  (bs.drop 40).take 24 != List.replicate 24 0
/-- The checks of R151 after the version (06 R151); whether a gang fits an empty core is `fitsEmpty`'s (12 R305). -/
def headerOk (bs : List Byte) : Bool :=
  let h := parseHeader bs
  !headerReserved bs && decide (1 ≤ h.nstr) && decide (h.nstr ≤ 32) && decide (h.nload + h.nstore ≤ h.nstr) &&
  h.vregs % 8 == 0 && decide (h.vregs ≤ 112) && decide (h.nbcore ≤ 16) &&
  decide (h.nbquad ≤ 32) && decide (h.nbdie ≤ 64) && decide (h.nbpkg ≤ 64) && decide (h.nbpod ≤ 16) && h.entryOff % 4 == 0 &&
  h.handlerOff % 4 == 0
/-- A cause and its qualifier. -/
abbrev Cause := Nat × Nat
/-- Read and check a kernel header (06 R151). -/
def readHeader (s : State) (ctx addr : Nat) : Except Cause Header :=
  if addr % 64 ≠ 0 then .error (0x0A, 0)
  else match translate s 0 ctx addr 64 .read with
    | .error f => .error (f.cause, f.qual)
    | .ok l =>
      let c := s.readCause 0 (memKeys l.bytes)
      let bs := l.bytes.map (Src.read s.mem)
      let v := fieldAt bs 0 1
      if c ≠ 0 then .error (c, 0)
      else if v < 1 ∨ 3 < v ∨ bits s.caps (34 + v) 1 = 0 then .error (0x02, 0)
      else if !headerOk bs then .error (0x0A, 0)
      else .ok (parseHeader bs)
/-- The initial allotment (12 R282). -/
def Header.allot (h : Header) : Nat := if h.vregs = 0 then 32 else h.vregs

/-- Bytes of a fault record that names no strand (14 R347). -/
def strandlessRecord (s : State) (cause qual ctx addr aux task : Nat) : List Byte :=
  leBytes 4 (cause + qual * 2 ^ 8 + 3 * 2 ^ 20 + ctx % 64 * 2 ^ 24) ++ leBytes 20 0 ++ leBytes 8 addr ++ leBytes 8 aux ++ leBytes 8 task ++
  leBytes 8 (dieCycle 0 s.now) ++ leBytes 72 0
/-- A record waits for its context's fault queue (14 R349, R350). -/
def State.appendFault (s : State) (ctx cause : Nat) (record : List Byte) (toHost : Bool) : State :=
  s.setPkg { s.pkg with faultWait := s.pkg.faultWait ++ [{ ctx, cause, record, toHost }] }

/-- Write a field of a domain record (13 R327). -/
def State.domainPut (s : State) (id o n v : Nat) : State :=
  let (d, a) := domainAt s id
  s.setMem (writeNat s.mem (onyxKey d (a + o)) n v)
/-- Some gang still holds a secondary of the domain. -/
def secondaryHeld (s : State) (id : Nat) : Bool := s.gangs.any fun g => match g.2.sec with | some h => h.domain == id | none => false
/-- A domain that no gang will wait on is freed once it is quiet (13 R337). -/
def State.freeDomain (s : State) (id : Nat) : State :=
  let f := domainNat s id 24 4
  if domainQuiet s id && bits f 3 1 == 0 && !secondaryHeld s id then s.domainPut id 24 4 (f / 2 * 2) else s
/-- Add weight to ISSUED (13 R329). -/
def State.domainIssue (s : State) (id w : Nat) : State := s.domainPut id 0 12 (domainNat s id 0 12 + w)
/-- Return weight to a domain, which `broken` breaks (13 R328, R330). -/
def State.domainReturned (s : State) (id ctx w : Nat) (broken : Bool) : State :=
  if id = noDomain || !domainValid s id ctx then s
  else
    let s1 := s.domainPut id 12 12 (domainNat s id 12 12 + w)
    let s2 := if broken then s1.domainPut id 24 4 (Nat.lor (domainNat s1 id 24 4) 2) else s1
    s2.freeDomain id
/-- Split a holding (13 R329): the child's weight and the holding; none when the borrow finds no valid domain. -/
def State.split (s : State) (h : Holding) (ctx : Nat) : Option (Nat × Holding × State) :=
  if h.domain = noDomain then some (0, h, s)
  else if h.weight = 1 then
    if !domainValid s h.domain ctx then none
    else
      let w := 1 + 2 ^ 32
      some (w / 2, { h with weight := w - w / 2 }, s.domainIssue h.domain (2 ^ 32))
  else some (h.weight / 2, { h with weight := h.weight - h.weight / 2 }, s)
/-- Send a message of weight on its way (13 R325, R328), and its number. -/
def State.sendAs (s : State) (m : Msg) : Nat × State :=
  let (n, s1) := s.fresh
  (n, s1.setPkg { s1.pkg with msgs := upd s1.pkg.msgs n (some m) })
def State.send (s : State) (m : Msg) : State := (s.sendAs m).2
/-- A message has been accepted where it was going: a DONE that sent it is complete (13 R335). -/
def State.received (s : State) (m : Nat) : State :=
  let s1 := s.setPkg { s.pkg with msgs := upd s.pkg.msgs m none }
  (s1.ops.filter fun x => x.2.kind == .done m).foldl (fun (s : State) x => s.finishOp x.1) s1
/-- A record of a SPWN has been accepted by a queue or the spill, or has been rejected (13 R333). -/
def State.accepted (s : State) (op : Option Nat) : State := match op with
  | none => s
  | some id => match s.op id with
    | some o => match o.kind with
      | .spwn n => if n ≤ 1 then s.finishOp id else s.setOp id { o with kind := .spwn (n - 1) }
      | _ => s
    | none => s

/-- A gang of a launch has ended; with the last one the launch ends, and its DIE and PKG slots are freed (13 R319, R338). -/
def State.launchEnded (s : State) (l : Nat) : State := match look s.pkg.launches l with
  | none => s
  | some x =>
    if x.ended + 1 < x.n then s.setPkg { s.pkg with launches := upd s.pkg.launches l (some { x with ended := x.ended + 1 }) }
    else
      let s1 := s.setPkg { s.pkg with launches := upd s.pkg.launches l none }
      { s1 with bars := s1.bars.filter fun b => b.1 / 64 != l * 8 + 3 && b.1 / 64 != l * 8 + 4 }

/-- Take a pin of a generation (01 R33; log 47, DEDUCED). -/
def State.pin (s : State) (ctx obj gen : Nat) : State :=
  let ps := s.pkg.pins
  let same (p : Pin) : Bool := p.ctx == ctx && p.obj == obj && p.gen == gen
  s.setPkg { s.pkg with pins := if ps.any same then ps.map fun p => if same p then { p with count := p.count + 1 } else p
                                else ps ++ [{ ctx, obj, gen, count := 1 }] }
/-- Release a pin (01 R33): the last one of a generation ends when its release reaches the home unit (PIN_RELEASE). -/
def State.unpin (s : State) (ctx obj gen : Nat) : State :=
  let same (p : Pin) : Bool := p.ctx == ctx && p.obj == obj && p.gen == gen
  s.setPkg { s.pkg with pins := s.pkg.pins.map fun p => if same p then { p with count := p.count - 1 } else p }
/-- The graph object of a record (13 R326). -/
def Task.graphObj (t : Task) : Nat := t.succ / 2 ^ 40
/-- The generation a graph record pins when it is taken, if it can (13 R318, R326). -/
def graphGen (s : State) (t : Task) : Option Nat := match record s 0 t.ctx t.graphObj with
  | none => none
  | some r =>
    if (recordBad s 0 t.ctx r r.current).isSome then none
    else if t.gen = 0xFFFFFFFF ∨ t.gen = r.current.gen then some r.current.gen
    else if pinnedGen s t.ctx t.graphObj t.gen then some t.gen else none

/-- A record is rejected (13 R318, R330): its weight returns to a domain that breaks, and its fault record names it. -/
def State.reject (s : State) (t : Task) (origin addr cause qual : Nat) : State :=
  let hostWeight := origin == 0 && qual == 0x27
  let s1 := if hostWeight then s else s.domainReturned t.domain t.ctx t.weight true
  let s2 := s1.appendFault (t.ctx % 64) cause (strandlessRecord s1 cause qual t.ctx 0 (if addr = 0 then t.entry else 0) addr) true
  if origin ≠ 0 then s2
  else
    let w := s2.win
    if bits w.tkstat.toNat 16 16 = 65535 then s2 else s2.setPkg { s2.pkg with win := { w with tkstat := w.tkstat + (1#64 <<< 16) } }

/-- The quads of the present dies, excluded ones apart (12 R302, 14 R369). -/
def State.quadsIn (s : State) : List Nat := (s.dieSet.flatMap fun d => (List.range 34).map (d * 34 + ·)).filter fun q => !(s.quad q).excluded
/-- A quad-column reading (12 R302). -/
def State.reading (s : State) (q : Nat) : Nat := max (s.quad q).tcd.toNat (s.quad q).tbd.toNat
def State.ceiling (s : State) : Nat := bits s.win.plceil.toNat 0 8
/-- The gangs resident on a core and on a quad. -/
def State.residents (s : State) (core : Nat) : List (Nat × Gang) := s.gangs.filter fun g => g.2.core == core && g.2.resident
def State.quadGangs (s : State) (q : Nat) : Nat := (s.gangs.filter fun g => quadOf g.2.core == q && g.2.resident).length
/-- The free entries of a quad's queue, those reserved for records on their way apart (13 R321, R333; log 46, DESIGN CHOICE; log 68, DEDUCED). -/
def State.room (s : State) (q : Nat) : Nat := 2048 - (s.quad q).queue.length - (s.pkg.port.filter fun r => r.quad == some q).length
/-- The element of a list with the least key; earlier ones win ties. -/
def leastBy {α : Type} (f : α → Nat) : List α → Option α
  | [] => none
  | x :: xs => match leastBy f xs with
    | none => some x
    | some y => if f y < f x then some y else some x
/-- The dispatcher's choice of a quad with room for n records (12 R302; log 44, DEDUCED): records that have reserved their room count as queued
(13 R333; log 46, DESIGN CHOICE). -/
def State.chooseQuad (s : State) (die : Option Nat) (n : Nat) : Option Nat :=
  let cand := s.quadsIn.filter fun q => decide (n ≤ s.room q) && (match die with | some d => q / 34 == d | none => true)
  let cool := cand.filter fun q => decide (s.reading q < s.ceiling)
  let pick := if cool.isEmpty then
      match leastBy s.reading cand with
      | some q => cand.filter fun p => s.reading p == s.reading q
      | none => []
    else cool
  leastBy (fun q => (s.quad q).queue.length + (s.pkg.port.filter fun r => r.quad == some q).length + s.quadGangs q) pick

/-- HEAD, TAIL and CAP of a context's spill object, when it has one that can be used (13 R322; log 125, DESIGN CHOICE). -/
def spillQueue (s : State) (ctx : Nat) : Option (Nat × Nat × Nat × Nat) := match s.ctx ctx with
  | none => none
  | some c =>
    let obj := c.tspill / 2 ^ 40
    let at' := c.tspill % 2 ^ 40
    if c.tspill = 0 then none
    else match record s 0 ctx obj, hwKey s 0 ctx obj at' with
      | some r, some _ =>
        let cap := (r.extent - at' - 64) / 64
        if cap = 0 ∨ bits r.current.perm 0 2 ≠ 3 then none else some (obj, hwNat s 0 ctx obj at' 8, hwNat s 0 ctx obj (at' + 8) 8, cap)
      | _, _ => none
/-- The spill has room for n records beside those that have reserved theirs (13 R322, R333; log 46, DESIGN CHOICE). -/
def spillRoom (s : State) (ctx : Nat) (n : Nat := 1) : Bool := match spillQueue s ctx with
  | some (_, h, t, cap) => decide (t - h + (s.pkg.port.filter fun r => r.spill && r.task.ctx == ctx).length + n ≤ cap)
  | none => false
def State.spillBase (s : State) (ctx : Nat) : Nat := match s.ctx ctx with | some c => c.tspill % 2 ^ 40 | none => 0
/-- Append a record to the spill (13 R322; log 11, DEDUCED). -/
def State.spill (s : State) (r : QRec) : State := match spillQueue s r.task.ctx with
  | none => s
  | some (obj, _, t, cap) =>
    let b := s.spillBase r.task.ctx
    let s1 := hwWrite s 0 r.task.ctx obj (b + 64 + 64 * (t % cap)) r.task.bytes
    let s2 := hwWrite s1 0 r.task.ctx obj (b + 8) (leBytes 8 (t + 1))
    s2.setPkg { s2.pkg with spilled := s2.pkg.spilled ++ [(r.task.ctx, r)] }

/-- The age of a record: the die cycle it entered, less 2^QLOG for each priority (13 R321). -/
def quantum (s : State) (ctx : Nat) : Nat := match s.ctx ctx with
  | some c => 2 ^ (if 16 ≤ c.qlog ∧ c.qlog ≤ 30 then c.qlog else 20)
  | none => 2 ^ 20
def QRec.age (r : QRec) (s : State) : Int := (r.entered : Int) - (r.task.prio * quantum s r.task.ctx : Nat)
/-- Where entry i of a quad's queue lies (13 R321; log 18, DESIGN CHOICE). -/
def State.entryKey (s : State) (q i : Nat) : Nat :=
  onyxKey (q / 34) ((s.die (q / 34)).tqcfg.toNat % 2 ^ 32 + (q % 34 * 2048 + i) * 64)
/-- A record takes the lowest free entry of a quad's queue, and stands in Onyx SRAM there (13 R321; log 11, DEDUCED). -/
def State.putEntry (s : State) (q : Nat) (r : QRec) : State :=
  let used := (s.quad q).queue.map (·.slot)
  let slot := ((List.range 2048).find? fun i => !used.contains i).getD 0
  let s1 := s.setMem (writeBytes s.mem (keysFrom (s.entryKey q slot) 64) r.task.bytes)
  s1.setQuad q { s1.quad q with queue := (s1.quad q).queue ++ [{ r with slot }] }
/-- Put a record at the tail of a quad's queue (13 R321). -/
def State.enqueue (s : State) (q : Nat) (r : QRec) : State :=
  let (n, s1) := s.fresh
  s1.putEntry q { r with entered := dieCycle (q / 34) s.now, st := .queued, id := n }

/-- The gang record g of a launch (13 R319). -/
def Launch.gangTask (l : Launch) (g : Nat) : Task :=
  let t := l.task
  if t.kind = 0 then t
  else
    let at' (c k : Nat) : Nat := (c + k) % 65536
    { t with tc0 := at' t.tc0 (g % t.ex0), tc1 := at' t.tc1 (g / t.ex0 % t.ex1), tc2 := at' t.tc2 (g / (t.ex0 * t.ex1))
             weight := if t.domain = noDomain then 0 else l.weight / l.n + (if g < l.weight % l.n then 1 else 0), kind := 0
             ex0 := 0, ex1 := 0, ex2 := 0 }
/-- An empty core can take one gang of the header under its context's quotas, and a team's gangs come in fours (12 R305). -/
def fitsEmpty (s : State) (t : Task) (h : Header) : Bool := match s.ctx t.ctx with
  | none => false
  | some c =>
    let n := if t.kind = 0 then 1 else t.ex0 * t.ex1 * t.ex2
    decide (allotBytes h + carveBytes h.carve ≤ 737280) && decide (h.nstr ≤ c.qstr) && decide (h.nstr * (h.allot / 8) ≤ c.qvreg) && decide ((allotBytes h + carveBytes h.carve + 1023) / 1024 ≤ c.qscr) &&
    (!h.team || n % 4 == 0)
/-- The checks of a record when it is taken, in order (13 R318, R320, 06 R151, 12 R305). -/
def takeCheck (s : State) (t : Task) (origin : Nat) : Except Cause Header :=
  let extents := if t.kind = 1 then t.ex0 == 0 || t.ex1 == 0 || t.ex2 == 0 else t.ex0 != 0 || t.ex1 != 0 || t.ex2 != 0
  if origin = 0 ∧ (t.domain ≠ noDomain ∨ t.weight ≠ 0) then .error (0x0A, 0x27)
  else if t.reserved || extents || (!t.graph && t.gen != 0) then .error (0x0A, 0)
  else match s.ctx t.ctx with
    | none => .error (0x0A, 0)
    | some _ => match readHeader s t.ctx t.entry with
      | .error c => .error c
      | .ok h =>
        if t.nsg ≠ 0 ∧ t.nsg ≠ h.nstr then .error (0x0A, 0)
        else if !fitsEmpty s t h then .error (0x0A, 0x26)
        else if t.domain ≠ noDomain && !domainValid s t.domain t.ctx then .error (0x62, 0)
        else .ok h
/-- The dispatcher takes a record (13 R318, R319): it is rejected, or it becomes a launch whose gangs follow. A GANG record is a
launch of one gang; where no queue or spill has room for it, a released record waits in the overflow buffer (13 R322). -/
def State.takeRecord (s0 : State) (r : TakeReq) : State :=
  let s := s0.accepted r.op
  let t := r.task
  match takeCheck s t r.origin with
  | .error (c, q) =>
    let s1 := s.reject t r.origin r.addr c q
    if r.pinned then s1.unpin t.ctx t.graphObj t.gen else s1
  | .ok h =>
    match (if t.graph then graphGen s t else some 0) with
    | none => s.reject t r.origin r.addr 0x25 0
    | some g =>
      let t1 := if t.graph then { t with gen := g } else t
      let s1 := if t.graph && !r.pinned then s.pin t.ctx t.graphObj g else s
      let n := if t.kind = 0 then 1 else t.ex0 * t.ex1 * t.ex2
      let (id, s2) := s1.fresh
      let borrow := if t.kind = 1 ∧ t.domain ≠ noDomain ∧ t.weight < n then 2 ^ 32 * ((n + 2 ^ 32 - 1) / 2 ^ 32) else 0
      let l : Launch := { task := t1, hdr := h, n, weight := t.weight + borrow
                          origin := r.origin, addr := r.addr, pin := if t.graph then some (t.graphObj, g) else none }
      let s3 := (if borrow = 0 then s2 else s2.domainIssue t.domain borrow)
      if t.kind = 1 then s3.setPkg { s3.pkg with launches := upd s3.pkg.launches id (some l) }
      else
        let q : QRec := { task := t1, launch := id }
        let s4 := s3.setPkg { s3.pkg with launches := upd s3.pkg.launches id (some { l with next := 1 }) }
        let free (s : State) : State := if t.graph then s.unpin t.ctx t.graphObj g else s
        let drop (s : State) : State := (free s).setPkg { (free s).pkg with launches := upd (free s).pkg.launches id none }
        let (held, s5) := s4.fresh
        match (match r.quad with
            | some q => (if 0 < s4.room q then some q else none)
            | none => if r.spill then none else s4.chooseQuad none 1) with
        | some quad => s4.enqueue quad q
        | none =>
          if spillRoom s4 t.ctx then s4.spill q
          else if r.origin = 2 ∧ s4.pkg.overflow.length < 256 then s5.setPkg { s5.pkg with overflow := s5.pkg.overflow ++ [{ q with id := held }] }
          else (drop s4).reject t1 r.origin r.addr 0x63 0
/-- A record joins those the dispatcher is to take (log 46, DESIGN CHOICE). -/
def State.submit (s : State) (r : TakeReq) : State := s.setPkg { s.pkg with port := s.pkg.port ++ [r] }

end Sys2Proof.Machine
end

