-- ==== Sys2Proof/Machine/Images.lean ====
section
/-!
DEFINITION. Sys2Proof/Machine/Images.lean: fault records (14 R347), strand images in the save slots (14 R352, R353), and stopping and
resuming strands with them (14 R345, R354, R356, R357; 12 R307; 15 R372, R373).
-/

namespace Sys2Proof.Machine

def zeros (n : Nat) : List Byte := List.replicate n 0
def bit (b : Bool) : Nat := if b then 1 else 0

/-- The save slots of a context (14 R352): the object, where the context is active. -/
def State.gsobj (s : State) (ctx : Nat) : Nat := match s.ctx ctx with | some c => c.gsobj | none => 0
/-- Read and write a save slot, through die 0's view of its object. -/
def State.slotRead (s : State) (g : Gang) (o n : Nat) : List Byte := hwRead s 0 g.task.ctx (s.gsobj g.task.ctx) (g.gslot * 2097152 + o) n
def State.slotWrite (s : State) (g : Gang) (o : Nat) (bs : List Byte) : State :=
  hwWrite s 0 g.task.ctx (s.gsobj g.task.ctx) (g.gslot * 2097152 + o) bs
/-- Which image of a save slot: strand i of the gang, or 32 and a recovery slot of its core (14 R352). -/
def imageNo (k index : Nat) : Nat := if 384 ≤ slotOf k then 32 + (slotOf k - 384) else index
def imageOff (n : Nat) : Nat := if n < 32 then 4096 + 16384 * n else 1441792 + 16384 * (n - 32)
/-- The object address of an image (14 R354). -/
def imageAddr (s : State) (g : Gang) (n : Nat) : Nat := s.gsobj g.task.ctx * 2 ^ 40 + g.gslot * 2097152 + imageOff n

/-- The bytes of a fault record of a strand (14 R347). -/
def faultRecord (s : State) (k : Nat) (st : Strand) (g : Gang) (pi : Nat) (f : PathFault) (host : Bool) : List Byte :=
  let core := coreOf k
  let w0 := f.cause + f.qual * 2 ^ 8 + bit f.defer * 2 ^ 16 + pi * 2 ^ 17 + bit f.whole * 2 ^ 18 + bit st.recov.isSome * 2 ^ 19 +
    bit host * 2 ^ 20 + g.task.ctx % 64 * 2 ^ 24
  let w3 := slotOf k + coreIn core * 2 ^ 9 + coreQuad core * 2 ^ 11 + coreDie core * 2 ^ 17
  let src (t : Nat) : Nat := match st.recov with
    | some es => if has f.emask t then (match es[t]? with
        | some en => en.srcSlot + en.srcThread * 2 ^ 9 + 2 ^ 15
        | none => 0) else 0
    | none => 0
  leBytes 4 w0 ++ leBytes 4 f.pc.toNat ++ leBytes 4 f.emask.toNat ++ leBytes 4 w3 ++ leBytes 4 g.index ++
  leBytes 4 (g.gslot % 2 ^ 16 + st.index * 2 ^ 16) ++ leBytes 8 f.addr ++ leBytes 8 f.aux ++ leBytes 8 g.task.entry ++
  leBytes 8 (dieCycle (coreDie core) s.now) ++ zeros 8 ++ threads.flatMap fun t => leBytes 2 (src t)

/-- The bytes of a divergence stack entry (12 R293). -/
def StackEntry.bytes (e : StackEntry) : List Byte :=
  leBytes 4 e.fmask.toNat ++ leBytes 4 e.pmask.toNat ++ leBytes 4 (e.ppc.toNat / 4 + bit e.side * 2 ^ 31) ++ leBytes 4 e.nfrs.toNat
def parseEntry (bs : List Byte) (o : Nat) : StackEntry :=
  let w (i : Nat) : Word := BitVec.ofNat 32 (fieldAt bs (o + 4 * i) 4)
  { fmask := w 0, pmask := w 1, ppc := (w 2 &&& 0x3FFFFFFF) * 4, side := (w 2).getLsbD 31, nfrs := swrNfr 0x13000000 (w 3) }

/-- The bytes of a strand image (14 R353): its stack lies oldest entry first (log 15, DEDUCED; log 19, DEDUCED). -/
def Strand.image (st : Strand) (f0 f1 : List Byte) : List Byte :=
  let w (x : Word) : List Byte := leBytes 4 x.toNat
  let stack := st.frozen.reverse ++ st.ownEntries
  let flags := bit st.divided + bit st.path0.arrived * 2 + bit st.path1.arrived * 4 + bit (!f0.isEmpty) * 8 + bit (!f1.isEmpty) * 16 +
    stack.length * 32 + st.frozen.length * 1024 + st.allot * 65536
  let rec' (f : List Byte) : List Byte := if f.isEmpty then zeros 128 else f
  let tgtv := (List.range 192).foldl (fun v b => v + bit (look st.targets b).isSome * 2 ^ b) 0
  let entries := stack.flatMap StackEntry.bytes
  rec' f0 ++ rec' f1 ++ w st.path0.pc ++ w st.path1.pc ++ w st.path0.act ++ w st.path1.act ++ w st.path0.nfr ++ w st.path1.nfr ++
  w st.nfrs ++ leBytes 4 flags ++ w st.srgCount ++ zeros 4 ++
  ((List.range 4).flatMap fun a => w (rd 0 st.sealedB a) ++ w (rd 0 st.finishedB a)) ++ ((List.range 8).flatMap fun p => w (st.pmask p)) ++ zeros 24 ++
  ((List.range 64).flatMap fun r => w (st.sreg r)) ++ leBytes 64 (Acc.spill (st.acc 0)).toNat ++ leBytes 64 (Acc.spill (st.acc 1)).toNat ++
  entries ++ zeros (384 - entries.length) ++ leBytes 24 tgtv ++ ((List.range 192).flatMap fun b => w ((look st.targets b).getD 0)) ++ zeros 104 ++
  ((List.range 112).flatMap fun r => threads.flatMap fun t => w (if r < st.allot then st.vreg r t else 0))

/-- A field of an image: n bytes at o. -/
def imgWord (bs : List Byte) (o : Nat) : Word := BitVec.ofNat 32 (fieldAt bs o 4)
def imgFlags (bs : List Byte) : Nat := fieldAt bs 284 4
def imgDepth (bs : List Byte) : Nat := bits (imgFlags bs) 5 5
def imgFrozen (bs : List Byte) : Nat := bits (imgFlags bs) 10 5
/-- FREC of path pi is valid. -/
def imgFv (bs : List Byte) (pi : Nat) : Bool := bits (imgFlags bs) (3 + pi) 1 == 1
def imgRec (bs : List Byte) (pi : Nat) : List Byte := (bs.drop (128 * pi)).take 128
def imgLive (bs : List Byte) (pi : Nat) : Mask := imgWord bs (264 + 4 * pi)
def imgPc (bs : List Byte) (pi : Nat) : Word := imgWord bs (256 + 4 * pi)
def recCause (r : List Byte) : Nat := fieldAt r 0 1
def recWhole (r : List Byte) : Bool := bits (fieldAt r 0 4) 18 1 == 1
def recMask (r : List Byte) : Mask := BitVec.ofNat 32 (fieldAt r 8 4)
/-- Reissues (14 R356). -/
def reissues (r : List Byte) : Bool :=
  (recCause r != 0 && recCause r != 0xB0 && recCause r != 0xB1) || (recCause r == 0xB0 && recWhole r)
/-- A reserved bit of a fault record is set (14 R347). -/
def recReserved (r : List Byte) : Bool :=
  bits (fieldAt r 0 4) 22 2 != 0 || bits (fieldAt r 0 4) 30 2 != 0 || bits (fieldAt r 12 4) 19 13 != 0 || bits (fieldAt r 20 4) 21 11 != 0 ||
  fieldAt r 56 8 != 0 || (bits (fieldAt r 0 4) 19 1 == 1 && (List.range 32).any fun i => bits (fieldAt r (64 + 2 * i) 2) 14 1 != 0)
/-- A reserved bit of the image is set (14 R353, 12 R293), those of its valid records among them (14 R347; log 19, DEDUCED). -/
def imgReserved (bs : List Byte) : Bool :=
  (imgFv bs 0 && recReserved (imgRec bs 0)) || (imgFv bs 1 && recReserved (imgRec bs 1)) ||
  bits (imgFlags bs) 15 1 != 0 || bits (imgFlags bs) 24 8 != 0 || fieldAt bs 292 4 != 0 || (bs.drop 360).take 24 != zeros 24 ||
  ((List.range 24).any fun e => bits (fieldAt bs (776 + 16 * e) 4) 30 1 != 0) || (bs.drop 1944).take 104 != zeros 104 ||
  (bs.drop (2048 + 128 * bits (imgFlags bs) 16 8)).any (· != 0)
/-- The check of RSM that an image fails (14 R356, R347): 1 DEPTH, 2 FROZEN, 3 a LIVE mask, 4 a reserved bit, 5 ALLOT (log 19, DEDUCED). -/
def imgCheck (bs : List Byte) (sv : Saved) : Option Nat :=
  if 24 < imgDepth bs then some 1
  else if imgDepth bs < imgFrozen bs then some 2
  else if imgLive bs 0 &&& ~~~sv.live0 ≠ 0 ∨ imgLive bs 1 &&& ~~~sv.live1 ≠ 0 then some 3
  else if imgReserved bs then some 4
  else if bits (imgFlags bs) 16 8 ≠ sv.allot then some 5
  else none

/-- What an image holds of a strand: an entry above the frozen ones is path 1's when it names a live thread of path 1 (log 15, DEDUCED). -/
def Strand.fromImage (st : Strand) (bs : List Byte) : Strand :=
  let fl := imgFlags bs
  let div := bits fl 0 1 == 1
  let es := (List.range (imgDepth bs)).map fun e => { parseEntry bs (768 + 16 * e) with pushed := e }
  let own := es.drop (imgFrozen bs)
  let second (e : StackEntry) : Bool := div && ((e.fmask ||| e.pmask) &&& imgLive bs 1) != 0
  let p (pi : Nat) (stack : List StackEntry) : Path := {
    pc := imgPc bs pi, act := imgLive bs pi, nfr := swrNfr 0x13000000 (imgWord bs (272 + 4 * pi)), stack := stack.reverse
    arrived := div && bits fl (1 + pi) 1 == 1, ended := div && imgLive bs pi == 0 && stack.isEmpty }
  let words (n o : Nat) (keep : Nat → Bool) : Tab Word := (List.range n).foldl (fun (m : Tab Word) i => if keep i then wr 0 m i (imgWord bs (o + 4 * i)) else m) []
  let a := bits fl 16 8
  let acc (o : Nat) : Acc := Acc.merge (0, 0) (BitVec.ofNat 512 (fieldAt bs o 64))
  { st with
    divided := div, nfrs := if div then swrNfr 0x13000000 (imgWord bs 280) else 0, frozen := if div then (es.take (imgFrozen bs)).reverse else []
    path0 := p 0 (if div then own.filter fun e => !second e else es), path1 := if div then p 1 (own.filter second) else {}
    srgCount := imgWord bs 288, allot := a
    sealedB := (List.range 4).foldl (fun (m : Tab Word) i => wr 0 m i (imgWord bs (296 + 8 * i))) []
    finishedB := (List.range 4).foldl (fun (m : Tab Word) i => wr 0 m i (imgWord bs (300 + 8 * i))) []
    p := words 8 328 (· != 0), s := words 64 384 fun _ => true
    l0 := (acc 640).1, fl0 := (acc 640).2, l1 := (acc 704).1, fl1 := (acc 704).2
    targets := (List.range 192).foldl (fun (m : Tab Word) b => if bits (fieldAt bs 1152 24) b 1 = 1 then upd m b (some (imgWord bs (1176 + 4 * b))) else m) []
    v := (List.range (a * 32)).foldl (fun (m : Tab Word) i => wr 0 m i (imgWord bs (2048 + 4 * i))) []
    latch := [] }

/-- What is kept of a path beside its image (log 20, DEDUCED). -/
def Path.keep (p : Path) : PathKeep :=
  { pc := p.pc, half := p.half, reissue := p.reissue.map fun r => (r, p.act), words := p.words, outs := p.outs }
/-- A path as its image shows it: one with a chain to issue again shows all its live threads (14 R356; log 20, DEDUCED). -/
def Path.shown (p : Path) : Path := match p.reissue with | some r => { p with act := r.live } | none => p
/-- What is kept of a strand beside its image. -/
def State.keepOf (s : State) (k : Nat) (st : Strand) : Saved :=
  { live0 := st.path0.shown.act, live1 := st.path1.shown.act, allot := st.allot, keep0 := st.path0.keep, keep1 := st.path1.keep
    deferred := st.deferred, pending := st.pending, aoadds := s.ops.filter fun x => x.2.strand == k && x.2.parked, step := st.stepFlag
    stepping := if st.mode == .running then st.stepping else none, ended := st.mode == .exiting, recov := st.recov }
/-- The unmatched MMA and MMT entries of a strand (10 R248). -/
def State.unmatched (s : State) (k : Nat) : List Nat := (s.ops.filter fun x => x.2.strand == k && (match x.2.kind with
  | .mma _ _ _ _ _ _ _ _ acc => !acc
  | _ => false)).map (·.1)
/-- Waiting instructions of strands are withdrawn: their unmatched MMAs and their CLAIMs (12 R307); what they leave at the match may form
(10 R247). -/
def State.withdrawAll (s : State) (ks : List Nat) : State :=
  let one (s : State) (k : Nat) : State :=
    (s.unmatched k).foldl (fun (s : State) id => s.withdraw id)
      (s.onCore (coreOf k) fun c => c.dropClaims (dieCycle (coreDie (coreOf k)) s.now) (·.2.strand == k))
  (dedup ((ks.filter fun k => !(s.unmatched k).isEmpty).map fun k => quadOf (coreOf k))).foldl (fun (s : State) q => s.formAll q) (ks.foldl one s)
def State.withdrawHeld (s : State) (k : Nat) : State := s.withdrawAll [k]
/-- Mark gangs for swap, each with the rest of its team (12 R306): their waits are withdrawn, but for those of handlers, which run on (12
R307). -/
def State.markSwap (s : State) (hit : Nat → Gang → Bool) : State :=
  let chosen := s.gangs.filter fun x => x.2.resident && hit x.1 x.2
  let mate (g : Gang) : Bool := chosen.any fun x => x.2.hdr.team && g.hdr.team && x.2.launch == g.launch && x.2.index / 4 == g.index / 4
  let marked (x : Nat × Gang) : Bool := x.2.resident && (hit x.1 x.2 || mate x.2)
  let gone := (s.gangs.filter marked).map (·.1)
  let s1 : State := { s with gangs := s.gangs.map fun x => if marked x then (x.1, { x.2 with swap := true }) else x }
  s1.withdrawAll ((s1.strands.filter fun x => gone.contains x.2.gang && x.2.mode != .handler && decide (slotOf x.1 < 384)).map (·.1))
/-- So are its AOADD requests that have not been applied (07 R168; log 21, DEDUCED). -/
def State.withdrawParked (s : State) (k : Nat) : State := { s with ops := s.ops.filter fun x => !(x.2.strand == k && x.2.parked) }
/-- Write a strand's image, its records included, and keep the rest (14 R345, R363). -/
def State.saveStrand (s : State) (k : Nat) (f0 f1 : List Byte) : State :=
  match s.strand k with
  | none => s
  | some st => match s.gang st.gang with
    | none => s
    | some g =>
      let n := imageNo k st.index
      let shown := { st with path0 := st.path0.shown, path1 := st.path1.shown }
      let s1 := s.slotWrite g (imageOff n) (shown.image f0 f1)
      ((s1.onGang st.gang fun g => { g with saved := upd g.saved n (some (s.keepOf k st)) }).withdrawHeld k).withdrawParked k

/-- A path of a restored strand: what was kept of it joins it where its PC still stands; a chain that is to issue again comes
first (14 R356); breakpoints skip the first chain (15 R372). -/
def Path.resumed (p : Path) (kp : PathKeep) (fv rx : Bool) (r : List Byte) : Path :=
  let again := recMask r &&& p.act
  let half := kp.pc == p.pc && kp.half
  let p0 := { p with words := kp.words, outs := kp.outs, skipBp := true }
  if fv && rx && reissues r && again != 0 then
    { p0 with pc := BitVec.ofNat 32 (fieldAt r 4 4), act := again, reissue := some { cont := p.pc, live := p.act, half } }
  else match kp.reissue with
    | some (q, m) => if kp.pc != p.pc || m &&& p.act == 0 then { p0 with half }
        else { p0 with act := m &&& p.act, reissue := some { q with live := p.act }, half }
    | none => { p0 with half }
/-- Its image, not its slot, holds the strand (14 R345, R354): its gang and the image's number. -/
def State.imageHome (s : State) (k : Nat) : Option (Gang × Nat) := match s.strand k with
  | some st => if st.mode == .stopped || st.mode == .handler then (s.gang st.gang).map fun g => (g, imageNo k st.index) else none
  | none => none
/-- The pending count of a strand, or of the handler in its slot, falls by n (09 R234, 14 R354). -/
def State.pendingLess (s : State) (k : Nat) (handler : Bool) (n : Nat) : State := match s.strand k with
  | none => s
  | some st =>
    if st.mode == .handler && !handler then
      let less (x : Nat × Saved) : Nat × Saved := if x.1 = imageNo k st.index then (x.1, { x.2 with pending := x.2.pending - n }) else x
      s.onGang st.gang fun g => { g with saved := g.saved.map less }
    else if handler && st.mode != .handler then s
    else s.setStrand k { st with pending := st.pending - n }
/-- One merge falls due: the pending count falls (09 R234, R238). -/
def State.release (s : State) (en : RecEntry) : State := if en.done then s else s.pendingLess en.source en.handler 1
/-- Drop the queued recovery entries of killed source threads (09 R238). -/
def State.dropEntries (s : State) (k : Nat) (q : Mask) : State :=
  let hit (en : RecEntry) : Bool := en.source == k && !en.handler && has q en.srcThread
  let n := ((s.core (coreOf k)).recq.filter hit).length
  (s.onCore (coreOf k) fun c => { c with recq := c.recq.filter fun en => !hit en }).pendingLess k false n
/-- A handler strand has ended: its recovery entries go with it, and the count of the strand it ran for stands again (14 R354, 09 R231; log
33, DEDUCED). -/
def State.endHandler (s : State) (k : Nat) : State := match s.strand k with
  | none => s
  | some st =>
    if st.mode != .handler then s
    else
      let own (en : RecEntry) : Bool := en.source == k && en.handler
      let settled (es : List RecEntry) : List RecEntry := es.map fun en => if own en then { en with done := true } else en
      let old : Saved := ((s.gang st.gang).bind fun g => look g.saved (imageNo k st.index)).getD {}
      let s1 := (s.onCore (coreOf k) fun c => { c with recq := c.recq.filter fun en => !own en }).setStrand k { st with pending := old.pending }
      let kept (x : Nat × Saved) : Nat × Saved := (x.1, { x.2 with recov := x.2.recov.map settled })
      let strands := s1.strands.map fun (x : Nat × Strand) => (x.1, { x.2 with recov := x.2.recov.map settled })
      { s1 with strands, gangs := s1.gangs.map fun (x : Nat × Gang) => (x.1, { x.2 with saved := x.2.saved.map kept }) }
/-- The lane issues a path no more whose run has ended. -/
def State.uncurIdle (s : State) (k : Nat) : State := match s.cur, s.strand k with
  | some (k', pi), some st => if k' = k ∧ (st.path pi).run.isNone then { s with cur := none } else s
  | _, _ => s
/-- A running strand loses threads (12 R297): the run of a path that keeps one goes on (12 R284). -/
def Strand.loseRunning (st : Strand) (q : Mask) : Strand :=
  let quit (p : Path) : Path := if p.act = 0 then { p.rewind with run := none } else p
  let st1 := st.remove q
  let st2 := ({ st1 with path0 := quit st1.path0, path1 := quit st1.path1 } : Strand).settleAll
  if st2.mode == .exiting then { st2 with killed := true } else st2
/-- Threads of a strand are killed (12 R297, 14 R357): where its image stands in the save slot, in the image. -/
def State.killThreads (s : State) (k : Nat) (q : Mask) : State :=
  match s.strand k with
  | none => s
  | some st =>
    let before : Strand := match st.mode, s.gang st.gang with
      | .stopped, some g | .handler, some g => st.fromImage (s.slotRead g (imageOff (imageNo k st.index)) 16384)
      | _, _ => st
    let s2 : State := match st.mode, s.gang st.gang with
      | .stopped, some g | .handler, some g =>
        let n := imageNo k st.index
        let bs := s.slotRead g (imageOff n) 16384
        let st' := (before.remove q).settleAll
        let s2 := s.slotWrite g (imageOff n) (st'.image (if imgFv bs 0 then imgRec bs 0 else []) (if imgFv bs 1 then imgRec bs 1 else []))
        s2.onGang st.gang fun g => { g with saved := g.saved.map fun (x : Nat × Saved) =>
          if x.1 = n then (x.1, { x.2 with live0 := st'.path0.act, live1 := st'.path1.act }) else x }
      | .exiting, _ => s
      | _, _ =>
        let s1 := (s.setStrand k (st.loseRunning q)).uncurIdle k
        if (st.loseRunning q).mode == .exiting then ((s1.withdrawHeld k).withdrawParked k).sealEnding k else s1
    ((s2.traceUnwound k before q).rejoined k st.divided).dropEntries k q
/-- The entries of killed recovery threads count as merged, and their source threads are killed (09 R238). -/
def State.killSources (s : State) (es : List RecEntry) (q : Mask) : State :=
  (es.mapIdx fun n en => (n, en)).foldl (fun s x =>
    if has q x.1 && !x.2.done then (s.release x.2).killThreads x.2.source (1#32 <<< x.2.srcThread) else s) s

/-- Stop a running strand at the next chain of each path, with cause 0 (15 R370, R373, R374); one whose handler runs waits for it. -/
def State.requestStop (s : State) (k : Nat) : State :=
  match s.strand k with
  | none => s
  | some st => match st.mode with
    | .handler => s.setStrand k { st with stopReq := true }
    | .running =>
      let stop (p : Path) : Path :=
        if p.ended || p.fault.isSome then { p.rewind with run := none } else { p.rewind with run := none, fault := some { cause := 0, pc := p.rewind.pc } }
      let st' := { st with mode := .stopping, stepping := none, path0 := stop st.path0, path1 := if st.divided then stop st.path1 else st.path1 }
      { (s.setStrand k st').withdrawHeld k with cur := if s.cur = some (k, 0) ∨ s.cur = some (k, 1) then none else s.cur }
    | _ => s

/-- An AOADD that a stop has withdrawn issues again: its cell is translated again, and its request goes out (07 R165, R168); where it
fails, the strand stops again. -/
def State.reissueAoadd (s : State) (k id : Nat) (o : Op) : State :=
  match o.kind, o.items with
  | .aoadd wide dst rank sum _ _, cell :: parts =>
    let core := coreOf k
    let s1 := s.charge core o.ctx 2 1
    match translate s1 (coreDie core) o.ctx cell.addr 16 .atomic with
    | .error f => s1.faultPath k 0 { cause := f.cause, qual := f.qual, emask := o.active, whole := true, pc := o.pc, addr := cell.addr }
        (match s1.strand k with | some st => st.path0.rewind.pc | none => o.pc)
    | .ok l =>
      let ks := memKeys l.bytes
      (s1.invalidate core (ks.map lineOf).contains false).setOp id { o with
        strand := k, core, gens := [l.gen], items := { cell with src := l.bytes, dst := ks, bad := 0 } :: parts
        kind := .aoadd wide dst rank sum 0 0 }
  | _, _ => s
/-- Resume a stopped strand from its image (14 R356, R357, R360; one that had ended before its stop has sealed its sets, 03 R68): `rx` with re-execution; `kill` the records' threads, or all, and with them
a parked AOADD (07 R168; log 21, DEDUCED). -/
def State.resume (s0 : State) (k : Nat) (rx : Bool) (kill : Option Bool) : State :=
  let s := s0.endHandler k
  match s.strand k with
  | none => s
  | some st => match s.gang st.gang with
    | none => s
    | some g =>
      let n := imageNo k st.index
      let bs := s.slotRead g (imageOff n) 16384
      let sv := (look g.saved n).getD {}
      let base := { st with mode := .running, deferred := sv.deferred, recov := if st.recov.isSome then st.recov else sv.recov, stepFlag := false
                            stepping := if sv.step || st.stepFlag then some (false, false) else sv.stepping }
      let st1 := base.fromImage bs
      let dead : Mask := match kill with
        | none => 0
        | some true => 0xFFFFFFFF
        | some false => (if imgFv bs 0 then recMask (imgRec bs 0) else 0) ||| (if imgFv bs 1 then recMask (imgRec bs 1) else 0)
      let gone := st1.live &&& dead
      let go (pi : Nat) (p : Path) (kp : PathKeep) : Path := p.resumed kp (imgFv bs pi) rx (imgRec bs pi)
      let st2 := st1.remove dead
      let st3 := { st2 with path0 := go 0 st2.path0 sv.keep0, path1 := if st2.divided then go 1 st2.path1 sv.keep1 else st2.path1 }
      let st4 := st3.settleAll
      let st5 := if st4.mode == .exiting && gone != 0 then { st4 with killed := true } else st4
      let st6 := match st5.recov with
        | some es => { st5 with recov := some (es.mapIdx fun i en => if has gone i then { en with done := true } else en) }
        | none => st5
      let s0 := (((s.setStrand k st6).onGang st.gang fun g => { g with saved := upd g.saved n none }).traceUnwound k st1 dead).rejoined k st1.divided
      let s1 := if sv.ended then s0 else s0.sealEnding k
      let s2 := if st5.mode == .exiting || kill.isSome then s1 else sv.aoadds.foldl (fun (s : State) x => s.reissueAoadd k x.1 x.2) s1
      let s3 := s2.dropEntries k gone
      let s4 := match base.recov with | some es => s3.killSources es gone | none => s3
      let s5 := { s4 with cur := if s4.cur = some (k, 0) ∨ s4.cur = some (k, 1) then none else s4.cur }
      if st.stopReq then (s5.onStrand k fun st => { st with stopReq := false }).requestStop k else s5

/-- The handler strand of a stopped strand takes its slot (14 R354): it begins with that strand's RSEL and leaves it its own (log 112, DESIGN
CHOICE). -/
def State.startHandler (s : State) (k : Nat) : State :=
  match s.strand k with
  | none => s
  | some st => match s.gang st.gang with
    | none => s
    | some g =>
      let a := imageAddr s g (imageNo k st.index)
      let h := g.task.entry
      let base : Strand := { gang := st.gang, index := st.index, role := st.role, lane := st.lane, allot := st.allot, recov := none
                             rsel := st.rsel, stopReq := st.stopReq, stepFlag := st.stepFlag, mode := .handler }
      let st' := { (base.setSGroup 0 2 a).setSGroup 2 2 h with
        path0 := { pc := BitVec.ofNat 32 (h % 2 ^ 40 + g.hdr.handlerOff), act := 0xFFFFFFFF } }
      (s.setStrand k st').acquire (coreOf k)

/-- The records of a stopped strand go to the host, and it stays stopped (14 R355, R358). -/
def State.toHost (s0 : State) (k : Nat) : State :=
  let s := s0.endHandler k
  match s.strand k with
  | none => s
  | some st => match s.gang st.gang with
    | none => s
    | some g =>
      let n := imageNo k st.index
      let bs := s.slotRead g (imageOff n) 16384
      let mark (r : List Byte) : List Byte := leBytes 4 (Nat.lor (fieldAt r 0 4) (2 ^ 20)) ++ r.drop 4
      let each (s : State) (pi : Nat) : State :=
        if imgFv bs pi then
          let r := mark (imgRec bs pi)
          (s.slotWrite g (imageOff n + 128 * pi) (r.take 4)).appendFault (g.task.ctx % 64) (recCause r) r true
        else s
      let s1 := each (each s 0) 1
      let s2 := s1.setStrand k { st with mode := .stopped, stopReq := false, recov := ((look g.saved n).map (·.recov)).getD st.recov, path0 := {}, path1 := {}, divided := false }
      { s2 with cur := if s2.cur = some (k, 0) ∨ s2.cur = some (k, 1) then none else s2.cur }

end Sys2Proof.Machine
end

