-- ==== Sys2Proof/Machine/Keys.lean ====
section
/-!
DEFINITION. Sys2Proof/Machine/Keys.lean: key tables and their instructions (04 R86 to R92, 07 R176 to R178). A table lies in the
gang's key pool; an instruction is applied thread by thread as it issues, up to a thread that must append to the spill object,
which its home slice does (KEY_SPILL_APPEND).
-/

namespace Sys2Proof.Machine

def emptyKey : Nat := 2 ^ 64 - 1
/-- The units a table holds. -/
def KeyDesc.units (d : KeyDesc) : Nat := 2 ^ d.logu
/-- The buckets of a table (04 R88). -/
def KeyDesc.buckets (d : KeyDesc) : Nat := 256 * d.units
/-- The home bucket of a key (04 R88). -/
def KeyDesc.home (d : KeyDesc) (key : Nat) : Nat :=
  Nat.xor key d.seed * 0x9E3779B97F4A7C15 % 2 ^ 64 / 2 ^ (64 - (8 + d.logu))
/-- The memory keys of the entry at a position of the four-bucket table: position p is bucket p div 4, entry p mod 4. -/
def entryKeys (g : Gang) (d : KeyDesc) (p : Nat) : List Nat := keysFrom (poolKey g (16384 * d.baseu + 16 * p)) 16
/-- The positions a probe examines (04 R88). -/
def KeyDesc.probe (d : KeyDesc) (key : Nat) : List Nat :=
  (List.range 4).flatMap fun b => (List.range 4).map fun i => (d.home key + b) % d.buckets * 4 + i
/-- The key and the value of an entry's bytes. -/
def entryOf (m : List Host.Cell) (ks : List Nat) : Nat × Nat :=
  let v := leNat (ks.map (readByte m))
  (v % 2 ^ 64, v / 2 ^ 64)
def setEntry (m : List Host.Cell) (ks : List Nat) (key v : Nat) : List Host.Cell := writeBytes m ks (leBytes 16 (key + 2 ^ 64 * v))

/-- An access at an offset of the spill object: its host check and the checks of R26, against the record that the instruction was accepted
with (01 R29), of a row-major object of uint64 with read, write and atomic permission (04 R89, 07 R176; one of another shape or with less
raises 0x22: log 89, DEDUCED): the keys of the bytes. -/
def spillKeys (s : State) (core ctx : Nat) (r : Option ObjRec) (base off n : Nat) (kind : Kind) : Except Failed (List Nat) :=
  let d := coreDie core
  let unfit := r.any fun r => r.layout != 0 || r.fmt != 0x07 || bits r.current.perm 0 3 != 7
  match translateFrom s d ctx r base off n kind true with
  | .error f => .error (if unfit && decide (5 < f.rank) then ⟨5, 0x22, 0⟩ else f)
  | .ok l =>
    let c := s.readCause d (memKeys l.bytes)
    if unfit then .error ⟨5, 0x22, 0⟩ else if c ≠ 0 then .error ⟨9, c, 0⟩ else .ok (memKeys l.bytes)
/-- NSP (04 R89). -/
def spillCount (s : State) (core ctx : Nat) (r : Option ObjRec) (d : KeyDesc) (kind : Kind) : Except Failed Nat :=
  match spillKeys s core ctx r d.spobj 0 8 kind with
  | .error f => .error f
  | .ok ks => .ok (leNat (ks.map (readByte s.mem)))
/-- The record of a table's spill object, as an instruction that the unit accepts carries it (01 R29). -/
def spillRecord (s : State) (core ctx : Nat) (d : KeyDesc) : List Byte := sentRecord s (coreDie core) ctx (bits d.spobj 40 24)

/-- Where a probe finds a key. -/
inductive Found where
  | at (ks : List Nat)
  | spilled (off : Nat) (ks : List Nat)
  | absent
  | failed (f : Failed) (addr : Nat)
  deriving DecidableEq, Repr

/-- Search spill entries i, i + 1, ... in append order (04 R88, R89). -/
def findSpill (s : State) (core ctx : Nat) (r : Option ObjRec) (d : KeyDesc) (key i : Nat) : Nat → Found
  | 0 => .absent
  | n + 1 =>
    match spillKeys s core ctx r d.spobj (16 + 16 * i) 16 .read with
    | .error f => .failed f (d.spobj + 16 + 16 * i)
    | .ok ks => if (entryOf s.mem ks).1 = key then .spilled (16 + 16 * i) ks else findSpill s core ctx r d key (i + 1) n
/-- A bucket of the probe holds the key. -/
def inBuckets (s : State) (g : Gang) (d : KeyDesc) (key : Nat) : Option Nat :=
  (d.probe key).find? fun p => (entryOf s.mem (entryKeys g d p)).1 == key
/-- Search the four buckets, then the spill (04 R88). -/
def findKey (s : State) (g : Gang) (core ctx : Nat) (r : Option ObjRec) (d : KeyDesc) (key : Nat) : Found :=
  if ((d.probe key).flatMap (entryKeys g d)).any s.uncorrectable then .failed ⟨9, 0xB2, 0⟩ 0
  else match inBuckets s g d key with
    | some p => .at (entryKeys g d p)
    | none =>
      if !d.spl then .absent
      else match spillCount s core ctx r d .read with
        | .error f => .failed f d.spobj
        | .ok n => findSpill s core ctx r d key 0 n
/-- The lines of spill entries i to i + n - 1. -/
def entryLines (s : State) (core ctx : Nat) (r : Option ObjRec) (d : KeyDesc) (i n : Nat) : List Nat :=
  dedup ((List.range n).flatMap fun j => match spillKeys s core ctx r d.spobj (16 + 16 * (i + j)) 16 .read with
    | .ok ks => ks.map lineOf
    | .error _ => [])
/-- The lines of the spill object that applying one thread reads, and writes: NSP's, those of the entries it searches, and of the entry it
changes (14 R364; log 49, DEDUCED). -/
def spillTouched (s : State) (g : Gang) (core ctx : Nat) (r : Option ObjRec) (d : KeyDesc) (f key : Nat) : List Nat :=
  if !d.spl || key == emptyKey || (inBuckets s g d key).isSome then []
  else match spillKeys s core ctx r d.spobj 0 8 .read with
    | .error _ => []
    | .ok ks =>
      let nsp := leNat (ks.map (readByte s.mem))
      let (n, wrote) := match findSpill s core ctx r d key 0 nsp with
        | .spilled off es => (off / 16, if 2 ≤ f then dedup (es.map lineOf) else [])
        | _ => (nsp, [])
      dedup (ks.map lineOf ++ entryLines s core ctx r d 0 n) ++ wrote

/-- Combine (04 R91): 3 ADD, 4 MIN, 5 MAX, 6 OR, 7 FADD. -/
def keyCombine (f e v : Nat) : Nat :=
  if f = 3 then (e + v) % 2 ^ 64
  else if f = 4 then (if signed 64 v < signed 64 e then v else e)
  else if f = 5 then (if signed 64 e < signed 64 v then v else e)
  else if f = 6 then Nat.lor e v
  else plainFadd (e % 2 ^ 32) (v % 2 ^ 32)

/-- What one thread's application comes to: `line` of its item becomes 1 present, 2 absent or inserted, 3 failed. -/
inductive Applied where
  | done (mem : List Host.Cell) (present : Bool) (val : Nat)
  | failed (f : Failed) (addr : Nat)
  | append
  deriving DecidableEq, Repr

/-- Apply one thread: 0 HINS, 1 HPRB, 2 HDEL, 3 to 7 HACC (04 R90); an entry of the spill is written under the checks of a write (04 R89). -/
def applyKey (s : State) (g : Gang) (core ctx : Nat) (r : Option ObjRec) (d : KeyDesc) (f key v : Nat) : Applied :=
  if key = emptyKey then .failed ⟨0, 0x81, 0x16⟩ 0
  else
    let found (ks : List Nat) : Applied :=
      let old := (entryOf s.mem ks).2
      if f = 0 ∨ f = 1 then .done s.mem true old
      else if f = 2 then .done (setEntry s.mem ks emptyKey 0) true old
      else .done (setEntry s.mem ks key (keyCombine f old v)) true old
    match findKey s g core ctx r d key with
    | .failed x a => .failed x a
    | .at ks => found ks
    | .spilled off ks => if f ≤ 1 then found ks else match spillKeys s core ctx r d.spobj off 16 .write with
      | .error x => .failed x (d.spobj + off)
      | .ok _ => found ks
    | .absent =>
      if f = 1 ∨ f = 2 then .done s.mem false 0
      else match (d.probe key).find? fun p => (entryOf s.mem (entryKeys g d p)).1 == emptyKey with
        | some p => .done (setEntry s.mem (entryKeys g d p) key v) false 0
        | none => .append

/-- The outcome of a thread whose item has been applied. -/
def Item.outcome (i : Item) (line val : Nat) (f : Failed) (addr : Nat) : Item := { i with line, val, bad := f.cause + 256 * f.qual, rank := f.rank, addr }

/-- Apply the threads in order up to one that must append (04 R90): the state, the items, and whether all are done. -/
def applyAll (g : Gang) (core ctx : Nat) (r : Option ObjRec) (d : KeyDesc) (f : Nat) : State → List Item → State × List Item × Bool
  | s, [] => (s, [], true)
  | s, i :: is =>
    if i.line ≠ 0 then
      let (s', is', fin) := applyAll g core ctx r d f s is
      (s', i :: is', fin)
    else
      let s1 := s.chargeHomes core ctx (spillTouched s g core ctx r d f i.cmp)
      match applyKey s g core ctx r d f i.cmp i.val with
      | .append => (s1, i :: is, false)
      | .failed x a =>
        let (s', is', fin) := applyAll g core ctx r d f s1 is
        (s', i.outcome 3 0 x a :: is', fin)
      | .done m present v =>
        let (s', is', fin) := applyAll g core ctx r d f (s1.setMem m) is
        (s', i.outcome (if present then 1 else 2) v ⟨0, 0, 0⟩ 0 :: is', fin)

/-- Write the statuses and values of an applied instruction (07 R177): failing threads keep theirs. -/
def keyResults (f pd dst : Nat) (its : List Item) (st : Strand) : Strand :=
  let ok := its.filter (·.line != 3)
  let st1 := st.setP pd (maskOf (ok.map (·.t))) (maskOf ((its.filter (·.line == 1)).map (·.t)))
  if f ≤ 2 then (its.filter (·.line == 1)).foldl (fun st i => st.setGroup dst 2 i.t i.val) st1 else st1
/-- The failures among applied items: each is precise for its thread, whenever the unit finds it (04 R89; log 104, DEDUCED). -/
def keyFailures (its : List Item) : List (Nat × Nat × Failed) :=
  (its.filter (·.line == 3)).map fun i => (i.t, i.addr, ⟨i.rank, i.bad % 256, i.bad / 256⟩)
/-- A key-table instruction has been applied: its results. -/
def State.keyDone (s : State) (o : Op) : State := match o.kind with
  | .key f _ pd dst => s.onStrand o.strand (keyResults f pd dst o.items)
  | _ => s

/-- HINS, HPRB, HDEL and HACC (07 R177). -/
def Env.keyOp (e : Env) (f : Nat) (d a : BitVec 7) (p h : BitVec 3) (s : State) : State :=
  match tableOf e.g (e.st.sreg (56 + h.toNat)).toNat with
  | none => e.raise s 0x81
  | some (n, desc) =>
      let its : List Item := e.ts.map fun t => { t, cmp := e.st.src64 a.toNat t, val := if f = 1 ∨ f = 2 then 0 else e.st.src64 d.toNat t }
      let sent := spillRecord s e.core e.ctx desc
      let r := carriedRecord sent
      let (s1, its', fin) := applyAll e.g e.core e.ctx r desc f (s.charge e.core e.ctx 5 its.length) its
      let o : Op := { kind := .key f n p.toNat d.toNat, acc := some 0, items := its', carried := sent
                      gens := r.toList.map fun r => { die := e.die, ctx := e.ctx, obj := bits desc.spobj 40 24, gen := r.current.gen }
                      vregs := if f ≤ 2 then [d.toNat, d.toNat + 1] else [], preds := [p.toNat] }
      if fin then
        e.nextFailed (s1.keyDone { o with strand := e.k, path := e.opPath, pc := e.chain, mask := e.act, active := e.p.act }) (keyFailures its')
      else e.next (e.start o s1).2
/-- HINS (07 R177). -/
def execHins (z : BitVec 1) (d a : BitVec 7) (p h : BitVec 3) (s : State) : Answer :=
  issue (.hins z d a p h) s fun e => e.keyOp 0 d a p h
/-- HPRB (07 R177). -/
def execHprb (z : BitVec 1) (d a : BitVec 7) (p h : BitVec 3) (s : State) : Answer :=
  issue (.hprb z d a p h) s fun e => e.keyOp 1 d a p h
/-- HDEL (07 R177). -/
def execHdel (z : BitVec 1) (d a : BitVec 7) (p h : BitVec 3) (s : State) : Answer :=
  issue (.hdel z d a p h) s fun e => e.keyOp 2 d a p h
/-- HACC.add (07 R177, 04 R91). -/
def execHaccAdd (z : BitVec 1) (d a : BitVec 7) (p h : BitVec 3) (s : State) : Answer :=
  issue (.haccAdd z d a p h) s fun e => e.keyOp 3 d a p h
/-- HACC.min (07 R177, 04 R91). -/
def execHaccMin (z : BitVec 1) (d a : BitVec 7) (p h : BitVec 3) (s : State) : Answer :=
  issue (.haccMin z d a p h) s fun e => e.keyOp 4 d a p h
/-- HACC.max (07 R177, 04 R91). -/
def execHaccMax (z : BitVec 1) (d a : BitVec 7) (p h : BitVec 3) (s : State) : Answer :=
  issue (.haccMax z d a p h) s fun e => e.keyOp 5 d a p h
/-- HACC.or (07 R177, 04 R91). -/
def execHaccOr (z : BitVec 1) (d a : BitVec 7) (p h : BitVec 3) (s : State) : Answer :=
  issue (.haccOr z d a p h) s fun e => e.keyOp 6 d a p h
/-- HACC.fadd (07 R177, 04 R91). -/
def execHaccFadd (z : BitVec 1) (d a : BitVec 7) (p h : BitVec 3) (s : State) : Answer :=
  issue (.haccFadd z d a p h) s fun e => e.keyOp 7 d a p h

/-- The lowest free run of u units of a pool of n (04 R86; log 67, DEDUCED). -/
def freeRun (ks : Tab KeyDesc) (n u : Nat) : Option Nat :=
  (List.range (n + 1 - u)).find? fun b => (List.range u).all fun i => !ks.any fun d => decide (d.2.baseu ≤ b + i) && decide (b + i < d.2.baseu + d.2.units)
/-- HCLAIM (04 R86, 07 R176): the table is cleared, and the handle written, when its clearing is done. -/
def execHclaim (z : BitVec 1) (d : BitVec 7) (i j : BitVec 5) (u : BitVec 3) (s : State) : Answer :=
  issue (.hclaim z d i j u) s fun e s =>
    let g := e.g
    let none' : State := e.next (e.put 1 d 1 (fun _ => 0xFFFFFFFF) s)
    if 5 < u.toNat then e.raise s 0x81 0x15
    else match freeRun g.keys g.hdr.keyu (2 ^ u.toNat), (List.range 8).find? fun n => (look g.keys n).isNone with
      | some b, some n =>
        let desc : KeyDesc := { logu := u.toNat, serial := g.claims, baseu := b, seed := e.st.upair (2 * i.toNat), spobj := e.st.upair (2 * j.toNat) }
        let s1 := s.onGang e.st.gang fun g => { g with keys := upd g.keys n (some desc), claims := (g.claims + 1) % 65536 }
        let (id, s2) := e.start { kind := .hclaim (2 ^ u.toNat), items := [{ t := n, val := n + 65536 * g.claims }], sregs := [d.toNat] }
          (s1.charge e.core e.ctx 5 (16 * 2 ^ u.toNat))
        let s3 := s2.onStrand e.k fun st =>
          let q := st.path (1 - e.pi)
          if st.divided then st.setPath (1 - e.pi) { q with outs := q.outs ++ [(id, q.words, 0)] } else st
        e.next s3
      | _, _ => none'
/-- HREL (04 R86, 07 R176). -/
def execHrel (z : BitVec 1) (h : BitVec 3) (s : State) : Answer :=
  issue (.hrel z h) s fun e s => match tableOf e.g (e.st.sreg (56 + h.toNat)).toNat with
    | none => e.raise s 0x81
    | some (n, _) => e.next (s.onGang e.st.gang fun g => { g with keys := upd g.keys n none })

/-- A drain in progress (04 R92): entries taken so far, position, memory, and the failure that ends it. -/
structure Drain where
  taken : List (Nat × Nat) := []
  pos : Nat
  mem : List Host.Cell
  failed : Option (Failed × Nat) := none
  /-- lines of the spill object that entries were taken out of -/
  wrote : List Nat := []
  deriving DecidableEq, Repr
/-- Examine positions until 32 entries are taken, the end is reached or an entry fails (04 R92, 07 R178). -/
def drain (s : State) (g : Gang) (core ctx : Nat) (r : Option ObjRec) (d : KeyDesc) (del : Bool) : Nat → Drain → Drain
  | 0, x => x
  | n + 1, x =>
    if 32 ≤ x.taken.length then x
    else
      let s1 := s.setMem x.mem
      let ks : Except (Failed × Nat) (List Nat) :=
        if x.pos < 4 * d.buckets then
          (if (entryKeys g d x.pos).any s.uncorrectable then .error (⟨9, 0xB2, 0⟩, 0) else .ok (entryKeys g d x.pos))
        else
          let off := 16 + 16 * (x.pos - 4 * d.buckets)
          match spillKeys s1 core ctx r d.spobj off 16 .read, spillKeys s1 core ctx r d.spobj off 16 (if del then .write else .read) with
          | .error f, _ => .error (f, d.spobj + off)
          | _, .error f => .error (f, d.spobj + off)
          | .ok ks, .ok _ => .ok ks
      match ks with
      | .error f => { x with failed := some f }
      | .ok ks =>
        let en := entryOf x.mem ks
        if en.1 = emptyKey then drain s g core ctx r d del n { x with pos := x.pos + 1 }
        else drain s g core ctx r d del n
          { x with
            taken := x.taken ++ [en], pos := x.pos + 1, mem := if del then setEntry x.mem ks emptyKey 0 else x.mem
            wrote := if del && decide (4 * d.buckets ≤ x.pos) then dedup (x.wrote ++ ks.map lineOf) else x.wrote }
/-- HDRN and HDRN.del (04 R92, 07 R178): all 32 threads, whatever the active mask. A failing entry is raised for the whole strand
and keeps what has been drained; a failing read of NSP drains nothing and leaves the cursor (log 105, DESIGN CHOICE). -/
def Env.hdrn (e : Env) (d a : BitVec 7) (p h : BitVec 3) (del : Bool) (s : State) : State :=
  match tableOf e.g (e.st.sreg (56 + h.toNat)).toNat with
  | none => e.raise s 0x81
  | some (_, desc) =>
      let c := (e.st.sreg a.toNat).toNat
      let r := carriedRecord (spillRecord s e.core e.ctx desc)
      match (if desc.spl then spillCount s e.core e.ctx r desc .read else .ok 0) with
      | .error f =>
        let s1 := s.onStrand e.k fun st => st.setP p.toNat 0xFFFFFFFF 0
        e.raise s1 f.cause f.qual desc.spobj
      | .ok nsp =>
        let fin := 4 * desc.buckets + nsp
        let x := drain s e.g e.core e.ctx r desc del (fin - c) { pos := c, mem := s.mem }
        let lo := min c (4 * desc.buckets)
        let hi := min x.pos (4 * desc.buckets)
        let steps := if lo < hi then (hi - 1) / 4 - lo / 4 + 1 else 0
        let first := max c (4 * desc.buckets) - 4 * desc.buckets
        let nspLines := if desc.spl then (match spillKeys s e.core e.ctx r desc.spobj 0 8 .read with | .ok ks => dedup (ks.map lineOf) | .error _ => []) else []
        let spent := nspLines ++ entryLines s e.core e.ctx r desc first (x.pos - (4 * desc.buckets + first)) ++ x.wrote
        let s1 := ((s.setMem x.mem).charge e.core e.ctx 5 steps).chargeHomes e.core e.ctx spent
        let cur := match x.failed with
          | some _ => x.pos
          | none => if x.pos < fin then x.pos else 0xFFFFFFFF
        let s2 := s1.onStrand e.k fun st =>
          let st1 := (x.taken.mapIdx fun t en => (t, en)).foldl (fun st r => st.setGroup d.toNat 4 r.1 (r.2.1 + 2 ^ 64 * r.2.2)) st
          (st1.setP p.toNat 0xFFFFFFFF (maskOf (List.range x.taken.length))).setS a.toNat (BitVec.ofNat 32 cur)
        match x.failed with
        | none => e.next s2
        | some (f, addr) => e.raise s2 f.cause f.qual addr
/-- HDRN (07 R178). -/
def execHdrn (z : BitVec 1) (d a : BitVec 7) (p h : BitVec 3) (s : State) : Answer :=
  issue (.hdrn z d a p h) s fun e => e.hdrn d a p h false
/-- HDRN.del (07 R178). -/
def execHdrnDel (z : BitVec 1) (d a : BitVec 7) (p h : BitVec 3) (s : State) : Answer :=
  issue (.hdrnDel z d a p h) s fun e => e.hdrn d a p h true

end Sys2Proof.Machine
end

