-- ==== Sys2Proof/Machine/LoadStore.lean ====
section
/-!
DEFINITION. Sys2Proof/Machine/LoadStore.lean: LD, ST, LDU and PREF (07 R160 to R162). An object access becomes an operation in
flight; a scratchpad access is performed as it issues.
-/

namespace Sys2Proof.Machine

/-- The result of a load of n bytes as its registers take it (07 R160). -/
def loadValue (n : Nat) (sx : Bool) (v : Nat) : Nat := if sx then unsigned 32 (signed (8 * n) v) else v
/-- The registers a load writes. -/
def loadRegs (d n : Nat) : List Nat := keysFrom d (regsOf n)

/-- LD from an object (07 R160). -/
def Env.loadG (e : Env) (d : BitVec 7) (a : BitVec 7) (k : Nat) (n : Nat) (sx : Bool) (u : BitVec 4) (s : State) : State :=
  let rs := e.reach s .read n (e.objAddr k a (e.off + u.toNat * n))
  let ps := rs.passed
  e.nextFailed (e.launchOp { kind := .load d.toNat n sx false, acc := some 0, items := readItems ps, gens := gensOf ps
                             vregs := loadRegs d.toNat n, cache := e.h.cache } s) rs.failed
/-- An uncorrectable error in the scratchpad fails the threads that read it (04 R79; log 29, DESIGN CHOICE). -/
def scrReadable (s : State) (rs : Reach (List Nat)) : Reach (List Nat) :=
  rs.map fun r => match r.2.2 with
    | .ok ks => if ks.any s.uncorrectable then (r.1, r.2.1, .error ⟨9, 0xB2, 0⟩) else r
    | .error _ => r
/-- LD from the scratchpad (07 R160; log 29, DESIGN CHOICE). -/
def Env.loadS (e : Env) (d : BitVec 7) (a : BitVec 7) (off : Int) (n : Nat) (sx : Bool) (s : State) : State :=
  let rs := scrReadable s (e.reachScr n (e.scrAddr a off))
  let ps := rs.passed
  let s1 := s.onStrand e.k fun st =>
    ps.foldl (fun st p => st.setGroup d.toNat (regsOf n) p.1 (loadValue n sx (leNat (p.2.2.map (readByte s.mem))))) st
  e.nextFailed (s1.charge e.core e.ctx 5 (occupancy (ps.flatMap (·.2.2)))) rs.failed
/-- ST to an object (07 R160). -/
def Env.storeG (e : Env) (d : BitVec 7) (a : BitVec 7) (k : Nat) (n : Nat) (u : BitVec 4) (s : State) : State :=
  let rs := e.reach s .write n (e.objAddr k a (e.off + u.toNat * n))
  let ps := rs.passed
  e.nextFailed (e.launchOp { kind := .store false, acc := some 0, items := writeItems ps (e.st.srcN d.toNat (regsOf n)), gens := gensOf ps
                             outstanding := false, cache := e.h.cache } s) rs.failed
/-- ST to the scratchpad: threads in ascending order, so the highest thread's byte remains (07 R160; log 29, DESIGN CHOICE). -/
def Env.storeS (e : Env) (d : BitVec 7) (a : BitVec 7) (off : Int) (n : Nat) (s : State) : State :=
  let rs := e.reachScr n (e.scrAddr a off)
  let ps := rs.passed
  let r := ps.foldl (fun (r : State × List (Nat × Nat × Nat)) p =>
    let s1 := r.1.setMem (writeBytes r.1.mem p.2.2 (leBytes n (e.st.srcN d.toNat (regsOf n) p.1)))
    (s1, r.2 ++ (fires r.1 s1 e.core e.ctx e.g true p.2.1 p.2.2).map fun f => (p.1, f))) (s, [])
  let s1 := (r.1.charge e.core e.ctx 5 (occupancy (ps.flatMap (·.2.2)))).fired e.core (r.2.map (·.2))
  (e.nextFailed s1 rs.failed).watchStop e.k e.pi e.chain e.after (r.2.map fun f => (f.1, f.2.2))

/-- LD.g of 1, 2, 4 or 8 bytes (07 R160). -/
def execLdG (z : BitVec 1) (c : BitVec 2) (d a : BitVec 7) (k : BitVec 5) (l u : BitVec 4) (s : State) : Answer :=
  issue (.ldG z c d a k l u) s fun e => e.loadG d a k.toNat (sizeOf c) false u
/-- LD.g.b128 and the sign-extending loads (07 R160). -/
def execLdGExt (z : BitVec 1) (c : BitVec 2) (d a : BitVec 7) (k : BitVec 5) (l u : BitVec 4) (s : State) : Answer :=
  issue (.ldGExt z c d a k l u) s fun e => e.loadG d a k.toNat (sizeExt c) (c != 0) u
/-- LD.s of 1, 2, 4 or 8 bytes (07 R160). -/
def execLdS (z : BitVec 1) (c : BitVec 2) (d a : BitVec 7) (o : BitVec 5) (l u : BitVec 4) (s : State) : Answer :=
  issue (.ldS z c d a o l u) s fun e => e.loadS d a (e.scrOff o u (sizeOf c)) (sizeOf c) false
/-- LD.s.b128 and the sign-extending loads (07 R160). -/
def execLdSExt (z : BitVec 1) (c : BitVec 2) (d a : BitVec 7) (o : BitVec 5) (l u : BitVec 4) (s : State) : Answer :=
  issue (.ldSExt z c d a o l u) s fun e => e.loadS d a (e.scrOff o u (sizeExt c)) (sizeExt c) (c != 0)
/-- ST.g of 1, 2, 4 or 8 bytes (07 R160). -/
def execStG (z : BitVec 1) (c : BitVec 2) (d a : BitVec 7) (k : BitVec 5) (l u : BitVec 4) (s : State) : Answer :=
  issue (.stG z c d a k l u) s fun e => e.storeG d a k.toNat (sizeOf c) u
/-- ST.s of 1, 2, 4 or 8 bytes (07 R160). -/
def execStS (z : BitVec 1) (c : BitVec 2) (d a : BitVec 7) (o : BitVec 5) (l u : BitVec 4) (s : State) : Answer :=
  issue (.stS z c d a o l u) s fun e => e.storeS d a (e.scrOff o u (sizeOf c)) (sizeOf c)
/-- ST.g.b128 (07 R160). -/
def execStGB128 (z : BitVec 1) (d a : BitVec 7) (k : BitVec 2) (l : BitVec 4) (s : State) : Answer :=
  issue (.stGB128 z d a k l) s fun e => e.storeG d a k.toNat 16 0
/-- ST.s.b128 (07 R160). -/
def execStSB128 (z : BitVec 1) (d a : BitVec 7) (l : BitVec 4) (s : State) : Answer :=
  issue (.stSB128 z d a l) s fun e => e.storeS d a e.off 16

/-- LDU: one read for the strand, whose failure is the whole strand's (07 R161). -/
def Env.loadU (e : Env) (d a : BitVec 7) (k : BitVec 2) (n : Nat) (s : State) : State :=
  let addr := unsigned 64 (e.st.upair (2 * k.toNat) + (e.st.sreg a.toNat).toNat + e.off)
  match translate s e.die e.ctx addr n .read with
  | .error f => e.raise s f.cause f.qual addr
  | .ok l => e.next (e.launchOp { kind := .load d.toNat n false true, acc := some 0, gens := [l.gen], sregs := keysFrom d.toNat (regsOf n)
                                  items := [{ t := lowest e.act, addr, src := l.bytes, rol := l.rol }], cache := e.h.cache } s)
/-- LDU.b32 (07 R161). -/
def execLduB32 (z : BitVec 1) (d a : BitVec 7) (k : BitVec 2) (l : BitVec 4) (s : State) : Answer :=
  issue (.lduB32 z d a k l) s fun e => e.loadU d a k 4
/-- LDU.b64 (07 R161). -/
def execLduB64 (z : BitVec 1) (d a : BitVec 7) (k : BitVec 2) (l : BitVec 4) (s : State) : Answer :=
  issue (.lduB64 z d a k l) s fun e => e.loadU d a k 8
/-- PREF: no fault, no architectural state; lines of host memory and Onyx are not asked for, and with bypass only the home slice is (07
R162). -/
def execPref (z : BitVec 1) (a : BitVec 7) (k : BitVec 2) (s : State) : Answer :=
  issue (.pref z a k) s fun e s =>
    let ps := (e.reach s .read 1 (e.objAddr k.toNat a e.off)).passed
    let its := (readItems ps).filter fun i => !i.lines.isEmpty && i.lines.all fun l => isStack (l * 128)
    e.next (e.launchOp { kind := .prefetch (decide (e.h.cache ≠ 2)), items := its, gens := gensOf ps, outstanding := false, cache := e.h.cache } s)

end Sys2Proof.Machine
end

