-- ==== Sys2Proof/Machine/EvMemory.lean ====
section
/-!
DEFINITION. Sys2Proof/Machine/EvMemory.lean: what the memory system does with operations in flight: loads and fills, stores,
atomics, AOADD, key-table spills, copies and gathers (01 R39 to R41; 02 R46 to R48; 03 R60, R61; 04 R74 to R76, R89; 07 R164, R166;
11 R269). An event whose conditions do not hold changes nothing (log 3, DESIGN CHOICE).
-/

namespace Sys2Proof.Machine

/-- An event on an operation in flight. -/
def onEvent (s : State) (op : Nat) (f : Op → State) : Answer :=
  .next (match s.op op with | some o => f o | none => s)
/-- Every line operation has finished. -/
def Op.allFinished (o : Op) : Bool := o.lines.all (· == .finished)
/-- An operation has completed for its strand: its deferred faults, its samples, and what its watchpoints stop (03 R67, 15 R378,
R384); a firing beside a fault is only noted (15 R374). `hit` tells which requests the L1 served. -/
def State.retire (s : State) (id : Nat) (o : Op) (hit : Nat → Bool := fun _ => false) : State :=
  let s1 := (((s.deferBad o).writeSamples o hit).setOp id { o with tags := [] }).finishOp id
  if o.failure.isSome && !o.fired.isEmpty then s1.onCore o.core fun c => { c with dbgstat := c.dbgstat ||| 0x1000 }
  else match s1.strand o.strand with
    | some st => s1.watchStop o.strand o.pathOf o.pc (st.path o.pathOf).rewind.pc o.fired
    | none => s1

/-- Where an operation reads a byte: what a fill brought, the L1, or, past the L1, its home (04 R74). The second part says that
the byte comes from an L1 line that was present. -/
def State.byteFor (s : State) (o : Op) (a : Nat) : Option (Byte × Bool) :=
  match look o.got (lineOf a) with
  | some bs => some (bs.getD (a % 128) 0, false)
  | none =>
    if o.cache = 2 ∨ isHost a then some (readByte s.mem a, false)
    else match look (s.core o.core).l1 (lineOf a) with
      | some l => some (l.data.getD (a % 128) 0, true)
      | none => none
/-- The bytes of an item of a load, where all are at hand. -/
def State.itemBytes (s : State) (o : Op) (i : Item) : Option (List Byte) :=
  i.src.mapM fun b => match b with
    | .pad x => some x
    | .mem a => (s.byteFor o a).map (·.1)
/-- A byte comes from the L1. -/
def State.fromL1 (s : State) (o : Op) (a : Nat) : Bool := match s.byteFor o a with | some (_, h) => h | none => false

/-- A load returns (07 R160, R161; 04 R74; 09 R217); a prefetch ends when each of its lines has come, or is past the L1's concern (07
R162). -/
def execLoadDataReturn (op : Nat) (s : State) : Answer :=
  onEvent s op fun o =>
    let present (l : Nat) : Bool := (look o.got l).isNone && (look (s.core o.core).l1 l).isSome
    match o.kind with
    | .prefetch allocate =>
      if !allocate then (s.chargeHomes o.core o.ctx o.allLines).retire op o
      else if o.allLines.all fun l => (look o.got l).isSome || present l then s.retire op o fun n => present (o.allLines.getD n 0)
      else s
    | _ => match o.items.mapM (s.itemBytes o), o.kind with
      | none, _ => s
      | some bss, kind =>
        let act : Bool := match kind with | .load .. | .lmrg _ => true | _ => false
        if !act || !s.ordered op o || !s.together o then s
        else
          let d := coreDie o.core
          let bad (i : Item) : Nat := if i.bad ≠ 0 then i.bad else s.readCause d ((memKeys i.src).filter fun a => !s.fromL1 o a)
          let its := (o.items.zip bss).map fun x => ({ x.1 with bad := bad x.1, val := leNat x.2 } : Item)
          let good := its.filter (·.bad == 0)
          let s1 := s.onStrand o.strand fun st => match kind with
            | .load dst n sx uni =>
              if uni then good.foldl (fun st i => st.setSGroup dst (regsOf n) i.val) st
              else good.foldl (fun st i => st.setGroup dst (regsOf n) i.t (loadValue n sx i.val)) st
            | .lmrg acc =>
              let l := BitVec.ofNat 1 acc
              good.foldl (fun st i => st.setAcc l ((st.acc l).merge (BitVec.ofNat 512 i.val))) st
            | _ => st
          let keys := dedup (o.items.flatMap fun i => memKeys i.src)
          let hits := dedup ((keys.filter (s.fromL1 o)).map lineOf)
          let away := dedup ((keys.filter fun a => !s.fromL1 o a && (look o.got (lineOf a)).isNone).map lineOf)
          let s2 := (s1.charge o.core o.ctx 6 hits.length).chargeHomes o.core o.ctx away
          s2.retire op { o with items := its } fun n => hits.contains (o.allLines.getD n 0)

/-- An operation of the core that waits for a fill of the line (04 R74). -/
def Op.wantsFill (o : Op) (core line : Nat) : Bool :=
  o.core == core && o.cache != 2 && !isHost (line * 128) && o.allLines.contains line && (look o.got line).isNone &&
  (match o.kind with | .load .. | .lmrg _ | .prefetch _ => true | _ => false)
/-- A write of the core to the line is on its way to its home, and what a fill brings now would outlive it (04 R74). -/
def Op.changesLine (o : Op) (core line : Nat) : Bool := o.core == core && (match o.kind with
  | .atomic .. | .copyv _ => o.items.any fun i => !o.lineIs i.line .finished && (i.dst.map lineOf).contains line
  | .aoadd _ _ _ _ st _ => st != 3 && o.items.any fun i => (i.dst.map lineOf).contains line
  | _ => false)
/-- An operation in flight asks for a line: it needs the line and has not got it, no older one holds it back, and the L1 does not serve
it: the line is absent, or bytes read as one lie in lines of different fills (04 R74, 11 R267). -/
def State.asks (s : State) (core line : Nat) (x : Nat × Op) : Bool :=
  x.2.wantsFill core line && s.ordered x.1 x.2 && ((look (s.core core).l1 line).isNone || !s.together x.2)
/-- The lines that come together for an operation (11 R267). -/
def Op.fillLines (o : Op) (line : Nat) : List Nat := if o.split then o.cacheLines else [line]
/-- A filled line is installed, unless an invalidation overtook every request for it and it is absent, the core is changing the line past
its L1, or its data cannot be read (04 R74, R76; log 6, DESIGN CHOICE). -/
def State.installFill (s : State) (core : Nat) (want : List (Nat × Op)) (line : Nat) : State :=
  let old := look (s.core core).l1 line
  let live := want.filter fun x => x.2.wantsFill core line && !x.2.dead.contains line
  let readable := !(keysFrom (line * 128) 128).any (s.readFails (coreDie core))
  if (live.isEmpty && old.isNone) || !readable || s.ops.any fun x => x.2.changesLine core line then s
  else
    let rol := (live.any fun x => x.2.items.any fun i => i.lines.contains line && i.rol) || old.any (·.rol)
    let first := live.all (·.2.cache == 1) && old.all (·.first)
    let s1 := s.onCore core fun c => { c with l1 := installLine (s.waysOf core) c.l1 line { data := readAt s.mem (line * 128) 128, rol, first, since := s.now } }
    let outlives (o : Op) : Op := match o.kind with
      | .store true => if o.core == core then { o with dead := o.dead ++ [line] } else o
      | _ => o
    { s1 with ops := s1.ops.map fun x => (x.1, outlives x.2) }
/-- A fill returns for the operations that ask for the line, with every line that the first of them reads together with it; the requests it
serves are complete (04 R74, 11 R267, 15 R384). -/
def execL1FillReturn (core line : Nat) (s : State) : Answer :=
  .next <| match s.ops.filter (s.asks core line) with
  | [] => s
  | w :: _ =>
    let lines := w.2.fillLines line
    let want := s.ops.filter fun x => (lines.any fun l => s.asks core l x) && (!x.2.split || x.2.cacheLines.all lines.contains)
    let s1 := lines.foldl (fun (s : State) l => s.installFill core want l) s
    let bring (o : Op) : Op := lines.foldl (fun (o : Op) l =>
      if o.wantsFill core l then { o with got := upd o.got l (some (readAt s.mem (l * 128) 128)) } else o) o
    let s2 := want.foldl (fun (s : State) x => match s.op x.1 with
      | some o => s.requestsDone x.1 (bring o) fun n => lines.contains (o.allLines.getD n 0)
      | none => s) s1
    lines.foldl (fun (s : State) l => (s.charge core w.2.ctx 6 1).chargeHome core w.2.ctx l) s2

/-- One thread's write at its home: the state, and what it fires (11 R269, 15 R378). -/
def writeItem (s : State) (o : Op) (addr : Nat) (dst : List Nat) (v : Nat) : State × List (Nat × Nat) :=
  let s1 := s.setMem (writeBytes s.mem dst (leBytes dst.length v))
  let g := (s.gang o.gang).getD {}
  (s1, if o.watched then fires s s1 o.core o.ctx g false addr dst else [])
/-- A store takes effect at its home, threads in ascending order (11 R269, 07 R160). -/
def execStoreAtHome (op : Nat) (s : State) : Answer :=
  onEvent s op fun o => match o.kind with
    | .store false =>
      if !s.ordered op o then s
      else
        let go (r : State × List (Nat × Nat × Nat) × List Item) (i : Item) : State × List (Nat × Nat × Nat) × List Item :=
          let c := s.writeCause (coreDie o.core) i.dst
          if c ≠ 0 then (r.1, r.2.1, r.2.2 ++ [{ i with bad := c }])
          else
            let (s1, fs) := writeItem r.1 o i.addr i.dst i.val
            (s1, r.2.1 ++ fs.map fun f => (i.t, f), r.2.2 ++ [i])
        let (s1, fs, its) := o.items.foldl go (s, [], [])
        (s1.fired o.core (fs.map (·.2))).setOp op { o with kind := .store true, items := its, fired := fs.map fun (f : Nat × Nat × Nat) => (f.1, f.2.2), dead := [], homed := s.now }
    | _ => s
/-- Acknowledgements of one core's stores to a byte return in the order in which the stores took effect (11 R270; 04 R74). -/
def State.ackOrdered (s : State) (id : Nat) (o : Op) : Bool :=
  !s.ops.any fun (i, p) => i != id && p.core == o.core && p.kind == .store true && decide (p.homed < o.homed) && meets o.writes p.writes
/-- The acknowledgement of a store returns: the core's present lines are updated (11 R269; log 35, DEDUCED). -/
def execStoreAck (op : Nat) (s : State) : Answer :=
  onEvent s op fun o => match o.kind with
    | .store true =>
      if !s.ackOrdered op o then s else
      let good := o.items.filter (·.bad == 0)
      let l1 := (s.core o.core).l1
      let put (m : Tab L1Line) (x : Nat × Byte) : Tab L1Line :=
        let l := lineOf x.1
        if o.dead.contains l then m
        else match look m l with
          | some e => upd m l (some { e with data := e.data.set (x.1 % 128) x.2 })
          | none => m
      let s1 := s.onCore o.core fun c => { c with l1 := (good.flatMap fun i => i.dst.zip (leBytes i.dst.length i.val)).foldl put c.l1 }
      let lines := o.allLines
      let present := lines.filter fun l => (look l1 l).isSome && !o.dead.contains l
      let home := lines.filter fun l => !isStack (l * 128) || o.cache == 2
      ((s1.charge o.core o.ctx 6 present.length).chargeHomes o.core o.ctx home).retire op o
    | _ => s

/-- A slice applies one atomic line operation, its elements in thread order (02 R47, 07 R164). -/
def execSliceAtomicLineOp (op line : Nat) (s : State) : Answer :=
  onEvent s op fun o => match o.kind with
    | .atomic f _ _ w rm =>
      if !o.lineIs line .waiting || !s.ordered op o then s
      else
        let go (r : State × List (Nat × Nat × Nat) × List Item) (i : Item) : State × List (Nat × Nat × Nat) × List Item :=
          if i.line ≠ line then (r.1, r.2.1, r.2.2 ++ [i])
          else
            let c := s.readCause (coreDie o.core) i.dst
            if c ≠ 0 then (r.1, r.2.1, r.2.2 ++ [{ i with bad := c }])
            else
              let old := leNat (i.dst.map (readByte r.1.mem))
              let (s1, fs) := writeItem r.1 o i.addr i.dst (atomNew f w rm old i.val i.cmp)
              (s1, r.2.1 ++ fs.map fun f => (i.t, f), r.2.2 ++ [{ i with val := old }])
        let (s1, fs, its) := o.items.foldl go (s, [], [])
        let mine := dedup ((o.items.filter (·.line == line)).flatMap Item.lines)
        ((s1.fired o.core (fs.map (·.2))).chargeHomes o.core o.ctx mine).requestsDone op
          ({ o with items := its, fired := o.fired ++ fs.map fun (f : Nat × Nat × Nat) => (f.1, f.2.2) }.setLine line .finished) (· == line)
    | _ => s
/-- The old values, or the acknowledgement, of an atomic, a CPYV or an AOADD reach the core (07 R164, R166; 03 R61). -/
def execAtomicResultReturn (op : Nat) (s : State) : Answer :=
  onEvent s op fun o =>
    if !o.allFinished then s
    else
      let good := o.items.filter (·.bad == 0)
      let give (dst n : Nat) (its : List Item) : State := s.onStrand o.strand fun st => its.foldl (fun st i => st.setGroup dst n i.t i.val) st
      match o.kind with
      | .atomic f ret dst _ _ => (if ret then give dst (if f = 14 then 4 else atomBytes f / 4) good else s).retire op o
      | .copyv dst => (give dst 2 good).retire op o
      | .aoadd wide dst _ _ _ _ =>
        let failed := o.items.any (·.bad != 0)
        (if failed then s else give dst (if wide then 2 else 1) (o.items.drop 1)).retire op o
      | _ => s

/-- The slice of a line of a stack or of Onyx SRAM: its die and index (02 R43, R46, R47). -/
def sliceOf (k : Nat) : Nat × Nat :=
  if isStack k then
    let b := k % 2 ^ 37
    (k / 2 ^ 37 / 4, 16 * (k / 2 ^ 37 % 4) + Nat.xor (bits b 7 4) (bits b 11 4))
  else
    let p := (k - 2 ^ 41) % 2 ^ 29
    (dieOfKey k, Nat.xor (bits p 7 6) (bits p 13 6))
def Op.cellKey (o : Op) : Nat := ((o.items.map (·.dst)).headD []).headD 0
/-- The requests parked at a slice (07 R166). -/
def parkedAt (s : State) (sl : Nat × Nat) : Nat :=
  (s.ops.filter fun x => (match x.2.kind with | .aoadd _ _ _ _ 1 _ => true | _ => false) && sliceOf x.2.cellKey == sl).length
/-- An AOADD meets its slice: it takes its turn, parks until its rank is TURN, however long no strand of that rank issues, or is
returned (07 R166, R167; log 36, DEDUCED). It writes VAL, of .b32 its low word, and TURN (07 R165). -/
def execAoaddSliceApply (op : Nat) (s : State) : Answer :=
  onEvent s op fun o => match o.kind, o.items with
    | .aoadd wide dst rank sum st since, cell :: parts =>
      if 2 ≤ st ∨ !s.ordered op o then s
      else
        let ks := cell.dst
        let c := s.readCause (coreDie o.core) ks
        let done (o : Op) : Op := { o with kind := .aoadd wide dst rank sum 3 since, lines := [.finished] }
        if c ≠ 0 then s.setOp op (done { o with items := { cell with bad := c } :: parts })
        else
          let turn := leNat (((ks.drop 8).take 4).map (readByte s.mem))
          if turn ≠ rank.toNat then
            if st = 1 then s
            else if parkedAt s (sliceOf (ks.headD 0)) < 64 then s.setOp op { o with kind := .aoadd wide dst rank sum 1 since }
            else s.setOp op { o with kind := .aoadd wide dst rank sum 2 (dieCycle (coreDie o.core) s.now) }
          else
            let n := if wide then 64 else 32
            let old := leNat ((ks.take (n / 8)).map (readByte s.mem))
            let all := leNat (ks.map (readByte s.mem))
            let new := all - old + (old + sum) % 2 ^ n
            let new := new - turn * 2 ^ 64 + (turn + 1) % 2 ^ 32 * 2 ^ 64
            let s1 := s.setMem (writeBytes s.mem ks (leBytes 16 new))
            let g := (s.gang o.gang).getD {}
            let part (a n : Nat) : List (Nat × Nat) := if o.watched then fires s s1 o.core o.ctx g false (cell.addr + a) ((ks.drop a).take n) else []
            let fs := part 0 (n / 8) ++ part 8 4
            let fired := fs.flatMap fun f => (active o.mask).map fun t => (t, f.2)
            let noted := if o.mask = 0 then [] else fs
            let parts' := parts.map fun (i : Item) => { i with val := (old + i.val) % 2 ^ n }
            ((s1.fired o.core noted).chargeHomes o.core o.ctx [lineOf o.cellKey]).setOp op (done { o with items := cell :: parts', fired })
    | _, _ => s
/-- A returned AOADD is sent again after 256 die cycles (07 R166). -/
def execAoaddResend (op : Nat) (s : State) : Answer :=
  onEvent s op fun o => match o.kind with
    | .aoadd wide dst rank sum 2 since =>
      if dieCycle (coreDie o.core) s.now < since + 256 then s else s.setOp op { o with kind := .aoadd wide dst rank sum 0 0 }
    | _ => s

/-- A fault that a path learns of after the instruction has issued: it stops now, or, when it holds a record, after its resume
(14 R345). -/
def State.lateFault (s : State) (o : Op) (f : PathFault) : State :=
  match s.strand o.strand with
  | none => s
  | some st =>
    let p := st.path o.pathOf
    if p.fault.isSome then s.setStrand o.strand { st with deferred := st.deferred ++ [{ fault := f, path := o.path, acc := o.acc, batch := o.batch, drain := st.draining }] }
    else s.faultPath o.strand o.pathOf f p.rewind.pc
/-- The append of one entry by the home slice: its place, or why it fails (04 R89): NSP, the entries and the comparison with EXTENT count
from the address the spill pair names (log 90, DESIGN CHOICE). The slice's and the core's lines are charged (14 R364). -/
def spillAppend (s : State) (core ctx : Nat) (r : Option ObjRec) (d : KeyDesc) (key v : Nat) : Except (Failed × Nat) State :=
  match spillKeys s core ctx r d.spobj 0 8 .atomic with
  | .error f => .error (f, d.spobj)
  | .ok ks =>
    let n := leNat (ks.map (readByte s.mem))
    let ext := match r with | some r => r.extent | none => 0
    if ext < d.spobj % 2 ^ 40 + 16 + 16 * (n + 1) then .error (⟨9, 0x82, 0⟩, d.spobj)
    else match spillKeys s core ctx r d.spobj (16 + 16 * n) 16 .write with
      | .error f => .error (f, d.spobj + 16 + 16 * n)
      | .ok es =>
        let s1 := s.setMem (writeBytes s.mem ks (leBytes 8 (n + 1)))
        .ok ((s1.setMem (setEntry s1.mem es key v)).chargeHomes core ctx (dedup (ks.map lineOf) ++ dedup (es.map lineOf)))
/-- The home slice appends for the next waiting thread of a key-table instruction, and the threads after it are applied, all against the
record that the instruction was accepted with (04 R89, R90; 01 R29). -/
def execKeySpillAppend (op : Nat) (s : State) : Answer :=
  onEvent s op fun o => match o.kind, s.gang o.gang with
    | .key f n _ _, some g => match look g.keys n, o.items.find? (·.line == 0) with
      | some desc, some i =>
        let r := carriedRecord o.carried
        let mark (x : Item) (y : Item) : Item := if x.t == i.t then y else x
        let (s1, its, desc1) : State × List Item × KeyDesc := match spillAppend s o.core o.ctx r desc i.cmp i.val with
          | .error (x, a) => (s, o.items.map fun x' => mark x' (i.outcome 3 0 x a), desc)
          | .ok s1 => (s1.onGang o.gang fun g => { g with keys := upd g.keys n (some { desc with spl := true }) },
              o.items.map fun x' => mark x' (i.outcome 2 0 ⟨0, 0, 0⟩ 0), { desc with spl := true })
        let (s2, its1, fin) := applyAll g o.core o.ctx r desc1 f s1 its
        if !fin then s2.setOp op { o with items := its1 }
        else
          let s3 := (s2.keyDone { o with items := its1 }).finishOp op
          match worst (keyFailures its1) with
          | none => s3
          | some (x, m, a) => s3.lateFault o { cause := x.cause, qual := x.qual, emask := m, pc := o.pc, addr := a }
      | _, _ => s
    | _, _ => s
/-- HCLAIM's clearing ends, 16u die cycles after it began: every entry is empty, and the handle is written (04 R86, 07 R176). -/
def execHclaimClearDone (op : Nat) (s : State) : Answer :=
  onEvent s op fun o => match o.kind, o.items, s.gang o.gang with
    | .hclaim u, i :: _, some g => match look g.keys i.t with
      | some desc =>
        let d := coreDie o.core
        if dieCycle d s.now < dieCycle d o.born + 16 * u then s
        else
          let clear (m : List Host.Cell) (p : Nat) : List Host.Cell := setEntry m (entryKeys g desc p) emptyKey 0
          let s1 := s.setMem ((List.range (4 * desc.buckets)).foldl clear s.mem)
          (s1.onStrand o.strand fun st => o.sregs.foldl (fun st r => st.setS r (BitVec.ofNat 32 i.val)) st).finishOp op
      | none => s
    | _, _, _ => s

/-- The copy engine of a line operation: its die and number (03 R60), by the address of its line in its stack, its die's Onyx SRAM or the
core's scratchpad (log 103, DESIGN CHOICE). -/
def engineOf (o : Op) (line : Nat) : Nat × Nat :=
  let k := (((o.items.filter (·.line == line)).map (·.dst)).headD []).headD 0
  let l := if isScratch k then k % 2 ^ 20 else if isStack k then k % 2 ^ 37 else k % 2 ^ 29
  (coreDie o.core, bits l 7 4)
/-- The line operations an engine has accepted and not finished (03 R60). -/
def engineLoad (s : State) (e : Nat × Nat) : Nat :=
  s.ops.foldl (fun n x => match x.2.kind with
    | .copy _ | .copyv _ => n + ((List.range x.2.lines.length).filter fun l => x.2.lineIs l .accepted && engineOf x.2 l == e).length
    | _ => n) 0
/-- An engine accepts a line operation (03 R60), those of one strand in the order of its copies (log 92, DESIGN CHOICE). -/
def execCopyEngineAccept (op line : Nat) (s : State) : Answer :=
  onEvent s op fun o =>
    let copies (o : Op) : Bool := match o.kind with | .copy _ | .copyv _ => true | _ => false
    let behind := s.ops.any fun x => decide (x.1 < op) && x.2.strand == o.strand && copies x.2 && x.2.lines.any (· == .waiting)
    if copies o && o.lineIs line .waiting && !behind && decide (engineLoad s (engineOf o line) < 512) then s.setOp op (o.setLine line .accepted) else s
/-- The items of a copy with their sources read, all in one step (03 R58; log 91, DESIGN CHOICE). -/
def Op.capture (o : Op) (s : State) : Op :=
  if !o.data.isEmpty then o
  else { o with data := [[]], items := o.items.map fun i =>
    { i with val := leNat (i.src.map (Src.read s.mem)), bad := if i.bad ≠ 0 then i.bad else s.readCause (coreDie o.core) (memKeys i.src) } }
/-- An engine finishes a line operation: a byte that a higher thread also writes is left to it (03 R58), bytes that have landed are
credited (03 R69, R70). None of a copy finishes before engines have accepted all (03 R60; log 92, DESIGN CHOICE), the first to finish reads
every source, and each is written in one step (log 91, DESIGN CHOICE). -/
def execCopyLineOpComplete (op line : Nat) (s : State) : Answer :=
  onEvent s op fun o0 => match o0.kind with
    | .copy slot =>
      if !o0.lineIs line .accepted || o0.lines.any (· == .waiting) || (o0.data.isEmpty && !s.ordered op o0) then s
      else
        let o := o0.capture s
        let bad (i : Item) : Nat := if i.bad ≠ 0 then i.bad else s.writeCause (coreDie o.core) i.dst
        let its := o.items.map fun (i : Item) => if i.line == line then { i with bad := bad i } else i
        let mine := its.filter (·.line == line)
        let above (i : Item) (k : Nat) : Bool := its.any fun (j : Item) => decide (i.t < j.t) && j.bad == 0 && j.dst.contains k
        let put (m : List Host.Cell) (i : Item) : List Host.Cell :=
          ((i.dst.zip (leBytes i.dst.length i.val)).filter fun x => !above i x.1).foldl (fun (m : List Host.Cell) x => writeByte m x.1 x.2) m
        let s1 := s.setMem ((mine.filter (·.bad == 0)).foldl put s.mem)
        let s2 := match slot with
          | some c => mine.foldl (fun (s : State) (i : Item) => s.credit o.gang c i.dst.length) s1
          | none => s1
        let keys := mine.flatMap fun i => memKeys i.src ++ i.dst
        let s3 := (s2.charge o.core o.ctx 5 (if keys.any isScratch then 1 else 0)).chargeHomes o.core o.ctx
          (dedup ((keys.filter fun k => !isScratch k).map lineOf))
        let o' := ({ o with items := its } : Op).setLine line .finished
        if o'.allFinished then (s3.setOp op o').retire op o' else s3.requestsDone op o' (· == line)
    | _ => s
/-- The slice applies a tile operation, its threads in ascending order (03 R61). -/
def execCpyvTileOp (op line : Nat) (s : State) : Answer :=
  onEvent s op fun o => match o.kind with
    | .copyv _ =>
      if !o.lineIs line .accepted || !s.ordered op o then s
      else
        let d := coreDie o.core
        let go (r : State × List Item) (i : Item) : State × List Item :=
          if i.line ≠ line then (r.1, r.2 ++ [i])
          else
            let c := if i.bad ≠ 0 then i.bad else s.readCause d (memKeys i.src ++ i.dst)
            if c ≠ 0 then (r.1, r.2 ++ [{ i with bad := c }])
            else
              let old := leNat ((i.dst.take 8).map (readByte r.1.mem))
              let s1 := if old = i.cmp then r.1.setMem (writeBytes r.1.mem i.dst (i.src.map (Src.read r.1.mem))) else r.1
              (s1, r.2 ++ [{ i with val := old }])
        let (s1, its) := o.items.foldl go (s, [])
        let keys := (o.items.filter (·.line == line)).flatMap fun i => memKeys i.src ++ i.dst
        let s2 := (s1.charge o.core o.ctx 5 (if keys.any isScratch then 1 else 0)).chargeHomes o.core o.ctx
          (dedup ((keys.filter fun k => !isScratch k).map lineOf))
        s2.requestsDone op ({ o with items := its }.setLine line .finished) (· == line)
    | _ => s

/-- The stack whose gather unit serves a part: that of its first byte; none for another placement (01 R39, 07 R172). -/
def Item.unit (i : Item) : Option Nat := match memKeys i.src with
  | k :: _ => if isStack k then some (k / 2 ^ 37) else none
  | [] => none
/-- The requests a unit holds (01 R41). -/
def unitLoad (s : State) (u : Nat) : Nat :=
  s.ops.foldl (fun n x => match x.2.kind with
    | .gather .. => n + (x.2.items.filter fun i => i.unit == some u && x.2.lineIs i.line .accepted).length
    | _ => n) 0
/-- The unit of a part takes 64 requests (01 R41). -/
def Item.room (i : Item) (s : State) : Bool := match i.unit with | some u => decide (unitLoad s u < 64) | none => true
/-- A part's element is read, from the core or the unit that forwards it (01 R40; log 22, DEDUCED; log 52, DEDUCED). -/
def Op.gathered (o : Op) (s : State) (i : Item) : Item :=
  { i with val := leNat (i.src.map (Src.read s.mem)), rank := 9
           bad := if i.bad ≠ 0 then i.bad else s.readCause (i.via.getD (coreDie o.core)) (memKeys i.src) }
def Op.setItem (o : Op) (i : Item) : Op := { o with items := o.items.map fun x => if x.t == i.t then i else x }
/-- The second hop of a part of GATH.x: the sentinel, a failure, or the element its index names in the value object, by the record the
request carries (01 R39 to R41; log 31, DEDUCED). True where the element is to be read. -/
def Op.second (o : Op) (s : State) (n : Nat) (i : Item) : Item × Bool :=
  let d := coreDie o.core
  let j := leNat (i.src.map (Src.read s.mem))
  let c := s.readCause d (memKeys i.src)
  let base := i.cmp % 2 ^ 64
  let addr := (base + j * n) % 2 ^ 64
  let fail (f : Failed) : Item × Bool := ({ i with addr, bad := f.cause + 256 * f.qual, rank := f.rank, cmp := 0 }, false)
  if c ≠ 0 then ({ i with bad := c, rank := 9, cmp := 0 }, false)
  else if j = 0xFFFFFFFF then ({ i with src := [], val := 0, cmp := 0 }, false)
  else match translateFrom s d o.ctx (carriedRecord o.carried) base (j * n) n .read false with
    | .error f => fail f
    | .ok l => ({ i with addr, src := l.bytes, cmp := 0, via := i.unit.map (· / 4) }, true)
/-- Every index of a GATH.x has been followed: its precise failures, those of the first hop among them, stop its path, and their parts
are done (01 R41, R28). -/
def State.resolve (s : State) (op : Nat) : State := match s.op op with
  | none => s
  | some o =>
    let failed (i : Item) : Bool := i.bad != 0 && !i.late
    if o.unresolved then s
    else match ({ o with items := o.items.filter failed } : Op).failure with
      | none => s
      | some (f, m, a) =>
        let o' := (o.items.filter failed).foldl (fun (o : Op) i => o.setLine i.line .finished) { o with items := o.items.filter fun i => !failed i }
        let s1 := (s.setOp op o').lateFault o { cause := f.cause, qual := f.qual, emask := m, pc := o.pc, addr := a }
        if o'.allFinished then s1.retire op o' else s1
/-- A unit takes a request part (01 R39 to R41; log 31, DEDUCED): an element it holds itself it reads at once. -/
def execGatherUnitRequest (op part : Nat) (s : State) : Answer :=
  onEvent s op fun o => match o.kind, o.items.find? (·.line == part) with
    | .gather n _ _ _, some i =>
      if !o.lineIs part .waiting || !i.room s || !s.ordered op { o with items := [i] } then s
      else
        let s1 := s.chargeHomes o.core o.ctx (dedup ((memKeys i.src).map lineOf))
        if i.cmp < 2 ^ 64 then s1.setOp op ((o.setItem (o.gathered s i)).setLine part .accepted)
        else
          let (j, go) := o.second s n i
          if !go then (s1.setOp op ((o.setItem j).setLine part .accepted)).resolve op
          else if j.unit != i.unit then (s1.setOp op ((o.setItem j).setLine part .forwarded)).resolve op
          else if !s.ordered op { o with items := [j] } then s
          else ((s1.chargeHomes o.core o.ctx (dedup ((memKeys j.src).map lineOf))).setOp op
            ((o.setItem (o.gathered s j)).setLine part .accepted)).resolve op
    | _, _ => s
/-- A forwarded second hop reaches the unit that holds the element (01 R40, R41). -/
def execGatherForward (op part : Nat) (s : State) : Answer :=
  onEvent s op fun o => match o.kind, o.items.find? (·.line == part) with
    | .gather .., some i =>
      if !o.lineIs part .forwarded || !i.room s || !s.ordered op { o with items := [i] } then s
      else (s.chargeHomes o.core o.ctx (dedup ((memKeys i.src).map lineOf))).setOp op ((o.setItem (o.gathered s i)).setLine part .accepted)
    | _, _ => s
/-- A burst of at most 128 bytes returns from the unit of a part: that part and those after it that the unit has read (01 R39); its
elements are placed, and credited (07 R172, 03 R69; log 52, DEDUCED). -/
def execGatherBurstReturn (op part : Nat) (s : State) : Answer :=
  onEvent s op fun o => match o.kind, o.items.find? (·.line == part) with
    | .gather n dst toReg slot, some first =>
      if !o.lineIs part .accepted then s
      else
        let mine := (o.items.filter fun i => decide (part ≤ i.line) && i.unit == first.unit && o.lineIs i.line .accepted).take (128 / n)
        let good := mine.filter (·.bad == 0)
        let s1 := if toReg then s.onStrand o.strand fun st => good.foldl (fun st i => st.setGroup dst (regsOf n) i.t i.val) st
          else s.setMem (good.foldl (fun (m : List Host.Cell) i => writeBytes m i.dst (leBytes n i.val)) s.mem)
        let s2 := match slot, toReg with
          | some c, false => (mine.filter fun (i : Item) => i.bad == 0 || i.late).foldl (fun (s : State) _ => s.credit o.gang c n) s1
          | _, _ => s1
        let s3 := s2.charge o.core o.ctx 5 (if toReg then 0 else 1)
        let o' := mine.foldl (fun (o : Op) i => o.setLine i.line .finished) o
        if o'.allFinished then (s3.setOp op o').retire op o' else s3.setOp op o'
    | _, _ => s

/-- An access to host memory gets no completion in time: the threads concerned raise 0x28 (14 R346; log 30, DEDUCED). -/
def execPcieCompletionTimeout (op : Nat) (s : State) : Answer :=
  onEvent s op fun o => s.setOp op { o with items := o.items.map fun i => if (memKeys i.src).any isHost && i.bad == 0 then { i with bad := 0x28 } else i }

end Sys2Proof.Machine
end

