-- ==== Sys2Proof/Machine/Units.lean ====
section
/-!
DEFINITION. Sys2Proof/Machine/Units.lean: the boot log (16 R394) and the units that fail when ECC corrects too many of their errors (14
R369), Wilmo ports among them (02 R50).
-/

namespace Sys2Proof.Machine

/-- Replace bits [lo + n - 1 : lo] of a number. -/
def putBits (v lo n x : Nat) : Nat := v - bits v lo n * 2 ^ lo + x % 2 ^ n * 2 ^ lo

/-- The Wilmo port of a unit of class 6: the die links are its units 0 to 3, the ports follow them (log 16, PRESUMED). -/
def unitPort (cls unit : Nat) : Option Nat := if cls = 6 ∧ 4 ≤ unit then some (unit - 4) else none
/-- A Wilmo port leaves the routes, and CAPS.WPORTS counts one fewer (02 R50, 14 R369, 16 R391). -/
def State.dropPort (s : State) (port : Nat) : State :=
  if s.pkg.badPorts.contains port || decide (18 ≤ port) then s else
  let n := bits s.caps 26 5
  let win := { s.win with caps := BitVec.ofNat 64 (putBits s.caps 26 5 (n - 1)) }
  s.setPkg { s.pkg with badPorts := s.pkg.badPorts ++ [port], win }

/-- Fields of a log entry (16 R394). -/
def BootEntry.step (e : BootEntry) : Nat := bits e.word.toNat 0 8
def BootEntry.unit (e : BootEntry) : Nat := bits e.word.toNat 8 8
def BootEntry.result (e : BootEntry) : Nat := bits e.word.toNat 16 8
def BootEntry.detail (e : BootEntry) : Nat := bits e.word.toNat 64 64
/-- A log entry (16 R394). -/
def logEntry (step unit result bootNo detail : Nat) : BitVec 128 :=
  BitVec.ofNat 128 (step + unit * 2 ^ 8 + result * 2 ^ 16 + bootNo % 2 ^ 32 * 2 ^ 32 + detail % 2 ^ 64 * 2 ^ 64)
/-- The entry that a full log gives up: its oldest passed or skipped one, else its oldest (16 R394). -/
def logVictim (log : List BootEntry) : Option BootEntry :=
  let plain (e : BootEntry) : Bool := e.step != 8 && (e.result == 0 || e.result == 2)
  match leastBy BootEntry.age (log.filter plain) with
  | some e => some e
  | none => leastBy BootEntry.age log
/-- Write an entry to the boot log: a full log overwrites one of its 64 entries (16 R394). -/
def logAppend (log : List BootEntry) (word : BitVec 128) : List BootEntry :=
  let e : BootEntry := { word, age := log.foldl (fun n x => max n (x.age + 1)) 0 }
  if log.length < 64 then log ++ [e]
  else match logVictim log with
    | some v => log.map fun x => if x.age = v.age then e else x
    | none => log
/-- The 1,024 bytes of the boot log (16 R394). -/
def State.logBytes (s : State) : List Byte := ((s.pkg.bootLog.flatMap fun (e : BootEntry) => leBytes 16 e.word.toNat) ++ List.replicate 1024 0).take 1024

/-- The core that a unit of R369 belongs to, where its failure excludes a lane or a core. -/
def unitCore (cls unit : Nat) : Option Nat := if cls = 0 then some (unit / 64) else if cls = 1 then some unit else none
/-- A gang uses a lane or core that is out of use or about to be (14 R369). -/
def State.onUnit (s : State) (cls unit n : Nat) (g : Gang) : Bool := match unitCore cls unit with
  | some core => g.resident && g.core == core && (cls == 1 || s.strands.any fun y => y.2.gang == n && y.2.lane == unit % 64)
  | none => false
/-- Where the spare rows of a unit stand: an Onyx bank's own, an HBM4E stack's for its 64 pseudo-channels (14 R369, 01 R22). -/
def spareOwner (cls unit : Nat) : Nat := if cls = 5 then unit / 64 else unit
/-- A unit goes out of use: it is named in the log, so that it stays out, and the L1 of a disabled way keeps what its other ways hold (14
R369; log 6, DESIGN CHOICE). -/
def State.exclude (s : State) (cls unit : Nat) : State :=
  if s.pkg.excluded.contains (cls, unit) then s
  else
    let s1 := s.setPkg { s.pkg with
      excluded := s.pkg.excluded ++ [(cls, unit)], bootLog := logAppend s.pkg.bootLog (logEntry 8 cls 1 s.pkg.boots unit) }
    if cls = 2 then s1.onCore (unit / 12) fun c => { c with l1 := trimL1 (s1.waysOf (unit / 12)) c.l1 } else s1
/-- The notice 0xB3 that names a unit (14 R369, 16 R390). -/
def State.unitNotice (s : State) (cls unit : Nat) : State := s.postInterrupt 6 0 cls unit
/-- The action of R369's table on a failing unit, then its notice; the sparing that takes the last spare row is logged, and with none left
there is only the notice. -/
def State.unitActs (s : State) (cls unit : Nat) : State :=
  if cls = 3 ∨ cls = 5 then
    let key := cls * 2 ^ 32 + spareOwner cls unit
    let used := rd 0 s.pkg.spared key
    let rows := Config.spareRows cls (spareOwner cls unit)
    let s1 := if used < rows then s.setPkg { s.pkg with spared := wr 0 s.pkg.spared key (used + 1) } else s
    (if used + 1 = rows then s1.exclude cls unit else s1).unitNotice cls unit
  else if cls = 6 then
    match unitPort cls unit with
    | some p => ((s.dropPort p).exclude cls unit).unitNotice cls unit
    | none => s.unitNotice cls unit
  else (s.exclude cls unit).unitNotice cls unit
/-- A unit fails: with ACT = 0 a notice; else its action, once the gangs on its lane or core, marked for swap, are saved (14 R369). -/
def State.unitFails (s : State) (cls unit : Nat) : State :=
  if bits s.win.rascfg.toNat 16 1 = 0 then s.unitNotice cls unit
  else if s.gangs.any fun x => s.onUnit cls unit x.1 x.2 then
    (s.markSwap (s.onUnit cls unit)).setPkg { s.pkg with failing := s.pkg.failing ++ [(cls, unit)] }
  else s.unitActs cls unit
/-- The failing units that no gang is on any more take their action (14 R369). -/
def State.settleUnits (s : State) : State :=
  let free := s.pkg.failing.filter fun u => !s.gangs.any fun x => s.onUnit u.1 u.2 x.1 x.2
  let s1 := if free.isEmpty then s else s.setPkg { s.pkg with failing := s.pkg.failing.filter fun u => !free.contains u }
  free.foldl (fun (s : State) u => s.unitActs u.1 u.2) s1
/-- Units whose counts exceed THRESH fail, each once in a window (14 R369). -/
def State.overThreshold (s : State) : State :=
  let limit := bits s.win.rascfg.toNat 0 16
  s.dieSet.foldl (fun (s : State) d =>
    let fails := ((s.die d).errors.filter fun e => decide (limit < e.2) && !(s.die d).failed.contains e.1).map (·.1)
    if fails.isEmpty then s
    else fails.foldl (fun (s : State) key => s.unitFails (key / 2 ^ 32) (key % 2 ^ 32))
      (s.setDie d { s.die d with failed := (s.die d).failed ++ fails })) s
/-- Units out of use, or about to be, take no gang (14 R369; log 97, DESIGN CHOICE). -/
def State.out (s : State) (cls unit : Nat) : Bool := s.pkg.excluded.contains (cls, unit) || s.pkg.failing.contains (cls, unit)

end Sys2Proof.Machine
end

