-- ==== Sys2Proof/Machine/EvPublish.lean ====
section
/-!
DEFINITION. Sys2Proof/Machine/EvPublish.lean: publishes at their home units (01 R31 to R36), pins (01 R33), links that fail (02 R49,
R50) and soft errors (04 R75, 14 R369).
-/

namespace Sys2Proof.Machine

/-- A publish in progress. -/
def State.pub (s : State) (n : Nat) : Option Pub := look s.pkg.pubs n
def State.setPub (s : State) (n : Nat) (p : Option Pub) : State := s.setPkg { s.pkg with pubs := upd s.pkg.pubs n p }
def onPub (s : State) (n : Nat) (f : Pub → State) : Answer := .next (match s.pub n with | some p => f p | none => s)
/-- Change OPSTAT. -/
def State.opstat (s : State) (f : Nat → Nat) : State :=
  s.setPkg { s.pkg with win := { s.win with opstat := BitVec.ofNat 64 (f s.win.opstat.toNat) } }

/-- The port rejects a publish (01 R36). -/
def State.portReject (s : State) (n why : Nat) : State :=
  (s.setPub n none).opstat fun v => putBits (putBits (putBits v 0 1 0) 3 1 1) 5 3 why
/-- The record of a publish as its home unit sees it (01 R31). -/
def homeDie (s : State) (id : Nat) : Nat := s.dieSet.getD (id % s.dieSet.length) 0
def pubRecord (s : State) (p : Pub) : Option ObjRec := record s (homeDie s p.obj) p.ctx p.obj

/-- OPSTAT.CURGEN: the generation now current for the object of the port's last request (01 R36; log 56, DEDUCED). -/
def curGen (s : State) : Nat := match s.pkg.portLast with
  | none => 0
  | some (c, obj) => match s.ctx c with
    | none => 0
    | some x => if obj = 0 ∨ x.otlen ≤ obj then 0 else (parseRecord (s.sysRead (x.otbase + obj * 128) 128)).current.gen

/-- The home unit receives a request: one for each object at a time, in order (01 R31 step 1); the port's is checked (01 R36):
a context that has been started is active, whatever has since stopped or killed it (log 110, DESIGN CHOICE). -/
def execPublishRequest (pub : Nat) (s : State) : Answer :=
  onPub s pub fun p =>
    let earlier := s.pkg.pubs.any fun x => decide (x.1 < pub) && x.2.ctx == p.ctx && x.2.obj == p.obj
    if p.received || earlier then s
    else
      let ok := match pubRecord s p with
        | some r => (recordBad s (homeDie s p.obj) p.ctx r r.current).isNone
        | none => false
      if p.op.isNone && !ok then s.portReject pub 3 else s.setPub pub (some { p with received := true })
/-- A write of OPCMD (01 R36): a request that the port takes clears REJWHY and leaves REJ (log 111, DESIGN CHOICE). -/
def execPublishPortRequest (value : Nat) (s : State) : Answer :=
  .next (if !s.booted then s else if bits s.win.opstat.toNat 0 1 = 1 then s.opstat fun v => putBits v 4 1 1
    else
      let (n, s1) := s.fresh
      let p : Pub := { ctx := bits value 24 6, obj := bits value 0 24, expGen := some (bits value 32 32) }
      let s2 := s1.setPub n (some p)
      (s2.setPkg { s2.pkg with portLast := some (p.ctx, p.obj) }).opstat fun v => putBits (putBits v 0 1 1) 5 3 0)

/-- PUB has failed at the home unit: the whole strand raises 0x20 (07 R174; log 51, DEDUCED). -/
def State.pubFails (s : State) (n : Nat) (p : Pub) (qual : Nat) : State :=
  match p.op with
  | none => s.portReject n 2
  | some id => match s.op id with
    | none => s.setPub n none
    | some o => ((s.setPub n none).finishOp id).lateFault o { cause := 0x20, qual, emask := o.mask, whole := true, pc := o.pc, addr := p.obj * 2 ^ 40 }
/-- The home unit swaps the slots (01 R31 steps 2 to 5), and OPSTAT and OPLIVE follow the port's last publish (01 R36): the previous generation is retired, the shadow's is not pinned, and no
shadow write is in flight (log 51, DEDUCED). -/
def execPublishSwap (pub : Nat) (s : State) : Answer :=
  onPub s pub fun p => match pubRecord s p, s.ctx p.ctx with
    | some r, some c =>
      let d := homeDie s p.obj
      let retired := s.pkg.unretired.all fun u => u.ctx != p.ctx || u.obj != p.obj
      let drained := s.ops.all fun x => x.2.gens.all fun g => !g.shadow || g.ctx != p.ctx || g.obj != p.obj
      if !p.received || p.swapped || !retired || pinnedGen s p.ctx p.obj r.shadow.gen || decide (256 ≤ s.pkg.unretired.length) || !drained then s
      else if (match p.expGen with | some g => g != r.current.gen | none => false) then s.portReject pub 1
      else match recordBad s d p.ctx r r.shadow with
        | some q => s.pubFails pub p q
        | none =>
          let at' := c.otbase + p.obj * 128
          let gen := (r.current.gen + 1) % 2 ^ 32
          let s1 := s.sysWrite (at' + (if r.cur then 64 else 96) + 16) (leBytes 4 gen)
          let s2 := s1.sysWrite at' (leBytes 4 (Nat.xor (s.sysNat at' 4) (2 ^ 24)))
          let s3 := s2.setPub pub (some { p with swapped := true, waiting := s.dieSet, oldRecord := s.sysRead at' 128, newGen := gen })
          let port := p.op.isNone
          let others := if port then s3.pkg.unretired.map fun u => { u with port := false } else s3.pkg.unretired
          s3.setPkg { s3.pkg with unretired := others ++ [{ ctx := p.ctx, obj := p.obj, gen := r.current.gen, port }] }
    | _, _ => if p.received && !p.swapped then s.pubFails pub p 0 else s

/-- The offset in a placement's space of a byte of storage, where the placement holds it (01 R23). -/
def offsetIn (s : State) (place target k : Nat) : Option Nat :=
  let st := k / 2 ^ 37
  let b := k % 2 ^ 37
  if place = 0 then
    if !isStack k then none
    else if s.fourDies then some (b / 2 ^ 10 * 2 ^ 14 + Nat.xor st (b / 2 ^ 10 % 16) * 2 ^ 10 + b % 2 ^ 10)
    else if st < 8 then some (b / 2 ^ 10 * 2 ^ 13 + Nat.xor st (b / 2 ^ 10 % 8) * 2 ^ 10 + b % 2 ^ 10) else none
  else if place = 1 then
    if isStack k && st / 4 == target then some (b / 2 ^ 10 * 2 ^ 12 + Nat.xor (st % 4) (b / 2 ^ 10 % 4) * 2 ^ 10 + b % 2 ^ 10) else none
  else if place = 2 then (if isStack k && st == target then some b else none)
  else if place = 3 then (if isOnyx k && dieOfKey k == target then some ((k - 2 ^ 41) % 2 ^ 29) else none)
  else if isHost k then some (k - 2 ^ 64) else none
/-- A line lies within a slot's physical range (01 R31). -/
def lineInSlot (s : State) (sl : Slot) (line : Nat) : Bool := match offsetIn s sl.place sl.target (line * 128) with
  | some p => decide (sl.base ≤ p) && decide (p < sl.base + sl.pext)
  | none => false
/-- A die drops the record, and the lines of a read-only-for-launch object, and acknowledges (01 R31 step 6). -/
def execPublishInvalidateDie (pub die : Nat) (s : State) : Answer :=
  onPub s pub fun p =>
    if !p.swapped || !p.waiting.contains die then s
    else
      let r := parseRecord p.oldRecord
      let s1 := if !r.rol then s
        else ((List.range 136).map (die * 136 + ·)).foldl (fun (s : State) n =>
          s.invalidate n (fun l => lineInSlot s r.slotA l || lineInSlot s r.slotB l) false) s
      s1.setPub pub (some { p with waiting := p.waiting.filter (· != die) })
/-- Every die has acknowledged: the publish is complete (01 R31 step 7, R36; 07 R174). -/
def execPublishComplete (pub : Nat) (s : State) : Answer :=
  onPub s pub fun p =>
    if !p.swapped || !p.waiting.isEmpty then s
    else
      let s1 := s.setPub pub none
      match p.op with
      | none =>
        (s1.opstat fun v => putBits (putBits v 0 1 0) 1 1 1).postInterrupt 3 p.ctx (p.obj % 65536) p.newGen
      | some id => match s1.op id with
        | none => s1
        | some o =>
          (s1.onStrand o.strand fun st => o.sregs.foldl (fun st r => st.setS r (BitVec.ofNat 32 p.newGen)) st).finishOp id
/-- The translations of a generation in flight: one for each thread's access, of a copy or a gather until its line operation ends; writes of
the shadow are none of the previous generation's (01 R34, R36 OPLIVE; log 99, DESIGN CHOICE). -/
def inFlight (s : State) (die : Nat) (ctx obj gen : Nat) : Nat :=
  s.ops.foldl (fun n x => n + (x.2.gens.filter fun g => g.die == die && g.ctx == ctx && g.obj == obj && g.gen == gen && !g.shadow).length) 0
/-- A replaced generation is retired (01 R34, R36). -/
def execGenerationRetired (ctx obj : Nat) (s : State) : Answer :=
  .next (match s.pkg.unretired.find? fun u => u.ctx == ctx && u.obj == obj with
    | none => s
    | some u =>
      if pinnedGen s ctx obj u.gen || decide (([0, 1, 2, 3].map fun d => inFlight s d ctx obj u.gen).foldl (· + ·) 0 ≠ 0) ||
          s.pkg.pubs.any (fun p => p.2.swapped && p.2.ctx == ctx && p.2.obj == obj) then s
      else
        let s1 := s.setPkg { s.pkg with unretired := s.pkg.unretired.filter (· != u) }
        if u.port then (s1.opstat fun v => putBits v 2 1 1).postInterrupt 4 ctx (obj % 65536) (curGen s1) else s1)
/-- The release of the last pin of a generation reaches the home unit (01 R33). -/
def execPinRelease (ctx obj gen : Nat) (s : State) : Answer :=
  .next (s.setPkg { s.pkg with pins := s.pkg.pins.filter fun p => !(p.ctx == ctx && p.obj == obj && p.gen == gen && p.count == 0) })

/-- A die link fails: every access whose route crosses it meets 0xB2 (02 R49). -/
def execDieLinkFailure (link : Nat) (s : State) : Answer :=
  .next (if s.pkg.badLinks.contains link || decide (4 ≤ link) then s else s.setPkg { s.pkg with badLinks := s.pkg.badLinks ++ [link] })
/-- A Wilmo port fails and leaves the routes (02 R50); a reduction whose partials cross it fails (02 R54), which the arrival of its
partial reports (log 7, DESIGN CHOICE). -/
def execWilmoPortFailure (port : Nat) (s : State) : Answer :=
  .next (s.dropPort port)
/-- A soft error drops a line of an L1 (04 R75; log 6, DESIGN CHOICE). -/
def execL1SoftError (core line : Nat) (s : State) : Answer := .next (s.onCore core fun c => { c with l1 := upd c.l1 line none })

/-- ECC corrects an error of a unit, by the class of R369's table; a unit that passes the threshold of its window fails (14 R369; log 16,
PRESUMED). -/
def execCorrectedError (die cls unit : Nat) (s : State) : Answer :=
  let d := s.die die
  let key := cls * 2 ^ 32 + unit % 2 ^ 32
  .next (s.setDie die { d with errors := wr 0 d.errors key (rd 0 d.errors key + 1) }).overThreshold
/-- A window of 2^34 die cycles begins, and the die's counts clear (14 R369). -/
def execSoftErrorWindow (die : Nat) (s : State) : Answer := .next (s.setDie die { s.die die with errors := [], failed := [] })

end Sys2Proof.Machine
end

