-- ==== Sys2Proof/Machine/EvReduce.lean ====
section
/-!
DEFINITION. Sys2Proof/Machine/EvReduce.lean: reductions at the reduction point (02 R51 to R56). This package is a member of its
replica sets; what other packages send is free (log 7, DESIGN CHOICE): a request of another package is an event whose number spells out its header
and offsets, a partial's elements are free values.
-/

namespace Sys2Proof.Machine

/-- Add of R52: 0 int32, 1 int64, 2 grid words, 3 FP32. -/
def redAdd (f a b : Nat) : Nat :=
  if f = 0 then (a + b) % 2 ^ 32 else if f = 1 then (a + b) % 2 ^ 64 else if f = 2 then gridAdd a b else plainFadd a b
/-- The bytes of an element. -/
def redBytes (f : Nat) : Nat := if f = 1 then 8 else if f = 2 then 16 else 4
/-- Element-wise sums, the children's partials in order (02 R52). -/
def redFold (f : Nat) (own : List Nat) (kids : List (List Nat)) : List Nat :=
  kids.foldl (fun (p : List Nat) k => (p.zip k).map fun x => redAdd f x.1 x.2) own
/-- How many of the children 2k + 1 and 2k + 2 a rank has (02 R52). -/
def kidCount (rank count : Nat) : Nat := (if 2 * rank + 1 < count then 1 else 0) + (if 2 * rank + 2 < count then 1 else 0)

/-- Reductions that this package's reduction point holds, as requester or as member: one that is both takes one of the 256 places (02 R53,
R55; log 95, DEDUCED). -/
def heldReductions (s : State) : Nat :=
  let asked := s.ops.filter fun x => match x.2.kind with | .ldsum _ _ _ (some _) _ _ _ => true | _ => false
  asked.length + (s.pkg.members.filter fun x => !asked.any fun y => y.1 == x.1).length
/-- Count timeouts and overflows in RPSTAT, saturating (02 R55; log 95, DEDUCED). -/
def State.rpstat (s : State) (tmo ovf : Nat) : State :=
  let v := s.win.rpstat.toNat
  let bump (lo n : Nat) : Nat := min 65535 (bits v lo 16 + n)
  s.setPkg { s.pkg with win := { s.win with rpstat := BitVec.ofNat 64 (bump 16 tmo * 2 ^ 16 + bump 32 ovf * 2 ^ 32) } }
/-- The die cycles of a reduction's timeout (02 R54, R55). -/
def redTimeout (s : State) : Nat := 2 ^ bits s.win.rpctl.toNat 0 5
/-- 2^TOLOG of die 0's cycles have passed since a reduction, or an entry of it, began (02 R54). -/
def redLate (s : State) (since : Nat) : Bool := decide (since + redTimeout s ≤ dieCycle 0 s.now)
/-- A reduction completes without a fault and without a result (02 R54). -/
def State.redFails (s : State) (id : Nat) (o : Op) (q : Nat) : State :=
  (s.onStrand o.strand fun st => st.setP q (maskOf (o.items.map (·.t))) 0).finishOp id

/-- A link on the way from the core that asks to the reduction point on die 0 is down (02 R49, R53 step 2). -/
def State.pointCut (s : State) (o : Op) : Bool := (route (coreDie o.core) 0).any s.pkg.badLinks.contains
/-- Every thread of a reduction meets an error that is found after issue (02 R49, 07 R159). -/
def State.redCut (s : State) (id : Nat) (o : Op) : State := s.retire id { o with items := o.items.map fun i => { i with bad := 0xB2, rank := 9 } }
/-- The reduction point takes a request, or fails it when it is full (02 R53 step 2). -/
def execLdsumRequest (op : Nat) (s : State) : Answer :=
  onEvent s op fun o => match o.kind with
    | .ldsum f dst q none rset obj none =>
      if !s.ordered op o then s
      else if s.pointCut o then s.redCut op o
      else if 256 ≤ heldReductions s then (s.redFails op o q).rpstat 0 1
      else s.setOp op { o with kind := .ldsum f dst q (some (dieCycle 0 s.now)) rset obj none }
    | _ => s

/-- What a request tells a member: format, context, RSET, object, the object's format code and extent, offsets. -/
structure RedHeader where
  f : Nat
  ctx : Nat
  rset : Nat
  obj : Nat
  fmt : Nat
  extent : Nat
  offs : List Nat
  op : Option Nat
  deriving DecidableEq, Repr
/-- The header of a tag: that of a reduction this strand's package asks for, or one spelt out above bit 63 (log 7, DESIGN CHOICE). -/
def redHeader (s : State) (tag : Nat) : Option RedHeader :=
  if tag < 2 ^ 63 then match s.op tag with
    | some o => match o.kind with
      | .ldsum f _ _ (some _) rset obj none => match record s 0 o.ctx obj with
        | some r => some { f, ctx := o.ctx, rset, obj, fmt := r.fmt, extent := r.extent, offs := o.items.map (·.addr % 2 ^ 40), op := some tag }
        | none => none
      | _ => none
    | none => none
  else
    let n := bits tag 112 6
    some { f := bits tag 64 2, ctx := bits tag 66 6, rset := bits tag 72 16, obj := bits tag 88 24, fmt := bits tag 120 6
           extent := bits tag 128 40, offs := (List.range n).map fun i => bits tag (168 + 40 * i) 40, op := none }
/-- Where a member reads the element at an offset: its record's checks are R26's (02 R53). -/
def RedHeader.elem (h : RedHeader) (s : State) (o : Nat) : Except Failed Located := translate s 0 h.ctx (h.obj * 2 ^ 40 + o) (redBytes h.f) .read
/-- A member's own elements, or the status of its failure: any check of R26 that fails there is reported as remote (02 R53 step 4, R54; log
96, DESIGN CHOICE). -/
def redOwn (s : State) (h : RedHeader) : Except Nat (Nat × Nat × List Nat) :=
  match replicaSet s h.rset, record s 0 h.ctx h.obj with
  | some rs, some r =>
    if !r.repl || r.rset != h.rset || r.fmt != h.fmt || r.extent != h.extent then .error 2
    else match rs.rank s with
      | none => .error 2
      | some k =>
        let elem (o : Nat) : Option Nat := match h.elem s o with
          | .error _ => none
          | .ok l => if (memKeys l.bytes).any (s.readFails 0) then none else some (leNat (l.bytes.map (Src.read s.mem)))
        match h.offs.mapM elem with
        | some vs => .ok (k, rs.count, vs)
        | none => .error (3 + s.pkgId)
  | _, _ => .error 2
/-- The member's reads are charged to the strand that asked, where it is of this package (14 R364). -/
def RedHeader.pay (h : RedHeader) (s : State) : State := match h.op.bind s.op with
  | some o => s.chargeHomes o.core o.ctx (dedup (h.offs.flatMap fun x => match h.elem s x with
    | .ok l => (memKeys l.bytes).map lineOf
    | .error _ => []))
  | none => s
/-- P(0) has reached the requester: its elements by thread, and what came with them. -/
def State.redAnswer (s : State) (op : Option Nat) (status : Nat) (vs : List Nat) : State := match op with
  | none => s
  | some id => s.onOp id fun o => match o.kind with
    | .ldsum f d q t rs ob _ => { o with kind := .ldsum f d q t rs ob (some status), items := (o.items.zip vs).map fun x => { x.1 with val := x.2 } }
    | _ => o
/-- A member that has its children's partials sends its own, and frees its entry: the root's goes to the requester (02 R52 to R54). -/
def State.redDone (s : State) (tag : Nat) : State := match look s.pkg.members tag with
  | none => s
  | some m =>
    if m.kids.length < kidCount m.rank m.count then s
    else
      let ps := ([0, 1].filterMap fun i => (m.kids.find? fun x => x.1 == i).map (·.2))
      let s1 := s.setPkg { s.pkg with members := upd s.pkg.members tag none }
      if m.rank ≠ 0 then s1
      else s1.redAnswer m.op m.status (redFold m.f m.own ps)
/-- This package, as a member, receives a reduction's request: it allocates an entry and reads its elements; with no entry free it sends its
parent a failure, and the overflow is counted (02 R53 steps 3, 4, R54, R55; log 7, DESIGN CHOICE). -/
def execLdsumMemberRequest (tag : Nat) (s : State) : Answer :=
  .next (match redHeader s tag with
  | none => s
  | some h =>
    if (look s.pkg.members tag).isSome then s
    else if h.op.isNone && decide (256 ≤ heldReductions s) then s.rpstat 0 1
    else
      let (k, n, vs, st) := match redOwn s h with
        | .ok (k, n, vs) => (k, n, vs, 0)
        | .error e => (((replicaSet s h.rset).bind fun rs => rs.rank s).getD 0, ((replicaSet s h.rset).map (·.count)).getD 1, h.offs.map fun _ => 0, e)
      let m : Member := { f := h.f, rset := h.rset, rank := k, count := n, own := vs, status := st, start := dieCycle 0 s.now, op := h.op }
      ((h.pay s).setPkg { s.pkg with members := upd s.pkg.members tag (some m) }).redDone tag)
/-- A child's partial arrives: which child, and above bit 1 its status (02 R52, R54; log 7, DESIGN CHOICE). The member's own failure goes before
a child's, and the first child's to arrive before the other's (log 96, DESIGN CHOICE); a partial for an entry past its time finds it freed (02 R54). -/
def execLdsumPartial (tag child : Nat) (s : State) : Answer :=
  .next (match look s.pkg.members tag with
  | none => s
  | some m =>
    let i := child % 4
    if redLate s m.start then (s.setPkg { s.pkg with members := upd s.pkg.members tag none }).rpstat 1 0
    else if kidCount m.rank m.count ≤ i ∨ (m.kids.any fun x => x.1 == i) then s
    else
      let w := 8 * redBytes m.f
      let (vs, s1) := m.own.foldl (fun (r : List Nat × State) _ =>
        let (b, s') := r.2.freeValue w
        (r.1 ++ [b.toNat], s')) ([], s)
      let m' := { m with kids := m.kids ++ [(i, vs)], status := if m.status = 0 then child / 4 else m.status }
      (s1.setPkg { s1.pkg with members := upd s1.pkg.members tag (some m') }).redDone tag)
/-- The result reaches the requester: destinations and predicates, or the fault of a member (02 R53 step 5, R54). A root in another
package gives free values (log 7, DESIGN CHOICE). A reply past the timeout is discarded (02 R54). -/
def execLdsumResult (op : Nat) (s : State) : Answer :=
  onEvent s op fun o => match o.kind with
    | .ldsum f dst q (some since) rset _ res =>
      let root := ((replicaSet s rset).bind fun rs => rs.rank s) == some 0
      if s.pointCut o then s.redCut op o
      else if root && res.isNone then s
      else if redLate s since then (s.redFails op o q).rpstat 1 0
      else
        let (status, vs, s1) : Nat × List Nat × State := match res with
          | some st => (st, o.items.map (·.val), s)
          | none =>
            let (c, s1) := s.freeValue 2
            let (p, s2) := s1.freeValue 10
            let (vs, s3) := o.items.foldl (fun (r : List Nat × State) _ =>
              let (b, s') := r.2.freeValue (8 * redBytes f)
              (r.1 ++ [b.toNat], s')) ([], s2)
            (if c.toNat < 3 then c.toNat else 3 + p.toNat, vs, s3)
        let ts := maskOf (o.items.map (·.t))
        if status = 0 then
          let n := redBytes f / 4
          let s2 := s1.onStrand o.strand fun st =>
            ((o.items.zip vs).foldl (fun (st : Strand) x => st.setGroup dst n x.1.t x.2) st).setP q ts 0xFFFFFFFF
          s2.retire op o
        else if status = 1 then s1.redFails op o q
        else (s1.finishOp op).lateFault o {
          cause := 0x26, qual := if status = 2 then 0 else 0x13, emask := ts, pc := o.pc, addr := (o.items.map (·.addr)).headD 0
          aux := if status = 2 then 0 else status - 3 }
    | _ => s
/-- A reduction has waited 2^TOLOG of die 0's cycles: it completes as failed (02 R54). -/
def execLdsumTimeout (op : Nat) (s : State) : Answer :=
  onEvent s op fun o => match o.kind with
    | .ldsum _ _ q (some t) _ _ _ => if redLate s t then (s.redFails op o q).rpstat 1 0 else s
    | _ => s
/-- A member frees an entry that has waited 2^TOLOG of its die cycles (02 R54; log 95, DEDUCED). -/
def execLdsumEntryTimeout (tag : Nat) (s : State) : Answer :=
  .next (match look s.pkg.members tag with
  | none => s
  | some m => if redLate s m.start then (s.setPkg { s.pkg with members := upd s.pkg.members tag none }).rpstat 1 0 else s)

end Sys2Proof.Machine
end

