-- ==== Sys2Proof/Machine/Tasks.lean ====
section
/-!
DEFINITION. Sys2Proof/Machine/Tasks.lean: the task instructions (13 R332 to R337), and GIVE and CLAIM (12 R299 to R301).
-/

namespace Sys2Proof.Machine

/-- A record as SPWN forms it (13 R333). -/
def spawned (t : Task) (w domain ctx : Nat) : Task := { t with weight := w, domain, ctx }
/-- The 64 bytes of the scratchpad that a thread names: in one area (04 R79), and readable. -/
def Env.scratch64 (e : Env) (s : State) (a : Nat) : Except Failed (List Nat) := match scratch e.g a 64 with
  | .error f => .error f
  | .ok ks => if ks.any s.uncorrectable then .error ⟨9, 0xB2, 0⟩ else .ok ks
/-- One thread of SPWN (13 R333): the failures so far, the scratchpad keys read, and the state. `op` waits for its record. -/
def Env.spawnOne (e : Env) (second local' : Bool) (op : Nat) (a : Nat → Nat) (r : List (Nat × Nat × Failed) × List Nat × State) (t : Nat) :
    List (Nat × Nat × Failed) × List Nat × State :=
  let s := r.2.2
  let fail (f : Failed) : List (Nat × Nat × Failed) × List Nat × State := (r.1 ++ [(t, a t, f)], r.2)
  match e.scratch64 s (a t), s.gang e.st.gang with
  | .error f, _ => fail f
  | .ok _, none => r
  | .ok ks, some g =>
    match (if second then g.sec else some g.prim) with
    | none => fail ⟨10, 0x62, 0⟩
    | some h =>
      if h.returned then fail ⟨10, 0x62, 0⟩
      else if h.domain ≠ noDomain && domainBroken s h.domain then fail ⟨11, 0x61, 0⟩
      else
        let quad := if local' then some (quadOf e.core) else s.chooseQuad none 1
        let room := match quad with | some q => decide (0 < s.room q) | none => false
        if !room && !spillRoom s e.ctx then fail ⟨12, 0x63, 0⟩
        else match s.split h e.ctx with
          | none => fail ⟨13, 0x62, 0⟩
          | some (w, h', s1) =>
            let s2 := s1.onGang e.st.gang fun g => if second then { g with sec := some h' } else { g with prim := h' }
            let rec' := spawned (parseTask (ks.map (readByte s.mem))) w h.domain e.ctx
            (r.1, r.2.1 ++ ks, s2.submit { task := rec', origin := 1, quad := if room then quad else none, spill := !room, op := some op })
/-- SPWN (13 R333): its release is that of `waits`; it is outstanding until every record of it has been accepted (log 49, DEDUCED). -/
def execSpwn (z : BitVec 1) (a : BitVec 7) (h c : BitVec 1) (l : BitVec 4) (s : State) : Answer :=
  issue (.spwn z a h c l) s fun e s =>
    if e.st.recov.isSome then e.raise s 0x60
    else
      let (op, s1) := e.start { kind := .spwn e.ts.length } s
      let (fs, ks, s2) := e.ts.foldl (e.spawnOne (h == 1) (c == 1) op fun t => (e.st.src a.toNat t).toNat) ([], [], s1)
      let sent := e.ts.length - fs.length
      let s3 := if sent = 0 then s2.finishOp op else s2.onOp op fun o => { o with kind := .spwn sent }
      e.nextFailed (s3.charge e.core e.ctx 5 (occupancy ks)) fs

/-- The record TAKE finds: the oldest that matches (13 R334). -/
def takeable (s : State) (g : Gang) (quad : Nat) : Option QRec :=
  let ok (r : QRec) : Bool := r.st == .queued && r.gang.isNone && r.task.entry == g.task.entry && r.task.kind == 0 && !r.task.graph &&
    r.task.ctx == g.task.ctx && r.task.domain == g.prim.domain && decide (g.prim.weight + r.task.weight < 2 ^ 64)
  ((s.quad quad).queue.filter ok).foldl (fun (b : Option QRec) r => match b with
    | none => some r
    | some x => if r.age s < x.age s then some r else some x) none
/-- TAKE (13 R334; log 49, DEDUCED). -/
def execTake (z : BitVec 1) (d a : BitVec 7) (l : BitVec 4) (s : State) : Answer :=
  issue (.take z d a l) s fun e s =>
    let addr := (e.st.sreg a.toNat).toNat
    if e.st.recov.isSome then e.raise s 0x60
    else if e.g.prim.returned then e.raise s 0x62
    else match scratch e.g addr 64 with
      | .error f => e.raise s f.cause f.qual addr
      | .ok ks =>
        let q := quadOf e.core
        match takeable s e.g q with
        | none => e.next (e.put 1 d 1 (fun _ => 0) s)
        | some r =>
          let s1 := s.setQuad q { s.quad q with queue := (s.quad q).queue.filter fun x => x.id != r.id }
          let s2 := s1.launchEnded r.launch
          let s3 := s2.onGang e.st.gang fun g => { g with prim := { g.prim with weight := g.prim.weight + r.task.weight } }
          let s4 := (s3.setMem (writeBytes s3.mem ks ({ r.task with weight := 0 } : Task).bytes)).charge e.core e.ctx 5 (occupancy ks)
          e.next (e.put 1 d 1 (fun _ => 1) (s4.acquire e.core))

/-- Check a successor counter as 16 bytes of kind atomic, under the graph's generation when there is one (13 R326, R335). -/
def checkCounter (s : State) (die ctx succ : Nat) (gen : Option Nat) : Except Failed Located :=
  translateAt (recordDepth s ctx) s die ctx succ 16 .atomic false gen
/-- What a DONE on a die sends: a decrement, weight, or nothing (13 R325, R335). -/
def doneMsg (die : Nat) (t : Task) (succ w domain : Nat) (graph : Bool) : Option Msg :=
  if succ ≠ 0 then some (.dec succ w domain t.ctx t.gen graph die)
  else if 0 < w ∧ domain ≠ noDomain then some (.ret domain w)
  else none
/-- A decrement of a graph's task keeps its generation pinned until it is applied (13 R326; log 47, DEDUCED). -/
def State.pinFor (s : State) (t : Task) (m : Msg) : State := match m with
  | .dec _ _ _ _ _ true _ => s.pin t.ctx t.graphObj t.gen
  | _ => s
/-- DONE sends its message, and is outstanding until that has been accepted (13 R335). -/
def Env.done (e : Env) (succ w domain : Nat) (graph : Bool) (s : State) : State := match doneMsg e.die e.g.task succ w domain graph with
  | none => e.next s
  | some m =>
    let (n, s1) := (s.pinFor e.g.task m).sendAs m
    e.next (e.start { kind := .done n } s1).2
/-- DONE (13 R335): its release is that of `waits`. -/
def execDone (z : BitVec 1) (a : BitVec 7) (c : BitVec 1) (s : State) : Answer :=
  issue (.done z a c) s fun e s =>
    let addr := (e.st.sreg a.toNat).toNat
    if e.st.recov.isSome then e.raise s 0x60
    else if e.g.prim.returned then e.raise s 0x62
    else
      let succ : Except Failed (Nat × List Nat) := if c == 0 then .ok (e.g.task.succ, []) else match e.scratch64 s addr with
        | .error f => .error f
        | .ok ks => .ok ((parseTask (ks.map (readByte s.mem))).succ, ks)
      match succ with
      | .error f => e.raise s f.cause f.qual addr
      | .ok (succ, ks) =>
        let graph := e.g.task.graph && c == 0
        match (if succ = 0 then none else match checkCounter s e.die e.ctx succ (if graph then some e.g.task.gen else none) with
            | .error f => some f
            | .ok _ => none) with
        | some f => e.raise s f.cause f.qual succ
        | none =>
          if c == 0 then
            let s1 := s.onGang e.st.gang fun g => { g with prim := { g.prim with returned := true } }
            e.done succ e.g.prim.weight e.g.prim.domain graph s1
          else match s.split e.g.prim e.ctx with
            | none => e.raise s 0x62
            | some (w, h, s1) =>
              let s2 := s1.onGang e.st.gang fun g => { g with prim := h }
              e.done succ w h.domain graph (s2.charge e.core e.ctx 5 (occupancy ks))
/-- WAITQ (13 R337): the weight is returned once, and its wait is then that of `waits`; the chain is charged as it ends (14 R364). -/
def execWaitq (z : BitVec 1) (d : BitVec 7) (unpaid : State) : Answer :=
  issue (.waitq z d) unpaid fun e s =>
    if e.st.recov.isSome then e.raise s 0x60
    else match e.g.sec with
      | none => e.raise s 0x62 0x29
      | some h =>
        if e.st.divided then e.raise s 0x60 0x18
        else if h.returned || domainUnk s h.domain then
          let r := if domainUnk s h.domain then 2 else if domainBroken s h.domain then 1 else 0
          let s1 := if h.returned then s else s.domainReturned h.domain e.ctx h.weight false
          let s2 := s1.domainPut h.domain 24 4 (Nat.land (domainNat s1 h.domain 24 4) 0xFFFFFFF6)
          let s3 := s2.onGang e.st.gang fun g => { g with sec := none }
          e.next (e.put 1 d 1 (fun _ => r) (s3.acquire e.core))
        else
          let f := domainNat s h.domain 24 4
          let s1 := unpaid.domainPut h.domain 24 4 (f - 8 * bits f 3 1)
          e.hold ((s1.onGang e.st.gang fun g => { g with sec := some { h with returned := true } }).send (.ret h.domain h.weight))
/-- QDOM (13 R336). -/
def execQdom (z : BitVec 1) (d : BitVec 7) (s : State) : Answer :=
  issue (.qdom z d) s fun e s =>
    if e.st.recov.isSome then e.raise s 0x60
    else if e.g.sec.isSome then e.raise s 0x62 0x28
    else
      let free (i : Nat) : Bool := bits (domainNat s (i + e.die * 4096) 24 4) 0 1 == 0
      match (List.range 4096).find? free with
      | none => e.next (e.put 1 d 1 (fun _ => noDomain) s)
      | some i =>
        let at' := i + e.die * 4096
        let serial := (domainNat s at' 28 4 % 2 ^ 18 + 1) % 2 ^ 18
        let s1 := (((s.domainPut at' 0 12 (2 ^ 63)).domainPut at' 12 12 0).domainPut at' 24 4 (9 + 16 * (e.ctx % 64))).domainPut at' 28 4 serial
        let id := at' + serial * 2 ^ 14
        let s2 := s1.onGang e.st.gang fun g => { g with sec := some { domain := id, weight := 2 ^ 63 } }
        e.next (e.put 1 d 1 (fun _ => id) s2)

/-- Take registers at and beyond a new allotment away: their contents are lost (12 R300). -/
def Strand.trim (st : Strand) (a : Nat) : Strand := { st with allot := a, v := st.v.filter fun x => x.1 / 32 < a }
/-- GIVE (12 R300): its wait is that of `waits`. -/
def execGive (z : BitVec 1) (n : BitVec 4) (s : State) : Answer :=
  issue (.give z n) s fun e s =>
    if e.st.recov.isSome then e.raise s 0x60
    else if e.st.divided then e.raise s 0x60 0x18
    else if e.st.allot < 8 * n.toNat + 8 then e.raise s 0x08
    else e.next (s.onStrand e.k fun st => st.trim (st.allot - 8 * n.toNat))

/-- The strands of gangs on a core, with their keys. -/
def State.onCoreStrands (s : State) (core : Nat) : List (Nat × Strand) := s.strands.filter fun x => coreOf x.1 == core && decide (slotOf x.1 < 384)
/-- The blocks gangs may use on a lane (12 R281). -/
def lanePool (lane : Nat) : Nat := if lane < 8 then 16 else 24
/-- The blocks strands hold on a lane. -/
def State.laneBlocks (s : State) (core lane : Nat) : Nat :=
  (((s.onCoreStrands core).filter fun x => x.2.lane == lane).map fun x => x.2.allot / 8).foldl (· + ·) 0
/-- The context of a strand. -/
def State.ctxOf (s : State) (st : Strand) : Nat := match s.gang st.gang with | some g => g.task.ctx | none => 0
/-- The check of CLAIM (12 R301): the qualifier of the 0x08 it raises. -/
def claimFault (s : State) (k : Nat) (st : Strand) (n : Nat) : Option Nat :=
  let core := coreOf k
  let reqs := (s.core core).claims
  let sum (l : List Nat) : Nat := l.foldl (· + ·) 0
  let gangOf (k : Nat) : Option Nat := (s.strand k).map (·.gang)
  let mine := sum (((s.onCoreStrands core).filter fun x => x.2.gang == st.gang && x.2.lane == st.lane).map fun x => x.2.allot / 8)
  let waiting := sum ((reqs.filter fun r => r.1 == st.lane && gangOf r.2.strand == some st.gang).map (·.2.blocks))
  let ctx := s.ctxOf st
  let ctxBlocks := sum (((s.onCoreStrands core).filter fun x => s.ctxOf x.2 == ctx).map fun x => x.2.allot / 8)
  let ctxWaiting := sum ((reqs.filter fun r => match s.strand r.2.strand with | some x => s.ctxOf x == ctx | none => false).map (·.2.blocks))
  let quota := match s.ctx ctx with | some c => c.qvreg | none => 0
  if 112 < st.allot + 8 * n then some 0
  else if lanePool st.lane < mine + waiting + n then some 0x24
  else if quota < ctxBlocks + ctxWaiting + n then some 0x25
  else none
/-- CLAIM (12 R301): a request that finds its lane's queue empty and its blocks free is granted at once; another waits, unless its gang is marked
for swap (12 R307), and the chain is charged when it is granted (14 R364). -/
def execClaim (z : BitVec 1) (n : BitVec 4) (unpaid : State) : Answer :=
  issue (.claim z n) unpaid fun e s =>
    if e.st.recov.isSome then e.raise s 0x60
    else if e.st.divided then e.raise s 0x60 0x18
    else match claimFault s e.k e.st n.toNat with
      | some q => e.raise s 0x08 q
      | none =>
        let queue := (s.core e.core).claims.filter (·.1 == e.st.lane)
        if queue.isEmpty ∧ s.laneBlocks e.core e.st.lane + n.toNat ≤ lanePool e.st.lane then
          e.next (s.onStrand e.k fun st => { st with allot := st.allot + 8 * n.toNat })
        else
          let r : ClaimReq := { strand := e.k, path := e.pi, blocks := n.toNat, head := dieCycle e.die s.now }
          e.hold (if e.withdrawn then unpaid else unpaid.onCore e.core fun c => { c with claims := c.claims ++ [(e.st.lane, r)] })

end Sys2Proof.Machine
end

