-- ==== Sys2Proof/Machine/Ends.lean ====
section
/-!
DEFINITION. Sys2Proof/Machine/Ends.lean: the ends of strands and gangs (12 R315), the energy counters a core takes and gives back (14
R367), and saving a gang in its save slot and restoring it (14 R352, R363).
-/

namespace Sys2Proof.Machine

/-- The word of an energy counter in the energy area (14 R367). -/
def Counter.word (c : Counter) : Nat := c.count + bit c.sat * 2 ^ 63
def parseCounter (v : Nat) : Counter := { count := bits v 0 48, sat := bits v 63 1 == 1 }
def State.energyAt (s : State) (core ctx : Nat) : Nat := (match s.ctx ctx with | some c => c.enarea | none => 0) + 8 * core
/-- The core loads a context's counter with its first gang (14 R367). -/
def State.energyEnter (s : State) (core ctx : Nat) : State :=
  if (s.core core).holding.contains ctx then s
  else
    let c := parseCounter (s.sysNat (s.energyAt core ctx) 8)
    s.onCore core fun x => { x with energy := wr {} x.energy ctx c, holding := x.holding ++ [ctx] }
/-- It writes the counter back when the last one leaves (14 R367). -/
def State.energyLeave (s : State) (core ctx : Nat) : State :=
  if (s.residents core).any fun g => g.2.task.ctx == ctx then s
  else
    (s.sysWrite (s.energyAt core ctx) (leBytes 8 (rd {} (s.core core).energy ctx).word)).onCore core fun x =>
      { x with energy := wr {} x.energy ctx {}, holding := x.holding.filter (· != ctx) }

/-- The other members of a gang's team (12 R304). -/
def mates (s : State) (n : Nat) (g : Gang) : List (Nat × Gang) :=
  if g.hdr.team then s.gangs.filter fun x => x.1 != n && x.2.hdr.team && x.2.launch == g.launch && x.2.index / 4 == g.index / 4 else []
/-- Weight of a gang's secondary holding goes back at its end, and the domain has no creator any more (13 R330, R337). -/
def State.endSecondary (s : State) (ctx : Nat) (h : Holding) (killed : Bool) : State :=
  let s1 := if domainValid s h.domain ctx then
      let f := domainNat s h.domain 24 4
      s.domainPut h.domain 24 4 (f - 8 * bits f 3 1)
    else s
  if h.returned then s1 else if killed then s1.domainReturned h.domain ctx h.weight true else s1.send (.ret h.domain h.weight)
/-- A gang ends with its last strand (12 R315): it performs the DONE it has not (13 R335), or loses its weight when that strand was
killed (13 R330); its secondary is returned (13 R337), its pin released, or left to the decrement it sends (13 R326; log 47, DEDUCED), its teammates' waiting entries raise 0x0B (10 R247),
its save slot, key tables and slots are free. -/
def State.gangEnd (s : State) (n : Nat) (killed : Bool) : State :=
  match s.gang n with
  | none => s
  | some g =>
    let t := g.task
    let own := if g.prim.returned || killed then none else doneMsg (coreDie g.core) t t.succ g.prim.weight g.prim.domain t.graph
    let s1 := match own with
      | some m => s.send m
      | none => if g.prim.returned || !killed then s else s.domainReturned g.prim.domain t.ctx g.prim.weight true
    let s2 := match g.sec with | some h => s1.endSecondary t.ctx h killed | none => s1
    let passes := match own with | some (.dec _ _ _ _ _ true _) => true | _ => false
    let s3 := match g.pinned with | some (o, gen) => if passes then s2 else s2.unpin t.ctx o gen | none => s2
    let ms := mates s n g
    let waiting := s3.ops.filter fun x => (ms.any fun m => m.1 == x.2.gang) && (match x.2.kind with
      | .mma _ _ _ _ _ _ _ _ acc => !acc
      | _ => false)
    let s4 := waiting.foldl (fun (s : State) x => failMember s x.1 0x0B 0x1C 0 0) s3
    let team := barOwner g n 2 * 8 + 2
    let s5 : State := { s4 with
      gangs := upd s4.gangs n none
      bars := s4.bars.filter fun b => b.1 / 64 != n * 8 + 1 && (!ms.isEmpty || b.1 / 64 != team) }
    let s6 := match g.sec with | some h => s5.freeDomain h.domain | none => s5
    ((if g.resident then s6.energyLeave g.core t.ctx else s6).launchEnded g.launch).settleUnits
/-- A strand with no live thread and nothing in flight leaves its slot (12 R315); the entries a recovery strand has not merged fall due
(09 R238). -/
def State.strandEnd (s : State) (k : Nat) : State :=
  match s.strand k with
  | none => s
  | some st =>
    let s1 : State := { s with strands := upd s.strands k none }
    match st.recov with
    | some es => es.foldl (fun (s : State) en => s.release en) s1
    | none =>
      let s2 := s1.onGang st.gang fun g => { g with live := g.live - 1, saved := upd g.saved st.index none }
      match s2.gang st.gang with
      | some g => if g.live = 0 then s2.gangEnd st.gang st.killed else s2
      | none => s2

/-- A descriptor of a key table in the save slot (04 R87). -/
def KeyDesc.bytes (d : KeyDesc) : List Byte :=
  leBytes 2 (1 + bit d.spl * 2 + d.logu * 4) ++ leBytes 2 d.serial ++ leBytes 4 d.baseu ++ leBytes 8 d.seed ++ leBytes 8 d.spobj ++ zeros 8
def parseKeyDesc (bs : List Byte) : Option KeyDesc :=
  let w := fieldAt bs 0 2
  if bits w 0 1 = 0 then none
  else some { spl := bits w 1 1 == 1, logu := bits w 2 3, serial := fieldAt bs 2 2, baseu := fieldAt bs 4 2, seed := fieldAt bs 8 8, spobj := fieldAt bs 16 8 }
/-- A CORE barrier slot in the save slot (14 R352). -/
def BarSlot.bytes (b : BarSlot) : List Byte :=
  leBytes 4 b.phase.toNat ++ leBytes 4 (b.arr % 64 + b.exp % 64 * 64 + bit b.err * 4096) ++ leBytes 4 (unsigned 32 b.pend) ++ zeros 4
def parseBar (bs : List Byte) : BarSlot :=
  let w := fieldAt bs 4 4
  { phase := BitVec.ofNat 32 (fieldAt bs 0 4), arr := bits w 0 6, exp := bits w 6 6, err := bits w 12 1 == 1, pend := signed 32 (fieldAt bs 8 4) }
/-- The flags word of the operand buffers (14 R352). -/
def bufferWord (a b : Option OpBuffer) : Nat :=
  (match a with | some x => 1 + bit x.ts8 * 2 + x.planes * 4 + bit x.k512 * 8192 | none => 0) +
  (match b with | some y => 128 + y.planes * 256 + (if a.isNone then bit y.k512 * 8192 else 0) | none => 0)
/-- An accumulator element in the save slot (14 R352). -/
def TileElem.bytes (e : TileElem) : List Byte := leBytes 16 (e.t.toNat + bit e.nf * 2 ^ 96 + bit e.ovf * 2 ^ 97)
def parseTile (v : Nat) : TileElem := { t := BitVec.ofNat 96 v, nf := bits v 96 1 == 1, ovf := bits v 97 1 == 1 }
/-- The gang header of a save slot, 612 bytes (14 R352; log 66, DEDUCED). -/
def gangHeader (s : State) (n : Nat) (g : Gang) : List Byte :=
  let sec := g.sec.getD { domain := 0 }
  leBytes 8 g.prim.domain ++ leBytes 8 g.prim.weight ++ leBytes 8 sec.domain ++ leBytes 8 sec.weight ++
  leBytes 4 (bit g.prim.returned + bit g.sec.isSome * 2 + bit sec.returned * 4 + bit g.bound * 8) ++
  leBytes 4 (if g.bound then g.core else 0) ++ leBytes 4 (g.claims % 65536) ++ zeros 20 ++
  ((List.range 16).flatMap fun j => (s.bar (barKey 1 n j)).bytes) ++
  ((List.range 8).flatMap fun i => match look g.keys i with | some d => d.bytes | none => zeros 32) ++
  ((List.range 8).flatMap fun t => leBytes 4 (rd 0 g.windows t).toNat) ++ leBytes 4 (bufferWord g.bufA g.bufB)

/-- The strands of a resident gang, with their keys; its recovery strands apart. -/
def gangStrands (s : State) (n : Nat) : List (Nat × Strand) := s.strands.filter fun x => x.2.gang == n && decide (slotOf x.1 < 384)
/-- Nothing defers the save of a marked gang (14 R363, 09 R239): its strands neither run, stop, end nor have a handler, nothing of theirs
is in flight but what a swap withdraws, no merge is pending, and no recovery strand has taken the gang. A strand whose step has issued its
chains is being stopped; one with a chain still to issue is saved, and issues it when it is back (15 R373). -/
def canSave (s : State) (n : Nat) : Bool :=
  (!s.strands.any fun x => x.2.gang == n && decide (384 ≤ slotOf x.1)) &&
  (gangStrands s n).all fun x =>
    (x.2.mode == .running || x.2.mode == .stopped) && x.2.path0.run.isNone && x.2.path1.run.isNone && x.2.path0.fault.isNone &&
    x.2.path1.fault.isNone && !x.2.stepDone && s.drained x.1 && x.2.pending == 0 && !s.pkg.updates.any fun u => u.2.strand == x.1
/-- Save a gang (14 R352, R363): the header, each strand's image but those of stopped strands, the allotment, and a team member's tiles
and buffers. -/
def State.saveGang (s : State) (n : Nat) : State :=
  match s.gang n with
  | none => s
  | some g =>
    let sts := gangStrands s n
    let pcOf (x : Nat × Strand) : Word × Mask :=
      if x.2.mode == .stopped then
        let bs := s.slotRead g (imageOff x.2.index) 268
        (imgPc bs 0, imgLive bs 0)
      else (x.2.path0.pc, x.2.path0.shown.act)
    let s1 := sts.foldl (fun (s : State) x => (if x.2.mode == .stopped then s else s.saveStrand x.1 [] []).trace x.1 0 5 (pcOf x).1 (pcOf x).2 0) s
    let s2 := s1.slotWrite g 0 (gangHeader s1 n g)
    let s3 := s2.slotWrite g 528384 (readAt s2.mem (scratchKey g.core g.base) (allotBytes g.hdr))
    let s4 := if !g.hdr.team then s3 else
      let tiles := (List.range 8).flatMap fun t => (List.range 16).flatMap fun i => (List.range 64).flatMap fun e => (g.elem t i e).bytes
      let s4 := s3.slotWrite g 1265664 tiles
      let s5 := match g.bufA with | some b => s4.slotWrite g 1396736 b.data | none => s4
      match g.bufB with | some b => s5.slotWrite g 1413120 b.data | none => s5
    let s5 := s4.onGang n fun g => { g with
      resident := false, swap := false, stopped := (sts.filter fun x => x.2.mode == .stopped).map (·.2.index) }
    let s6 : State := { s5 with
      strands := s5.strands.filter fun x => !(x.2.gang == n && decide (slotOf x.1 < 384)), bars := s5.bars.filter fun b => b.1 / 64 != n * 8 + 1 }
    s6.energyLeave g.core g.task.ctx

/-- What a save slot holds of a gang (14 R352; log 66, DEDUCED). -/
def Gang.fromSlot (g : Gang) (bs tiles : List Byte) (bufs : Nat → Nat → List Byte) : Gang :=
  let fl := fieldAt bs 32 4
  let w := fieldAt bs 608 4
  let k512 := bits w 13 1 == 1
  let kb := if k512 then 16 else 8
  let ts8 := bits w 1 1 == 1
  let sizeA := 16 * kb * (if ts8 then 48 else 16 + 4 * bits w 2 5)
  let sizeB := 16 * kb * (16 + 4 * bits w 8 5)
  { g with
    prim := { domain := fieldAt bs 0 4, weight := fieldAt bs 8 8, returned := bits fl 0 1 == 1 }
    sec := if bits fl 1 1 = 1 then some { domain := fieldAt bs 16 4, weight := fieldAt bs 24 8, returned := bits fl 2 1 == 1 } else none
    claims := fieldAt bs 40 2
    keys := (List.range 8).foldl (fun (m : Tab KeyDesc) i => upd m i (parseKeyDesc ((bs.drop (320 + 32 * i)).take 32))) []
    windows := (List.range 8).foldl (fun (m : Tab (BitVec 9)) t => wr 0 m t (BitVec.ofNat 9 (fieldAt bs (576 + 4 * t) 4))) []
    tiles := if g.hdr.team then (List.range 8192).foldl (fun (m : Tab TileElem) e => wr {} m e (parseTile (fieldAt tiles (16 * e) 16))) [] else []
    bufA := if g.hdr.team && bits w 0 1 == 1 then some { ts8, planes := bits w 2 5, k512, data := bufs 1396736 sizeA } else none
    bufB := if g.hdr.team && bits w 7 1 == 1 then some { ts8 := false, planes := bits w 8 5, k512, data := bufs 1413120 sizeB } else none }
/-- A strand of a restored gang in its slot: its image's, or stopped with its image (14 R363); RSEL, which the image has no field for, reads 0
(log 112, DESIGN CHOICE). -/
def State.restoreStrand (s : State) (n k lane index : Nat) : State :=
  match s.gang n with
  | none => s
  | some g =>
    let sv := (look g.saved index).getD {}
    let role := if index < g.hdr.nload then 1 else if index < g.hdr.nload + g.hdr.nstore then 2 else 0
    let base : Strand := { gang := n, index, role, lane, allot := sv.allot }
    if g.stopped.contains index then
      let bs := s.slotRead g (imageOff index) 268
      (s.setStrand k { base with mode := .stopped, stepFlag := sv.step }).trace k 0 6 (imgPc bs 0) (imgLive bs 0) 0
    else
      let s1 := (s.setStrand k { base with stepFlag := sv.step }).resume k false none
      match s1.strand k with
      | some st => s1.trace k 0 6 st.path0.pc st.path0.act 0
      | none => s1
/-- What the host asked of the strands of a gang while it was not resident (14 R360, 15 R374; log 60, DEDUCED). -/
def State.applyHeld (s : State) (key : Nat → Option Nat) (h : Held) : State :=
  match h with
  | .step i => match key i with
    | some k => s.onStrand k fun st => if st.mode == .stopped then { st with stepFlag := true } else st
    | none => s
  | .stop i => match key i with
    | some k => s.requestStop k
    | none => s
  | .resume i m => match key i with
    | some k => match s.strand k with
      | some st => if st.mode == .stopped then s.resume k (m == 1) (if m = 2 then some false else if m = 3 then some true else none) else s
      | none => s
    | none => s
/-- Restore a gang on its core from its save slot (14 R363); slots gives each strand index its key and lane (log 66, DEDUCED). -/
def State.restoreGang (s : State) (n : Nat) (slots : List (Nat × Nat × Nat)) : State :=
  match s.gang n with
  | none => s
  | some g =>
    let bs := s.slotRead g 0 612
    let tiles := if g.hdr.team then s.slotRead g 1265664 131072 else []
    let g' := (g.fromSlot bs tiles (s.slotRead g))
    let mem := writeBytes s.mem (keysFrom (scratchKey g.core g.base) (allotBytes g.hdr)) (s.slotRead g 528384 (allotBytes g.hdr))
    let s1 := (s.setMem mem).setGang n g'
    let s2 := (List.range 16).foldl (fun (s : State) j => s.setBar (barKey 1 n j) (parseBar ((bs.drop (64 + 16 * j)).take 16))) s1
    let s3 := slots.foldl (fun (s : State) x => s.restoreStrand n x.2.1 x.2.2 x.1) s2
    let key (i : Nat) : Option Nat := (slots.find? (·.1 == i)).map (·.2.1)
    let step (h : Held) : Bool := match h with | .step _ => true | _ => false
    let s4 := (g.held.filter step ++ g.held.filter fun h => !step h).foldl (fun (s : State) h => s.applyHeld key h) s3
    s4.onGang n fun g => { g with held := [], stopped := [] }

end Sys2Proof.Machine
end

