-- ==== Sys2Proof/Machine/Place.lean ====
section
/-!
DEFINITION. Sys2Proof/Machine/Place.lean: placing gangs on cores (12 R302 to R305; 04 R80 to R82; 13 R338; 06 R151; 14 R352, R363,
R367).
-/

namespace Sys2Proof.Machine

/-- Put an element into a list that a comparison orders, after those that are not later. -/
def insertBy {α : Type} (before : α → α → Bool) (x : α) : List α → List α
  | [] => [x]
  | y :: ys => if before x y then x :: y :: ys else y :: insertBy before x ys
/-- The records of a queue that may be placed, oldest first (13 R321; 14 R363). -/
def placeable (s : State) (q : Nat) : List QRec :=
  let ok (r : QRec) : Bool := r.st == .queued && (match s.ctx r.task.ctx with | some c => !c.stopped | none => false)
  ((s.quad q).queue.filter ok).foldl (fun (l : List QRec) r => insertBy (fun a b => decide (a.age s < b.age s)) r l) []

/-- Where a gang stands on a core: its allotment, and each strand's index, key and lane. -/
structure Place where
  core : Nat
  base : Nat
  slots : List (Nat × Nat × Nat)
  deriving DecidableEq, Repr

/-- The header that governs a record: of a gang placed before, its own; of another, the one in memory, checked again (06 R151). -/
def headerOf (s : State) (r : QRec) : Except Cause Header := match r.gang with
  | some n => match s.gang n with
    | some g => .ok g.hdr
    | none => .error (0x0A, 0)
  | none => match readHeader s r.task.ctx r.task.entry with
    | .error c => .error c
    | .ok h =>
      if r.task.nsg ≠ 0 ∧ r.task.nsg ≠ h.nstr then .error (0x0A, 0)
      else if !fitsEmpty s (match look s.pkg.launches r.launch with | some l => l.task | none => r.task) h then .error (0x0A, 0x26)
      else .ok h
/-- The strands a record's gang brings: index and register blocks (12 R282, R304). -/
def needs (s : State) (r : QRec) (h : Header) : List (Nat × Nat) := match r.gang with
  | none => (List.range h.nstr).map fun i => (i, h.allot / 8)
  | some n => match s.gang n with
    | some g => (g.saved.filter fun (x : Nat × Saved) => decide (x.1 < 32)).map fun (x : Nat × Saved) => (x.1, x.2.allot / 8)
    | none => []
/-- Lanes for strands in index order: the fewest strands, a free place, free blocks; ties go to the lowest (12 R304; log 67, DEDUCED). -/
def assignLanes (s : State) (core : Nat) (ns : List (Nat × Nat)) : Option (List (Nat × Nat)) :=
  let there (l : Nat) : Nat := ((s.onCoreStrands core).filter fun x => x.2.lane == l).length
  let sum (xs : List Nat) : Nat := xs.foldl (· + ·) 0
  let r := ns.foldl (fun (r : Option (List (Nat × Nat × Nat))) x => match r with
    | none => none
    | some l =>
      let load (n : Nat) : Nat := there n + (l.filter fun y => y.2.2 == n).length
      let held (n : Nat) : Nat := s.laneBlocks core n + sum ((l.filter fun y => y.2.2 == n).map (·.2.1))
      let cand := (List.range 64).filter fun n => decide (load n < 6) && decide (held n + x.2 ≤ lanePool n) && !s.out 0 (core * 64 + n)
      match leastBy load cand with
      | some n => some (l ++ [(x.1, x.2, n)])
      | none => none) (some [])
  r.map fun l => l.map fun x => (x.1, x.2.2)
/-- The core's carve-out is the gang's, or can be set to it (04 R81). -/
def carveOk (s : State) (core code ctx : Nat) : Bool :=
  let c := s.core core
  (c.carve == code && (code == 0 || c.carveCtx == ctx)) || !s.gangs.any fun g => g.2.core == core && (g.2.resident || g.2.bound)
/-- The lowest 4 KiB-aligned free range for an allotment (04 R79, R80; log 67, DEDUCED). -/
def freeBase (s : State) (core carve size : Nat) : Option Nat :=
  let lo := taggedBase + carve
  let rs := (s.residents core).map fun g => (g.2.base, allotBytes g.2.hdr)
  let ok (a : Nat) : Bool := decide (lo ≤ a) && decide (a + size ≤ 786432) && rs.all fun r => r.2 == 0 || decide (a + size ≤ r.1) || decide (r.1 + r.2 ≤ a)
  leastBy id ((lo :: rs.map fun r => r.1 + r.2).filter ok)
/-- The gang stays within its context's quotas on the core (12 R305). -/
def quotaOk (s : State) (core ctx : Nat) (h : Header) (ns : List (Nat × Nat)) : Bool := match s.ctx ctx with
  | none => false
  | some c =>
    let mine := (s.onCoreStrands core).filter fun x => s.ctxOf x.2 == ctx
    let sum (xs : List Nat) : Nat := xs.foldl (· + ·) 0
    let scr := sum (((s.residents core).filter fun g => g.2.task.ctx == ctx).map fun g => allotBytes g.2.hdr)
    decide (mine.length + ns.length ≤ c.qstr) && decide (sum (mine.map fun x => x.2.allot / 8) + sum (ns.map (·.2)) ≤ c.qvreg) &&
    decide (scr + allotBytes h + carveBytes h.carve ≤ c.qscr * 1024)
/-- A launch's DIE and PKG slots are allocated, or can be on a die (13 R338). -/
def slotsOk (s : State) (launch die : Nat) (h : Header) : Bool := match look s.pkg.launches launch with
  | none => true
  | some l =>
    let used (f : Header → Nat) (p : Launch → Bool) : Nat := ((s.pkg.launches.filter fun x => x.2.slots && p x.2).map fun x => f x.2.hdr).foldl (· + ·) 0
    if l.slots then h.nbdie == 0 || l.die == some die
    else (h.nbdie == 0 || l.die.isNone || l.die == some die) && decide (used (·.nbdie) (fun x => x.die == some die) + h.nbdie ≤ 64) &&
      decide (used (·.nbpkg) (fun _ => true) + h.nbpkg ≤ 64)
/-- The free save slots of a context, lowest first (14 R352; log 67, DEDUCED). -/
def freeSlots (s : State) (ctx : Nat) : List Nat :=
  let obj := s.gsobj ctx
  match record s 0 ctx obj, hwKey s 0 ctx obj 0 with
  | some r, some _ => (List.range (r.extent / 2097152)).filter fun i => !s.gangs.any fun g => g.2.task.ctx == ctx && g.2.gslot == i
  | _, _ => []
/-- A die has not yet taken the new record of a publish that another has (01 R31): a gang that may have read the new generation there
goes on here only when it has (01 R35, 11 R280; log 94, DEDUCED). -/
def behind (s : State) (ctx old new : Nat) : Bool :=
  s.pkg.pubs.any fun x => x.2.ctx == ctx && x.2.swapped && x.2.waiting.contains new && !x.2.waiting.contains old
/-- A gang fits a core (12 R304). -/
def fitCore (s : State) (r : QRec) (h : Header) (core : Nat) : Option Place :=
  let ctx := r.task.ctx
  let c := s.core core
  let ns := needs s r h
  let bound := match r.gang with
    | some n => (match s.gang n with | some g => (g.bound && g.core != core) || behind s ctx (coreDie g.core) (coreDie core) | none => true)
    | none => false
  let total := ((s.residents core).map fun g => allotBytes g.2.hdr).foldl (· + ·) 0
  let keys := ((List.range 384).map (strandKey core)).filter fun k => (s.strand k).isNone
  if s.out 1 core || bound || !carveOk s core h.carve ctx || !quotaOk s core ctx h ns || decide (737280 < total + carveBytes h.carve + allotBytes h) ||
      (!c.holding.contains ctx && decide (8 ≤ c.holding.length)) || !slotsOk s r.launch (coreDie core) h || decide (keys.length < ns.length) then none
  else match freeBase s core (carveBytes h.carve) (allotBytes h), assignLanes s core ns with
    | some base, some ls => some { core, base, slots := (ls.zip keys).map fun x => (x.1.1, x.2, x.1.2) }
    | _, _ => none
/-- The members of a record's team in a queue, by index (12 R304). -/
def teamOf (s : State) (q : Nat) (r : QRec) : List QRec :=
  (List.range 4).filterMap fun c => (placeable s q).find? fun x => x.launch == r.launch && x.index == r.index / 4 * 4 + c
/-- How a record, with its team, is placed on a quad, if it fits: the core with the most free strand slots (12 R304). -/
def fitQuad (s : State) (q : Nat) (r : QRec) (h : Header) (team : List QRec) : Option (List (QRec × Place)) :=
  let fresh := (if h.team then team else [r]).filter fun x => x.gang.isNone
  if (freeSlots s r.task.ctx).length < fresh.length then none
  else if h.team then
    if team.length ≠ 4 || s.gangs.any fun g => g.2.resident && g.2.hdr.team && quadOf g.2.core == q then none
    else (team.mapIdx fun c x => (c, x)).mapM fun x => (fitCore s x.2 h (quadCore q x.1)).map fun p => (x.2, p)
  else
    let fits := (List.range 4).filterMap fun c => fitCore s r h (quadCore q c)
    (leastBy (fun (p : Place) => (s.onCoreStrands p.core).length) fits).map fun p => [(r, p)]

/-- A core takes a new carve-out setting: its tags are invalid, and the bytes of its tagged region undefined (04 R81). -/
def State.setCarve (s : State) (core code ctx : Nat) : State :=
  let c := s.core core
  if c.carve = code ∧ (code = 0 ∨ c.carveCtx = ctx) then s
  else
    let s1 := s.onCore core fun c => { c with carve := code, carveCtx := ctx, tags := [] }
    (List.range (carveBytes code / 128)).foldl (fun (s : State) i =>
      let (v, s') := s.freeValue 1024
      s'.setMem (writeNat s'.mem (scratchKey core (taggedBase + 128 * i)) 128 v.toNat)) s1
/-- The strands of a gang that starts (12 R282, R283; log 50, DEDUCED). -/
def State.startStrands (s : State) (n : Nat) (g : Gang) (slots : List (Nat × Nat × Nat)) : State :=
  slots.foldl (fun (s : State) x =>
    let role := if x.1 < g.hdr.nload then 1 else if x.1 < g.hdr.nload + g.hdr.nstore then 2 else 0
    let st : Strand := {
      gang := n, index := x.1, role, lane := x.2.2, allot := g.hdr.allot
      path0 := { pc := BitVec.ofNat 32 (g.task.entry % 2 ^ 40 + g.hdr.entryOff), act := 0xFFFFFFFF } }
    s.setStrand x.2.1 ((st.setSGroup 0 2 g.task.argp).setSGroup 2 2 g.task.entry)) s
/-- A gang starts on a core, or is restored there (12 R304, 14 R363, 04 R75). -/
def State.placeOne (s : State) (h : Header) (r : QRec) (p : Place) : State :=
  let ctx := r.task.ctx
  let die := coreDie p.core
  let s1 := ((s.setCarve p.core h.carve ctx).energyEnter p.core ctx).acquire p.core
  let s2 := match look s1.pkg.launches r.launch with
    | some l => s1.setPkg { s1.pkg with launches := upd s1.pkg.launches r.launch (some { l with
        slots := true, die := if h.nbdie = 0 then l.die else some (l.die.getD die) }) }
    | none => s1
  match r.gang with
  | some n =>
    (s2.onGang n fun g => { g with core := p.core, base := p.base, resident := true, placed := dieCycle die s.now, src := if r.src = 0 then g.src else r.src }).restoreGang n p.slots
  | none =>
    let (n, s3) := s2.fresh
    let g : Gang := {
      task := r.task, hdr := h, index := r.index, launch := r.launch, core := p.core, gslot := (freeSlots s2 ctx).headD 0, base := p.base
      bound := h.carve != 0, placed := dieCycle die s.now, live := h.nstr, src := r.src
      prim := { domain := r.task.domain, weight := r.task.weight }
      pinned := if r.task.graph then some (r.task.graphObj, r.task.gen) else none }
    (s3.setGang n g).startStrands n g p.slots
/-- Records leave a quad's queue. -/
def State.dequeue (s : State) (q : Nat) (ids : List Nat) : State :=
  s.setQuad q { s.quad q with
    queue := (s.quad q).queue.filter fun x => !ids.contains x.id
    hold := (s.quad q).hold.filter fun i => !ids.contains i }

/-- Weight of the gangs of a launch that have not been issued (13 R319; log 69, DEDUCED). -/
def Launch.unissued (l : Launch) : Nat := if l.task.domain = noDomain then 0 else l.weight - (l.next * (l.weight / l.n) + min l.next (l.weight % l.n))
/-- A launch's record is rejected when a gang of it is to be placed (06 R151): the gangs placed keep running; those queued and not yet
issued are rejected with it (log 69, DEDUCED). -/
def State.rejectPlaced (s : State) (r : QRec) (c : Cause) : State :=
  let mine (x : QRec) : Bool := x.launch == r.launch && x.gang.isNone && x.st == .queued
  let gone := s.quadsIn.flatMap fun q => (s.quad q).queue.filter mine
  let s1 := s.quadsIn.foldl (fun (s : State) q => s.dequeue q (((s.quad q).queue.filter mine).map (·.id))) s
  let s2 := gone.foldl (fun (s : State) x => if x.task.graph then s.unpin x.task.ctx x.task.graphObj x.task.gen else s) s1
  match look s.pkg.launches r.launch with
  | none => s2.reject r.task 1 0 c.1 c.2
  | some l =>
    let rest := l.n - l.next
    let w := (gone.map (·.task.weight)).foldl (· + ·) 0 + (if rest = 0 then 0 else l.unissued)
    let s3 := match l.pin with
      | some (o, g) => if rest = 0 then s2 else s2.unpin r.task.ctx o g
      | none => s2
    let s4 := s3.setPkg { s3.pkg with launches := upd s3.pkg.launches r.launch (some { l with next := l.n, ended := l.ended + gone.length + rest - 1, pin := none }) }
    (s4.launchEnded r.launch).reject { l.task with weight := w } l.origin l.addr c.1 c.2
/-- What a quad does with a record when it is tried for placement: placed with its team, rejected, or none (12 R304, 06 R151). -/
def State.tryPlace (s : State) (q : Nat) (r : QRec) : Option State := match headerOf s r with
  | .error c => some (s.rejectPlaced r c)
  | .ok h => match fitQuad s q r h (teamOf s q r) with
    | none => none
    | some ps =>
      let s1 := ps.foldl (fun (s : State) x => s.placeOne h x.1 x.2) s
      some (s1.dequeue q (ps.map (·.1.id)))
/-- A record could be placed on a quad at once (log 70, DEDUCED). -/
def placeableAt (s : State) (q : Nat) (r : QRec) : Bool := match headerOf s r with
  | .error _ => false
  | .ok h => (fitQuad s q r h (teamOf s q r)).isSome

end Sys2Proof.Machine
end

