-- ==== Sys2Proof/Machine/EvHost.lean ====
section
/-!
DEFINITION. Sys2Proof/Machine/EvHost.lean: the host window (16 R386, R387; 00 R14), contexts (14 R351, R363), interrupt records (16
R388), the aperture (16 R386), clock, power and sensors (16 R395, R396).
-/

namespace Sys2Proof.Machine

/-- Change the window. -/
def State.onWin (s : State) (f : Window → Window) : State := s.setPkg { s.pkg with win := f s.win }
/-- Replace the bits of a register that a mask names. -/
def masked (old : Dword) (mask v : Nat) : Dword := (old &&& ~~~(BitVec.ofNat 64 mask)) ||| (BitVec.ofNat 64 v &&& BitVec.ofNat 64 mask)
def clampNat (lo hi n : Nat) : Nat := max lo (min hi n)

/-- A write of a package register that has no event of its own, by its access type (00 R14, 16 R387; log 18, DESIGN CHOICE). -/
def Window.write (w : Window) (off v : Nat) : Window :=
  if off = 0x10 then { w with ctxoff := masked w.ctxoff 0xFFFFFFFF v }
  else if off = 0x18 then { w with plceil := masked w.plceil 0xFF v }
  else if off = 0x20 then { w with pwrctl := masked w.pwrctl 0xFFF (clampNat 1000 3400 (bits v 0 12)) }
  else if off = 0x30 then { w with rascfg := masked w.rascfg 0x1FFFF v }
  else if off = 0x38 then { w with stealctl := masked w.stealctl 0x3F (max 8 (bits v 0 5) + 32 * bits v 5 1) }
  else if off = 0x80 then { w with tkstat := masked w.tkstat 0xFFFFFFFF v }
  else if off = 0xB0 then { w with opstat := w.opstat &&& ~~~(BitVec.ofNat 64 v &&& 0x1E) }
  else if off = 0xC0 then { w with rpctl := masked w.rpctl 0x3FF001F (clampNat 10 30 (bits v 0 5) + 2 ^ 16 * bits v 16 10) }
  else if off = 0xC8 then { w with rstoff := masked w.rstoff 0xFFFFFFFFFFFF v }
  else if off = 0xD0 then { w with rpstat := masked w.rpstat 0xFFFFFFFF0000 v }
  else if off = 0xD8 then { w with enwt0 := BitVec.ofNat 64 v }
  else if off = 0xE0 then { w with enwt1 := BitVec.ofNat 64 v }
  else if off = 0xE8 then { w with enstat := masked w.enstat 0xFFFFFF v }
  else if off = 0x100 then { w with intbase := BitVec.ofNat 64 v }
  else if off = 0x108 then { w with intcfg := masked w.intcfg 0xFFFFFFFFFFFF v }
  else if off = 0x110 then { w with inthead := BitVec.ofNat 64 v }
  else if off = 0x120 then { w with apbase := BitVec.ofNat 64 v }
  else w
/-- A write of a die's register (13 R321, 15 R380, R383; log 18, DESIGN CHOICE). -/
def Die.write (d : Die) (o v : Nat) : Die :=
  if o = 0 then { d with tqcfg := BitVec.ofNat 64 v }
  else if o = 8 then { d with trctl := masked d.trctl 0x1FFFF v }
  else if o = 16 then { d with trbase := BitVec.ofNat 64 v }
  else if o = 24 then { d with trlen := BitVec.ofNat 64 v }
  else if o = 32 then { d with trhead := BitVec.ofNat 64 v }
  else if o = 40 then { d with lantern := masked d.lantern 0xFFFFFFFFFFFFF v }
  else d
/-- A write of a core's register (15 R376, R377, R379). -/
def Core.write (c : Core) (o v : Nat) : Core :=
  if o < 64 then { c with ibp := wr 0 c.ibp (o / 8) (masked 0 0xBFFFFFFFFFFFFFFF v) }
  else if o < 192 then
    let k := (o - 64) / 32
    let x := rd {} c.wp k
    let x' : Watch := if o % 32 = 0 then { x with addr := BitVec.ofNat 64 v } else if o % 32 = 8 then { x with value := BitVec.ofNat 64 v }
      else if o % 32 = 16 then { x with vmask := BitVec.ofNat 64 v } else { x with ctl := masked 0 0x7FFF v }
    { c with wp := wr {} c.wp k x' }
  else if o = 192 then { c with dbgctl := masked 0 7 v }
  else if o = 200 then { c with dbgstat := c.dbgstat &&& ~~~(BitVec.ofNat 64 v) }
  else if o = 208 then { c with evc0 := BitVec.ofNat 64 v }
  else if o = 216 then { c with evc1 := masked 0 0xFFFFFFFF v }
  else c
/-- A write of the attestation mailbox: the nonce, and DONE of ATTCMD (16 R398). -/
def State.mailboxWrite (s : State) (off v : Nat) : State :=
  if off = 0x3000 then (if bits v 0 1 = 1 then s else s.setPkg { s.pkg with attCtl := s.pkg.attCtl &&& ~~~(BitVec.ofNat 64 v &&& 2) })
  else if 0x3008 ≤ off ∧ off < 0x3038 then
    let i := 64 * ((off - 0x3008) / 8)
    s.setPkg { s.pkg with attNonce := BitVec.ofNat 384 (putBits s.pkg.attNonce.toNat i 64 v) }
  else s
/-- A write of a window register with no event of its own (16 R386, R387): an aligned one of 8 bytes, once boot has ended; registers of
absent dies and cores ignore it (log 77, DEDUCED; log 78, DEDUCED). -/
def execRegisterWrite (off size value : Nat) (s : State) : Answer :=
  .next (if !s.booted || size != 8 || off % 8 != 0 || decide (2 ^ 64 ≤ value) then s
    else if off < 0x200 then
      let s1 := s.onWin fun w => w.write off value
      if off = 0x30 then s1.overThreshold else s1
    else if off < 0x300 then
      let d := (off - 0x200) / 64
      let o := off % 64
      if !s.diePresent d then s
      else
        let s1 := s.setDie d ((s.die d).write o value)
        if o = 40 ∧ bits (s.die d).lantern.toNat 0 1 ≠ bits value 0 1 then
          (List.range 136).foldl (fun (s : State) c => s.onCore (136 * d + c) fun x => { x with lantern := 0 }) s1
        else s1
    else if 0x1000 ≤ off ∧ off < 0x1440 then
      let q := (off - 0x1000) / 8
      if s.diePresent (q / 34) then s.setQuad q { s.quad q with peak := BitVec.ofNat 8 (bits value 24 8) } else s
    else if 0x3000 ≤ off ∧ off < 0x4000 then s.mailboxWrite off value
    else if 0x100000 ≤ off ∧ off < 0x100000 + 512 * 544 then
      let n := (off - 0x100000) / 512
      if s.diePresent (n / 136) then s.onCore n fun c => c.write (off % 512) value else s
    else s)

/-- The in-flight translations of the generation the last publish replaced, by die (01 R36 OPLIVE; log 56, DEDUCED). -/
def opLive (s : State) : Nat := match s.pkg.unretired.find? (·.port) with
  | none => 0
  | some u => ([0, 1, 2, 3].map fun d => min 65535 (inFlight s d u.ctx u.obj u.gen) * 2 ^ (16 * d)).foldl (· + ·) 0
/-- What a read of a package register gives (00 R14, 16 R387): write-only registers read zero. -/
def Window.read (w : Window) (live gen held off : Nat) : Nat :=
  let d : Dword := if off = 0 then w.caps else if off = 8 then w.bootstat else if off = 0x10 then w.ctxoff else if off = 0x18 then w.plceil
    else if off = 0x20 then w.pwrctl else if off = 0x28 then w.clkctl else if off = 0x30 then w.rascfg else if off = 0x38 then w.stealctl
    else if off = 0x80 then w.tkstat else if off = 0x88 then w.ctxctl else if off = 0x90 then w.hrsm else if off = 0x98 then w.dstop
    else if off = 0xB0 then BitVec.ofNat 64 (w.opstat.toNat + gen * 2 ^ 32) else if off = 0xB8 then BitVec.ofNat 64 live else if off = 0xC0 then w.rpctl else if off = 0xC8 then w.rstoff
    else if off = 0xD0 then w.rpstat + BitVec.ofNat 64 held else if off = 0xD8 then w.enwt0 else if off = 0xE0 then w.enwt1 else if off = 0xE8 then w.enstat
    else if off = 0x100 then w.intbase else if off = 0x108 then w.intcfg else if off = 0x110 then w.inthead else if off = 0x118 then w.inttail
    else if off = 0x120 then w.apbase else 0
  d.toNat
def Die.read (d : Die) (o : Nat) : Nat :=
  (if o = 0 then d.tqcfg else if o = 8 then d.trctl else if o = 16 then d.trbase else if o = 24 then d.trlen else if o = 32 then d.trhead
   else if o = 40 then d.lantern else 0).toNat
def Core.read (c : Core) (o : Nat) : Nat :=
  let x := rd {} c.wp ((o - 64) / 32)
  (if o < 64 then rd 0 c.ibp (o / 8)
   else if o < 192 then (if o % 32 = 0 then x.addr else if o % 32 = 8 then x.value else if o % 32 = 16 then x.vmask else x.ctl)
   else if o = 192 then c.dbgctl else if o = 200 then c.dbgstat else if o = 208 then c.evc0 else if o = 216 then c.evc1 else 0).toNat
/-- A read of THERM (16 R395). -/
def Quad.therm (q : Quad) : Nat := q.tcd.toNat + q.tbd.toNat * 2 ^ 8 + (max q.tcd.toNat q.tbd.toNat) * 2 ^ 16 + q.peak.toNat * 2 ^ 24
def State.thermAt (s : State) (q : Nat) : Nat := if s.diePresent (q / 34) then (s.quad q).therm else 0
/-- The bytes of the attestation mailbox (16 R398; log 13, DESIGN CHOICE). -/
def mailbox (s : State) : List Byte :=
  leBytes 8 (s.pkg.attCtl.toNat + Config.certificate.length % 2 ^ 16 * 2 ^ 32) ++ leBytes 48 s.pkg.attNonce.toNat ++ zeros 200 ++
  (s.pkg.attReport ++ zeros 768).take 768 ++ (Config.certificate ++ zeros 3072).take 3072
/-- What a read of the host window gives (16 R386, R387): zeros where it is not an aligned one of 8 bytes; before READY, BOOTSTAT and the
boot log alone. -/
def registerRead (s : State) (off size : Nat) : Nat :=
  if size ≠ 8 ∨ off % 8 ≠ 0 then 0
  else if off = 8 then s.win.bootstat.toNat
  else if 0x2000 ≤ off ∧ off < 0x2400 then fieldAt s.logBytes (off - 0x2000) 8
  else if !s.booted then 0
  else if off < 0x200 then s.win.read (opLive s) (curGen s) (heldReductions s) off
  else if off < 0x300 then (if s.diePresent ((off - 0x200) / 64) then (s.die ((off - 0x200) / 64)).read (off % 64) else 0)
  else if 0x1000 ≤ off ∧ off < 0x1440 then s.thermAt ((off - 0x1000) / 8)
  else if 0x3000 ≤ off ∧ off < 0x4000 then fieldAt (mailbox s) (off - 0x3000) 8
  else if 0x100000 ≤ off ∧ off < 0x100000 + 512 * 544 then
    (if s.diePresent ((off - 0x100000) / 512 / 136) then (s.core ((off - 0x100000) / 512)).read (off % 512) else 0)
  else 0

/-- The bytes of the system space that the aperture shows at an offset: those past its end read zero, as all do before READY (16 R386). -/
def apertureRead (s : State) (addr size : Nat) : List Byte :=
  let room := spaceSize s s.sysPlace - (s.win.apbase.toNat + addr)
  if !s.booted then zeros size else s.sysRead (s.win.apbase.toNat + addr) (min size room) ++ zeros (size - room)
/-- A host read or write of bytes of the system space through BAR2 (16 R386): a read gives the host their values, and bytes past the end
ignore writes (log 77, DEDUCED). -/
def execApertureAccess (write addr size data : Nat) (s : State) : Answer :=
  .next (if 2 ^ 36 < addr + size then s
    else if write = 0 then s.setPkg { s.pkg with hostData := apertureRead s addr size }
    else if !s.booted then s
    else
      let room := spaceSize s s.sysPlace - (s.win.apbase.toNat + addr)
      s.sysWrite (s.win.apbase.toNat + addr) (leBytes (min size room) data))
/-- The MSI-X vector of a record: its context's, or 64 for a package record, which kinds 6 and 7 are (16 R388, R390). -/
def vectorOf (r : List Byte) : Nat :=
  let kind := fieldAt r 0 1
  if kind = 6 ∨ kind = 7 then 64 else bits (fieldAt r 1 1) 0 6
/-- The oldest waiting interrupt record is appended to the host's ring, and its MSI-X vector is signalled (16 R388). -/
def execInterruptRecordAppend (s : State) : Answer :=
  let w := s.win
  .next (match s.pkg.intWait with
  | [] => s
  | r :: rest =>
    if w.intCap = 0 ∨ w.intRoom = 0 then s
    else
      let ring := w.intbase.toNat + 32 * (w.inttail.toNat % w.intCap)
      let s1 := s.setMem (writeBytes s.mem (keysFrom (hostKey ring) 32) r)
      let v := vectorOf r
      s1.setPkg { s1.pkg with intWait := rest, win := { w with inttail := w.inttail + 1 }, signals := wr 0 s1.pkg.signals v (rd 0 s1.pkg.signals v + 1) })

/-- The fields of a context record (14 R351; log 12, DESIGN CHOICE). -/
def parseCtx (bs : List Byte) : Ctx :=
  let f (o n : Nat) : Nat := fieldAt bs o n
  let c := f 64 8
  { logall := bits (f 0 8) 1 1 == 1, otbase := f 8 8, otlen := bits (f 16 8) 0 25, ftarea := f 24 8, mdarea := f 32 8, regarea := f 40 8
    tspill := f 48 8, fqobj := f 56 3, gsobj := f 59 3, qstr := bits c 0 9, qvreg := bits c 9 11, qscr := bits c 20 10, qlog := bits c 30 5
    enarea := f 72 8, podmap := BitVec.ofNat 16 (f 88 2) }
/-- A CTXCTL operation completes (14 R363; log 74, DEDUCED). -/
def State.ctxFinish (s : State) (ctx op : Nat) (refused : Bool) : State :=
  let s1 := s.onWin fun w => { w with ctxctl := BitVec.ofNat 64 (putBits (putBits w.ctxctl.toNat 8 1 0) 9 1 1 ||| (if refused then 0x400 else 0)) }
  (s1.setPkg { s1.pkg with ctxOp := none }).postInterrupt 8 ctx op (bit refused)
/-- A write of CTXCTL naming an operation: dropped while BUSY; it clears the W1C bits it names, then the operation begins. -/
def State.ctxWrite (s : State) (value op : Nat) (body : Nat → State → State) : State :=
  if !s.booted || bits value 6 2 != op || bits s.win.ctxctl.toNat 8 1 == 1 then s
  else body (bits value 0 6) (s.onWin fun w => { w with ctxctl := w.ctxctl &&& ~~~(BitVec.ofNat 64 value &&& 0x600) })
/-- An operation that waits for CTXCTL_COMPLETE. -/
def State.ctxBusy (s : State) (ctx op : Nat) : State :=
  let s1 := s.onWin fun w => { w with ctxctl := w.ctxctl ||| 0x100 }
  let s2 := s1.setPkg { s1.pkg with ctxOp := some (ctx, op) }
  match s2.ctx ctx with
  | some c => s2.setCtx ctx { c with stopped := true }
  | none => s2
def execCtxctlNone (value : Nat) (s : State) : Answer := .next (s.ctxWrite value 0 fun ctx s => s.ctxFinish ctx 0 false)
/-- Stop: every gang of the context is marked for swap (14 R363; log 62, DESIGN CHOICE). -/
def execCtxctlStop (value : Nat) (s : State) : Answer :=
  .next (s.ctxWrite value 1 fun ctx s => (s.ctxBusy ctx 1).markSwap fun _ g => g.task.ctx == ctx)
/-- The regions of a context that its region area holds as disabled when it starts are known to every core (09 R227, R236; log 57, DEDUCED). -/
def State.tellRegions (s : State) (ctx : Nat) : State :=
  let dis := ((List.range 256).filter fun r => bits (s.regionNat ctx r 56 8) 1 1 == 1).map fun r => (ctx, r)
  (List.range 544).foldl (fun (s : State) c =>
    let old := (s.core c).disabled
    if old.filter (·.1 == ctx) == dis then s
    else s.onCore c fun x => { x with disabled := old.filter (·.1 != ctx) ++ dis }) s
/-- Start: the context record is read; with VALID = 0 it is refused (14 R351, R363). The banks of a context that starts again are kept (log 12, DESIGN CHOICE; log 57, DEDUCED). -/
def execCtxctlStart (value : Nat) (s : State) : Answer :=
  .next (s.ctxWrite value 2 fun ctx s =>
    let bs := readAt s.mem (onyxKey 0 (s.win.ctxoff.toNat + 256 * ctx)) 256
    if bits (fieldAt bs 0 8) 0 1 = 0 then s.ctxFinish ctx 2 true
    else
      let old := (s.ctx ctx).getD {}
      ((s.setCtx ctx { parseCtx bs with tactive := old.tactive, tfilled := old.tfilled, mactive := old.mactive, mfilled := old.mfilled }).tellRegions
        ctx).ctxFinish ctx 2 false)
/-- KILL.all of a strand, whatever it is doing (14 R357, R363). -/
def State.killStrand (s : State) (k : Nat) : State := match s.strand k with
  | none => s
  | some st => match st.mode with
    | .stopped | .handler => ((s.withdrawHeld k).withdrawParked k).resume k false (some true)
    | _ => s.killThreads k 0xFFFFFFFF
/-- A record is discarded: its weight goes back to a domain that breaks; a gang that was swapped out ends as killed (13 R330, 14 R363). -/
def State.discardRecord (s : State) (r : QRec) : State := match r.gang with
  | some n => s.gangEnd n true
  | none =>
    let s1 := (s.domainReturned r.task.domain r.task.ctx r.task.weight true).launchEnded r.launch
    if r.task.graph then s1.unpin r.task.ctx r.task.graphObj r.task.gen else s1
/-- Every record of a context is discarded: queued, lent, pending, spilled, held for overflow, on its way, or not yet issued (14 R363). -/
def State.discard (s : State) (ctx : Nat) : State :=
  let mine (r : QRec) : Bool := r.task.ctx == ctx
  let usable (r : QRec) : Bool := mine r && (match r.st with
    | .pending => (match look s.pkg.steals r.id with | some x => x.stage == 2 | none => false)
    | _ => true)
  let quads := s.quads.map (·.1)
  let recs := (quads.flatMap fun q => (s.quad q).queue.filter usable) ++ ((s.pkg.spilled.filter (·.1 == ctx)).map (·.2)) ++ s.pkg.overflow.filter mine
  let s1 := quads.foldl (fun (s : State) q => s.dequeue q (((s.quad q).queue.filter mine).map (·.id))) s
  let s2 := match spillQueue s1 ctx with
    | some (obj, _, t, _) => hwWrite s1 0 ctx obj (s1.spillBase ctx) (leBytes 8 t)
    | none => s1
  let port := s2.pkg.port.filter fun r => r.task.ctx == ctx
  let s3 := s2.setPkg { s2.pkg with
    spilled := s2.pkg.spilled.filter (·.1 != ctx), overflow := s2.pkg.overflow.filter fun r => !mine r
    port := s2.pkg.port.filter fun r => r.task.ctx != ctx, steals := s2.pkg.steals.filter fun x => x.2.item.task.ctx != ctx }
  let s4 := recs.foldl (fun (s : State) r => s.discardRecord r) s3
  let s5 := port.foldl (fun (s : State) r =>
    let s' := (s.accepted r.op).domainReturned r.task.domain ctx r.task.weight true
    if r.pinned then s'.unpin ctx r.task.graphObj r.task.gen else s') s4
  (s5.pkg.launches.filter fun x => x.2.task.ctx == ctx && decide (x.2.next < x.2.n)).foldl (fun (s : State) x =>
    let l := x.2
    let s1 := s.domainReturned l.task.domain ctx l.unissued true
    let s2 := match l.pin with | some (o, g) => s1.unpin ctx o g | none => s1
    (s2.setPkg { s2.pkg with launches := upd s2.pkg.launches x.1 (some { l with next := l.n, ended := l.ended + (l.n - l.next) - 1, pin := none }) }).launchEnded x.1) s5
/-- Kill: every strand, and every record (14 R363; log 74, DEDUCED). -/
def execCtxctlKill (value : Nat) (s : State) : Answer :=
  .next (s.ctxWrite value 3 fun ctx s =>
    let s1 := s.ctxBusy ctx 3
    let keys := (s1.strands.filter fun x => s1.ctxOf x.2 == ctx).map (·.1)
    (keys.foldl (fun (s : State) k => s.killStrand k) s1).discard ctx)
/-- A stop or kill completes (14 R363). -/
def execCtxctlComplete (s : State) : Answer :=
  .next (match s.pkg.ctxOp with
  | none => s
  | some (ctx, op) =>
    if op = 1 then (if s.gangs.any fun g => g.2.task.ctx == ctx && g.2.resident then s else s.ctxFinish ctx 1 false)
    else
      let s1 := s.discard ctx
      if s1.strands.any (fun x => s1.ctxOf x.2 == ctx) || s1.gangs.any fun g => g.2.task.ctx == ctx then s1 else s1.ctxFinish ctx 3 false)

/-- CLKCTL fields. -/
def State.rate (s : State) : Nat := bits s.win.clkctl.toNat 0 2
def State.curRate (s : State) : Nat := bits s.win.clkctl.toNat 2 2
def State.held (s : State) : Bool := bits s.win.clkctl.toNat 4 1 == 1
/-- A change of CUR is announced at least 4,096 die cycles ahead, and after those announced before it (16 R396); how far ahead is free (log
10, DESIGN CHOICE). -/
def State.announce (s : State) (rate : Nat) : State :=
  let last := s.pkg.clockAt.getLast?
  if (match last with | some x => x.1 | none => s.curRate) = rate then s
  else
    let (v, s1) := s.freeValue 16
    let c := max (dieCycle 0 s.now + 4096) (match last with | some x => x.2 + 1 | none => 0) + v.toNat
    (s1.setPkg { s1.pkg with clockAt := s.pkg.clockAt ++ [(rate, c)] }).postInterrupt 7 0 rate c
/-- A write of CLKCTL (16 R396). -/
def execClkctlRateWrite (value : Nat) (s : State) : Answer :=
  let r := bits value 0 2
  .next (if !s.booted || r == 3 then s
    else
      let s1 := s.onWin fun w => { w with clkctl := masked w.clkctl 3 r }
      if s.held then s1 else s1.announce r)
/-- An announced change takes effect (16 R396). -/
def execClockChangeEffective (s : State) : Answer :=
  .next (match s.pkg.clockAt with
  | [] => s
  | (r, c) :: rest =>
    if dieCycle 0 s.now < c then s
    else (s.setPkg { s.pkg with clockAt := rest }).onWin fun w => { w with clkctl := masked w.clkctl 0xC (4 * r) })
/-- The power manager's window ends (16 R396; log 76, DEDUCED; log 79, DESIGN CHOICE). -/
def execPowerWindow (watts : Nat) (s : State) : Answer :=
  let limit := bits s.win.pwrctl.toNat 0 12
  let g := s.pkg.gated
  let g' := if limit < watts then min (g + 32) 960 else if watts + 50 ≤ limit then g - 8 else g
  let s1 := s.onWin fun w => { w with pwrctl := masked w.pwrctl 0x3FF0FFF0000 (watts % 4096 * 2 ^ 16 + g * 1000 / 1024 * 2 ^ 32) }
  .next (s1.setPkg { s1.pkg with gated := g' })
/-- The sensors of a quad column are read (16 R395); a reading of 125 °C begins a thermal hold (16 R396). -/
def execSensorSample (quad tcd tbd : Nat) (s : State) : Answer :=
  let q := s.quad quad
  let t := BitVec.ofNat 8 tcd
  let b := BitVec.ofNat 8 tbd
  let m := max t.toNat b.toNat
  let s1 := s.setQuad quad { q with tcd := t, tbd := b, peak := if q.peak.toNat < m then BitVec.ofNat 8 m else q.peak }
  let cool := s1.dieSet.all fun d => (List.range 34).all fun i => decide (s1.reading (d * 34 + i) < 110)
  let s2 := s1.setPkg { s1.pkg with coolFrom := if cool then some (s.pkg.coolFrom.getD (dieCycle 0 s.now)) else none }
  .next (if !s.diePresent (quad / 34) then s
    else if 125 ≤ m ∧ !s.held then (s2.onWin fun w => { w with clkctl := masked w.clkctl 0x10 0x10 }).announce 2
    else s2)
/-- Every reading has stayed below 110 °C for 2^20 die cycles: the hold ends (16 R396). -/
def execThermalHoldEnd (s : State) : Answer :=
  .next (match s.pkg.coolFrom with
  | none => s
  | some c =>
    if !s.held || decide (dieCycle 0 s.now < c + 2 ^ 20) then s
    else (s.onWin fun w => { w with clkctl := masked w.clkctl 0x10 0 }).announce s.rate)

end Sys2Proof.Machine
end

