-- ==== Sys2Proof/Machine/EvBoot.lean ====
section
/-!
DEFINITION. Sys2Proof/Machine/EvBoot.lean: reset and boot (16 R392 to R394, 01 R25), the attestation mailbox and the sideband port (16
R397, R398).
-/

namespace Sys2Proof.Machine

/-- The log holds a failed mark of a step for a unit (16 R393). -/
def markedFailed (log : List BootEntry) (step unit : Nat) : Bool := log.any fun e => e.step == step && e.unit == unit && e.result == 1
/-- Run a step for a unit (16 R393, R394): the log with its result, and whether it passed; a unit marked failed is skipped (log 4, DESIGN CHOICE). -/
def bootUnit (ph : Phys) (old : List BootEntry) (no step : Nat) (r : List BootEntry × List Nat) (unit : Nat) : List BootEntry × List Nat :=
  if markedFailed old step unit then (logAppend r.1 (logEntry step unit 2 no 0), r.2)
  else if ph.bootFails.contains (step, unit) then (logAppend r.1 (logEntry step unit 1 no (Config.bootDetail step unit).toNat), r.2)
  else (logAppend r.1 (logEntry step unit 0 no 0), r.2 ++ [unit])
def bootUnits (ph : Phys) (old : List BootEntry) (no step n : Nat) (log : List BootEntry) : List BootEntry × List Nat :=
  (List.range n).foldl (bootUnit ph old no step) (log, [])
/-- A row of an Onyx bank is replaced from the bank's spares, if one is left (14 R369, 16 R393). -/
def spareRow (spared : Tab Nat) (bank : Nat) : Option (Tab Nat) :=
  let key := 3 * 2 ^ 32 + spareOwner 3 bank
  let used := rd 0 spared key
  if used < Config.spareRows 3 (spareOwner 3 bank) then some (wr 0 spared key (used + 1)) else none
/-- Step 4 for a die (16 R393): each row that fails is replaced from its bank's spares; with none left, the die is fenced. The log, the dies that
passed, and the rows in use (log 4, DESIGN CHOICE; log 109, DESIGN CHOICE). -/
def bootOnyx (ph : Phys) (old : List BootEntry) (no : Nat) (r : List BootEntry × List Nat × Tab Nat) (d : Nat) : List BootEntry × List Nat × Tab Nat :=
  let rows := (ph.bootFails.filter (· == (4, d))).length
  if markedFailed old 4 d then (logAppend r.1 (logEntry 4 d 2 no 0), r.2)
  else match (List.range rows).foldlM (fun (m : Tab Nat) n => spareRow m (Config.failedBank d n)) r.2.2 with
    | some m => (logAppend r.1 (logEntry 4 d (if rows = 0 then 0 else 3) no 0), r.2.1 ++ [d], m)
    | none => (logAppend r.1 (logEntry 4 d 1 no (Config.bootDetail 4 d).toNat), r.2)
/-- Step 1: image A, or B when A fails or is marked failed (16 R393); units 0 and 1 of the log are the images (log 17, PRESUMED). The second part is
the image in use, if one was verified. -/
def bootImages (ph : Phys) (old : List BootEntry) (no : Nat) : List BootEntry × Option Nat :=
  let a := bootUnit ph old no 1 (old, []) 0
  if !a.2.isEmpty then (a.1, some 0)
  else if ph.bootFails.contains (1, 1) then (logAppend a.1 (logEntry 1 1 1 no (Config.bootDetail 1 1).toNat), none)
  else (logAppend a.1 (logEntry 1 1 3 no 0), some 1)
/-- The set of dies a package runs in: the first whose dies and links all passed (16 R392). -/
def dieSets (part470 : Bool) (dies links : List Nat) : Option (List Nat) :=
  if !part470 && [0, 1, 2, 3].all dies.contains && [0, 1, 2, 3].all links.contains then some [0, 1, 2, 3]
  else if dies.contains 0 && dies.contains 1 && links.contains 0 then some [0, 1]
  else if dies.contains 0 then some [0] else none
/-- Placement and target of the system space (01 R25). -/
def systemSpace (dies hbms : List Nat) : Option (Nat × Nat) :=
  let whole := if dies.length = 4 then (List.range 16).all hbms.contains else if dies.length = 2 then (List.range 8).all hbms.contains else false
  if whole then some (0, 0)
  else match dies.find? fun d => (List.range 4).all fun k => hbms.contains (4 * d + k) with
    | some d => some (1, d)
    | none => hbms.head?.map fun k => (2, k)
/-- The die of a Wilmo port: die 0 has six of the 18, the others four each (02 R50; log 17, PRESUMED). -/
def portDie (p : Nat) : Nat := if p < 6 then 0 else 1 + (p - 6) / 4
/-- CAPS as boot writes it (16 R391; log 17, PRESUMED). -/
def capsWord (part470 : Bool) (dies hbms links : List Nat) (ports : Nat) : Nat :=
  let set (l : List Nat) : Nat := l.foldl (fun m i => Nat.lor m (2 ^ i)) 0
  let own (k : Nat) : Bool := dies.contains (k / 4)
  let ends (l : Nat) : Bool := if l = 0 then dies.contains 1 else dies.length == 4
  bit part470 + set dies * 2 ^ 4 + set (hbms.filter own) * 2 ^ 8 + (if part470 then 0 else 2 ^ 24 + 2 ^ 25 + ports * 2 ^ 26) +
  set (links.filter ends) * 2 ^ 31 + 7 * 2 ^ 35

/-- The rows that boot has replaced on the dies that passed step 4 fail no more, and the spares they took are in use (14 R369). -/
def State.sparing (s : State) (dies : List Nat) (spared : Tab Nat) : State :=
  { s.setPkg { s.pkg with spared } with phys := { s.phys with bootFails := s.phys.bootFails.filter fun u => !(u.1 == 4 && dies.contains u.2) } }
/-- The package after a reset and the boot that follows it (16 R393): every register at its reset value, Onyx SRAM zero; the host's
memory, the log, the boot count and the rows in use of the spares are as they were (14 R369, 16 R394; log 75, DESIGN CHOICE). -/
def State.boot (s : State) : State :=
  let ph := s.phys
  let no := s.pkg.boots + 1
  let old := s.pkg.bootLog
  let bare : State := { ({} : State) with mem := s.mem.filter fun c => isHost c.1, phys := ph, schedule := s.schedule, nextId := s.nextId, free := s.free }
  let base := bare.setPkg { bare.pkg with boots := no, spared := s.pkg.spared }
  let two := ph.part470
  let halt (log : List BootEntry) (step : Nat) : State := base.setPkg { base.pkg with
    bootLog := log, win := { base.win with bootstat := BitVec.ofNat 64 (2 + step * 2 ^ 8 + no % 2 ^ 24 * 2 ^ 16) } }
  let (l1, image) := bootImages ph old no
  match image with
  | none => halt l1 1
  | some image =>
    let (l2, links) := bootUnits ph old no 2 (if two then 1 else 4) l1
    let (l3, hbms) := bootUnits ph old no 3 (if two then 8 else 16) l2
    let (l4, dies, spared) := (List.range (if two then 2 else 4)).foldl (bootOnyx ph old no) (l3, [], s.pkg.spared)
    let (l5, quads) := bootUnits ph old no 5 (if two then 68 else 136) l4
    let (l6, trained) := bootUnits ph old no 6 (if two then 0 else 18) l5
    let halt7 (log : List BootEntry) : State := (halt (logAppend log (logEntry 7 0 1 no (Config.bootDetail 7 0).toNat)) 7).sparing dies spared
    match dieSets two dies links with
    | none => halt7 l6
    | some set => match systemSpace set (hbms.filter fun k => set.contains (k / 4)) with
      | none => halt7 l6
      | some (pl, tgt) =>
        let out := (l6.filter fun e => e.step == 8).map fun e => (e.unit, e.detail)
        let ports := trained.filter fun p => set.contains (portDie p)
        let good := ports.filter fun p => !out.contains (6, p + 4)
        let win := { base.win with
          caps := BitVec.ofNat 64 (capsWord two set hbms links good.length)
          bootstat := BitVec.ofNat 64 (1 + pl * 4 + tgt * 16 + 7 * 2 ^ 8 + no % 2 ^ 24 * 2 ^ 16) }
        let s1 := (base.sparing dies spared).setPkg { base.pkg with
          bootLog := logAppend l6 (logEntry 7 0 0 no 0), win, image, ports, excluded := out, spared
          badPorts := if two then [] else (List.range 18).filter fun p => !good.contains p }
        ((List.range 136).filter fun q => !quads.contains q).foldl (fun (s : State) q => s.setQuad q { s.quad q with excluded := true }) s1
/-- The package is reset and boots (16 R393; log 75, DESIGN CHOICE). -/
def execPackageReset (s : State) : Answer := .next s.boot
/-- Boot has ended, in READY or in FAIL: until then BOOTCLR is ignored (16 R386). -/
def State.bootEnded (s : State) : Bool := bits s.win.bootstat.toNat 0 2 != 0
/-- BOOTCLR removes a failed mark, or a step-8 entry, whose unit returns to use, but for a port of an absent die or that did not train (16
R392, R394). -/
def State.bootClear (s : State) (value : Nat) : State :=
  let step := bits value 0 8
  let unit := bits value 8 8
  let index := bits value 16 32
  let hit (e : BootEntry) : Bool := e.step == step && e.unit == unit && (if step = 8 then e.detail == index else e.result == 1)
  if !s.pkg.bootLog.any hit then s
  else
    let s1 := s.setPkg { s.pkg with bootLog := s.pkg.bootLog.filter fun e => !hit e }
    if step ≠ 8 then s1
    else
      let s2 := s1.setPkg { s1.pkg with excluded := s1.pkg.excluded.filter (· != (unit, index)) }
      match unitPort unit index with
      | none => s2
      | some p =>
        if !s2.pkg.badPorts.contains p || !s2.pkg.ports.contains p then s2
        else
          let win := { s2.win with caps := BitVec.ofNat 64 (putBits s2.caps 26 5 (bits s2.caps 26 5 + 1)) }
          s2.setPkg { s2.pkg with badPorts := s2.pkg.badPorts.filter (· != p), win }
/-- A write of BOOTCLR with RST = 0 (16 R394; log 62, DESIGN CHOICE; log 75, DESIGN CHOICE). -/
def execBootclrClear (value : Nat) (s : State) : Answer := .next (if s.bootEnded && bits value 63 1 == 0 then s.bootClear value else s)
/-- A write of BOOTCLR with RST = 1 (16 R394). -/
def execBootclrReset (value : Nat) (s : State) : Answer := .next (if s.bootEnded && bits value 63 1 == 1 then (s.bootClear value).boot else s)

/-- A write of ATTCMD with bit 0 set, from the host or the sideband: dropped while BUSY; the report will hold the nonce as it stands (16
R398; log 13, DESIGN CHOICE). -/
def State.attest (s : State) (value : Nat) : State :=
  if bits value 0 1 != 1 || bits s.pkg.attCtl.toNat 2 1 == 1 then s
  else s.setPkg { s.pkg with attCtl := (s.pkg.attCtl &&& ~~~(BitVec.ofNat 64 value &&& 2)) ||| 4, attTaken := s.pkg.attNonce }
/-- The host writes ATTCMD, once boot has ended (16 R386, R398). -/
def execAttestRequest (value : Nat) (s : State) : Answer := .next (if s.booted then s.attest value else s)
/-- The report up to its signature (16 R398; log 13, DESIGN CHOICE). -/
def attestBody (s : State) : List Byte :=
  leBytes 8 1 ++ leBytes 8 s.caps ++ leBytes 8 s.win.bootstat.toNat ++ leBytes 48 s.pkg.attTaken.toNat ++
  leBytes 48 (Config.firmwareMeasure s.pkg.image).toNat ++ sha384 s.logBytes
/-- The security processor has signed the report (16 R398). -/
def execAttestDone (s : State) : Answer :=
  .next (if bits s.pkg.attCtl.toNat 2 1 = 0 then s
    else
      let body := attestBody s
      let sig := Config.signature s.free (sha384 body)
      { s with free := s.free + 1 }.setPkg { s.pkg with
        attReport := body ++ leBytes 96 sig.toNat, attCtl := (s.pkg.attCtl &&& ~~~4) ||| 2 })
/-- What a board management controller may read: CAPS, BOOTSTAT, PWRCTL, CLKCTL, THERM, the boot log and the mailbox, in every state (16 R386,
R397; log 77, DEDUCED). -/
def sidebandRead (s : State) (off : Nat) : Nat :=
  if off % 8 ≠ 0 then 0
  else if off = 0 then s.caps
  else if off = 8 then s.win.bootstat.toNat
  else if off = 0x20 then s.win.pwrctl.toNat
  else if off = 0x28 then s.win.clkctl.toNat
  else if 0x1000 ≤ off ∧ off < 0x1440 then s.thermAt ((off - 0x1000) / 8)
  else if 0x2000 ≤ off ∧ off < 0x2400 then fieldAt s.logBytes (off - 0x2000) 8
  else if 0x3000 ≤ off ∧ off < 0x4000 then fieldAt (mailbox s) (off - 0x3000) 8
  else 0
/-- A board management controller reads a register, whose value it then holds, or writes the mailbox; every other write is out of its
reach (16 R397; log 77, DEDUCED). -/
def execSidebandRequest (off write value : Nat) (s : State) : Answer :=
  .next (if write = 0 then s.setPkg { s.pkg with sideData := leBytes 8 (sidebandRead s off) }
    else if decide (2 ^ 64 ≤ value) then s
    else if off = 0x3000 ∧ bits value 0 1 = 1 then s.attest value
    else if 0x3000 ≤ off ∧ off < 0x4000 ∧ off % 8 = 0 then s.mailboxWrite off value
    else s)

end Sys2Proof.Machine
end

