-- ==== Sys2Proof/Machine/EvRecovery.lean ====
section
/-!
DEFINITION. Sys2Proof/Machine/EvRecovery.lean: banks of tables and models (09 R211 to R213, R241), region state and recovery strands (09
R231 to R237, R242), the matrix engine (10 R251 to R256, R264) and CLAIM (12 R301).
-/

namespace Sys2Proof.Machine

/-- The write of an instruction reaches the system space, n bytes at p, and has `effect`; or it crosses a link that is down, writes nothing, and
its strand meets a deferred 0xB2 (02 R49, 03 R67; log 116, DEDUCED). -/
def State.posted (s : State) (op : Nat) (o : Op) (p n : Nat) (effect : State) : State :=
  (if s.sysCut (coreDie o.core) p n then s.defer o 0xB2 0 o.active 0 true else effect).finishOp op
/-- STBL's copy into the inactive bank ends (09 R212). -/
def execStblCopyDone (op : Nat) (s : State) : Answer :=
  onEvent s op fun o => match o.kind, s.ctx o.ctx with
    | .stbl t img, some c =>
      let b := 1 - bits c.tactive.toNat t 1
      s.posted op o (c.tableAt t b) img.length ((s.sysWrite (c.tableAt t b) img).setCtx o.ctx { c with tfilled := c.tfilled ||| (1 <<< (2 * t + b)) })
    | _, _ => s
/-- SLD's copy into the inactive bank ends (09 R241). -/
def execSldCopyDone (op : Nat) (s : State) : Answer :=
  onEvent s op fun o => match o.kind, s.ctx o.ctx with
    | .sld m img, some c =>
      let b := 1 - bits c.mactive.toNat m 1
      s.posted op o (c.modelAt m b) img.length ((s.sysWrite (c.modelAt m b) img).setCtx o.ctx { c with mfilled := c.mfilled ||| (1 <<< (2 * m + b)) })
    | _, _ => s
/-- A core takes the new active-bank bit (09 R211). -/
def execBankSwapNotice (op core : Nat) (s : State) : Answer :=
  onEvent s op fun o => match o.kind, s.ctx o.ctx with
    | .bankSwap model n cores, some c =>
      if !cores.contains core then s
      else
        let flip (w k now' : Nat) (old : Nat) : Nat := bits old 0 w - bits old k 1 * 2 ^ k + bits now' k 1 * 2 ^ k
        let s1 := s.onCore core fun x =>
          if model then { x with mbits := wr 0 x.mbits o.ctx (BitVec.ofNat 64 (flip 64 n c.mactive.toNat (rd 0 x.mbits o.ctx).toNat)) }
          else { x with tbits := wr 0 x.tbits o.ctx (BitVec.ofNat 8 (flip 8 n c.tactive.toNat (rd 0 x.tbits o.ctx).toNat)) }
        s1.setOp op { o with kind := .bankSwap model n (cores.filter (· != core)) }
    | _, _ => s
/-- A run in progress uses a bank other than bit b of table or slot n (09 R211). -/
def usesOldBank (s : State) (ctx : Nat) (model : Bool) (n b : Nat) : Bool :=
  s.strands.any fun x => s.ctxOf x.2 == ctx && [x.2.path0, x.2.path1].any fun p => match p.run with
    | some r => r.words != 0 && bits (if model then r.models.toNat else r.tables.toNat) n 1 != b
    | none => false
/-- TSWP or SSW completes (09 R211). -/
def execBankSwapComplete (op : Nat) (s : State) : Answer :=
  onEvent s op fun o => match o.kind, s.ctx o.ctx with
    | .bankSwap model n [], some c =>
      let b := bits (if model then c.mactive.toNat else c.tactive.toNat) n 1
      if usesOldBank s o.ctx model n b then s else s.finishOp op
    | _, _ => s

/-- A free recovery slot takes the oldest entry and those that may share its strand (09 R232, R233). -/
def execRecoveryStrandForm (core slot : Nat) (s : State) : Answer :=
  .next (match (s.core core).recq with
  | [] => s
  | en :: _ =>
    let k := strandKey core (384 + slot)
    match s.strand en.source with
    | none => s
    | some src =>
      if 8 ≤ slot ∨ (s.strand k).isSome then s
      else
        let same (x : RecEntry) : Bool := x.ctx == en.ctx && x.region == en.region && x.header == en.header && x.pc == en.pc
        let es := ((s.core core).recq.filter same).take 32
        let rest := (s.core core).recq.filter fun x => !es.contains x
        let base : Strand := {
          gang := src.gang, index := src.index, role := 3, lane := slot, allot := (es.map (·.srcAllot)).foldl max 0, recov := some es
          path0 := { pc := en.pc + 4, act := maskOf (List.range es.length) } }
        let st := (es.mapIdx fun n x => (n, x)).foldl (fun (st : Strand) x =>
          (x.2.argRegs.zip x.2.args).foldl (fun (st : Strand) y => st.setV y.1 x.1 y.2) st) base
        ((s.onCore core fun c => { c with recq := rest }).setStrand k st).trace k 0 7 st.path0.pc st.path0.act 0)

/-- A region state record takes an increment, at its slice (09 R235, R236). -/
def execRegionCounterUpdate (upd' : Nat) (s : State) : Answer :=
  .next (match look s.pkg.updates upd' with
  | none => s
  | some u =>
    let get (o n : Nat) : Nat := s.regionNat u.ctx u.region o n
    let put (s : State) (o n v : Nat) : State := s.regionWrite u.ctx u.region o (leBytes n v)
    let viol := min 65535 (get 22 2 + u.viol)
    let s1 := s.setPkg { s.pkg with updates := upd s.pkg.updates upd' none }
    let s2 := put (put (put (put s1 16 6 (get 16 6 + u.calls)) 24 6 (get 24 6 + u.fallb)) 32 4 (get 32 4 + u.samp)) 22 2 viol
    let s3 := match u.err with
      | none => s2
      | some e =>
        let old := get 36 4
        let a := fp32.value old
        let b := fp32.value e.toNat
        let m := if a.isNan then old else if b.isNan || a.lt b then e.toNat else old
        put (put s2 36 4 m) 40 16 (gridAdd (get 40 16) u.sq.toNat)
    let lim := (s.liveq u.ctx u.region).vlimit
    if u.viol ≠ 0 ∧ lim ≠ 0 ∧ lim ≤ viol then s3.disableRegion u.ctx u.region 0 else s3)
/-- A core is told that a region is disabled (09 R236). -/
def execRegionDisableNotice (core ctx region : Nat) (s : State) : Answer :=
  .next (if bits (s.regionNat ctx region 56 8) 1 1 = 0 ∨ (s.core core).disabled.contains (ctx, region) then s
    else s.onCore core fun c => { c with disabled := c.disabled ++ [(ctx, region)] })
/-- A core is told that a region is enabled again (09 R237). -/
def execRegionEnableNotice (core ctx region : Nat) (s : State) : Answer :=
  .next (if bits (s.regionNat ctx region 56 8) 1 1 = 1 then s
    else s.onCore core fun c => { c with disabled := c.disabled.filter (· != (ctx, region)) })
/-- A write of REGEN (09 R237). -/
def execRegenWrite (value : Nat) (s : State) : Answer :=
  let r := bits value 0 8
  let ctx := bits value 8 6
  let fl := s.regionNat ctx r 56 8
  let s1 := s.regionWrite ctx r 56 (leBytes 8 (fl - bits fl 1 1 * 2 - (if bits value 15 1 = 1 then bits fl 0 1 else 0)))
  .next (if !s.booted then s else if bits value 14 1 = 1 then s1.regionWrite ctx r 22 (leBytes 2 0) else s1)
/-- QSET completes: every core has dropped the old record (09 R242; log 41, DESIGN CHOICE). -/
def execQsetComplete (op : Nat) (s : State) : Answer :=
  onEvent s op fun o => match o.kind, s.ctx o.ctx with
    | .qset r, some c =>
      let bs := o.data.getD 0 []
      let fl := s.regionNat o.ctx r 56 8
      let s1 := (s.regionWrite o.ctx r 0 bs).regionWrite o.ctx r 56 (leBytes 8 (Nat.lor fl 1))
      let lim := (parseQuality bs).vlimit
      s.posted op o (regionAt c r) 64 (if lim ≠ 0 ∧ lim ≤ s.regionNat o.ctx r 22 2 then s1.disableRegion o.ctx r 0 else s1)
    | .qset _, none => s.finishOp op
    | _, _ => s

/-- Block b of a quarter of KB blocks a row (10 R249). -/
def quarterBlock (data : List Byte) (kb b : Nat) : Block :=
  let bs := data.length / (16 * kb)
  parseBlock ((data.drop (b * bs)).take bs)
/-- The contribution of a pair of blocks to one element: the exact integer, and whether a nonfinite element met a partner (10
R251). -/
def blockDot (a b : Block) : Int × Bool :=
  let ma (i : Nat) : Int := if a.isTs8 then ts8Int (a.body.getD i 8) else a.mant i
  (List.range 32).foldl (fun (r : Int × Bool) i =>
    if bits a.nz i 1 = 0 ∨ bits b.nz i 1 = 0 then r
    else if bits a.nf i 1 = 1 ∨ bits b.nf i 1 = 1 then (r.1, true)
    else (r.1 + ma i * b.mant i, r.2)) (0, false)
/-- The new element of a tile after a joint operation (10 R251). -/
def jointElem (w : Int) (sh : Int) (as bs : List Block) (old : TileElem) : TileElem :=
  let hi : Int := (2 ^ 95 : Nat) - 1
  let (sum, nf, ovf) := (as.zip bs).foldl (fun (r : Int × Bool × Bool) x =>
    let (d, f) := blockDot x.1 x.2
    let v := roundInt 0 (decide (d < 0)) d.natAbs (x.1.e + x.2.e - sh - w)
    let v' := if hi < v then hi else if v < -hi - 1 then -hi - 1 else v
    (r.1 + v', r.2.1 || f, r.2.2 || decide (v' ≠ v))) (0, false, false)
  clampTile (old.t.toInt + sum) (old.nf || nf) (old.ovf || ovf)
/-- The new quarter of tile t of member c (10 R251). -/
def jointTile (g : Gang) (t : Nat) (mmt : Bool) (a : List Byte) (bq : List (List Byte)) : Tab TileElem :=
  let kb := if mmt then 16 else 8
  let sh : Int := if mmt then 7 else 0
  let w := g.window t
  (List.range 16).foldl (fun (m : Tab TileElem) i =>
    let as := (List.range kb).map fun k => quarterBlock a kb (i * kb + k)
    (List.range 64).foldl (fun (m : Tab TileElem) n =>
      let bs := (List.range kb).map fun k => quarterBlock (bq.getD (n / 16) []) kb (n % 16 * kb + k)
      wr {} m (tileKey t i n) (jointElem w sh as bs (g.elem t i n))) m) g.tiles
/-- A fault found after issue, for the whole strand of a matrix operation (10 R255, R260; 03 R67). -/
def State.deferAll (s : State) (o : Op) (cause qual aux : Nat) : State :=
  s.onStrand o.strand fun st => { st with deferred := st.deferred ++ [{
    fault := { cause, qual, emask := o.mask, whole := true, defer := true, pc := o.pc, aux }
    path := if st.divided then o.path else 2, acc := o.acc, batch := o.batch, drain := st.draining }] }
/-- An operation leaves its core's matrix queue. -/
def State.popQueue (s : State) (o : Op) (id : Nat) : State := s.onCore o.core fun c => { c with queue := c.queue.filter (· != id) }
/-- A joint operation commits at all four members, or aborts on an uncorrectable error (10 R251, R255, R256); entries that waited to reuse its
buffers may match now (10 R252). -/
def execJointOpCommit (op : Nat) (s : State) : Answer :=
  onEvent s op fun o0 =>
    let heads := (List.range 4).filterMap fun c => (s.core (quadCore (quadOf o0.core) c)).queue.head?
    let os := heads.filterMap fun id => (s.op id).bind fun o => match o.kind with
      | .mma _ _ _ _ _ _ _ _ true => some (id, o)
      | _ => none
    if os.length ≠ 4 || !heads.contains op then s
    else
      let failing : Nat := (os.mapIdx fun i x => if x.2.items.any (·.bad != 0) then 2 ^ i else 0).foldl (· + ·) 0
      let bq := os.map fun x => x.2.data.getD 1 []
      let one (s : State) (x : Nat × Nat × Op) : State :=
        let (i, id, o) := x
        let s1 := s.popQueue o id
        if failing ≠ 0 then
          let s2 := if bits failing i 1 = 1 then s1.deferAll o 0xB2 0 0 else s1.deferAll o 0x0B 0x1D failing
          (s2.onGang o.gang fun g => { g with bufA := none, bufB := none }).finishOp id
        else match o.kind with
          | .mma t mmt _ _ _ _ pb _ _ =>
            let a := o.data.getD 0 []
            let pa := if mmt then 8 else (a.length / 128 - 16) / 4
            (s1.onGang o.gang fun g => { g with
              tiles := jointTile g t mmt a bq
              bufA := some { ts8 := mmt, planes := pa, k512 := mmt, data := a }
              bufB := some { ts8 := false, planes := pb, k512 := mmt, data := o.data.getD 1 [] } }).finishOp id
          | _ => s1
      ((os.mapIdx fun i x => (i, x)).foldl one s).formAll (quadOf o0.core)
/-- The element that MLD writes (10 R264): FZ32 does not flush an FP32 source (log 39, DEDUCED). -/
def mldElem (m : List Host.Cell) (addr : Nat) (grid : Bool) (rm : Nat) (w : Int) (i n : Nat) : TileElem :=
  if grid then
    let v := readNat m (addr + 16 * (64 * i + n)) 16
    clampTile (signed 126 (v % 2 ^ 126)) (bits v 127 1 == 1) (bits v 126 1 == 1)
  else
    let (q, ovf, nf) := toGrid rm (fp32.value (readNat m (addr + 4 * (64 * i + n)) 4)) w 96
    { t := BitVec.ofInt 96 q, nf, ovf }
/-- An MLD at the head of its core's queue writes its tile (10 R264; log 40, DESIGN CHOICE). -/
def execMldComplete (op : Nat) (s : State) : Answer :=
  onEvent s op fun o => match o.kind with
    | .mld t addr grid rm =>
      if (s.core o.core).queue.head? ≠ some op then s
      else
        let size := if grid then 16384 else 4096
        let s1 := s.popQueue o op
        if (keysFrom addr size).any s.uncorrectable then (s1.deferAll o 0xB2 0 0).finishOp op
        else
          (s1.onGang o.gang fun g => { g with
            tiles := (List.range 16).foldl (fun (m : Tab TileElem) i => (List.range 64).foldl (fun (m : Tab TileElem) n =>
              wr {} m (tileKey t i n) (mldElem s.mem addr grid rm (g.window t) i n)) m) g.tiles }).finishOp op
    | _ => s

/-- A lane grants the CLAIM at the head of its queue, once its blocks are free (12 R301). -/
def execClaimGrant (core lane : Nat) (s : State) : Answer :=
  .next (match (s.core core).claims.filter (·.1 == lane) with
  | [] => s
  | r :: _ =>
    if lanePool lane < s.laneBlocks core lane + r.2.blocks then s
    else
      let s1 := s.onCore core fun c => c.dropClaims (dieCycle (coreDie core) s.now) (· == r)
      (s1.onStrand r.2.strand fun st => { st with allot := st.allot + 8 * r.2.blocks }).passHeld r.2.strand r.2.path)
/-- The blocks a gang holds on a lane. -/
def gangBlocks (s : State) (core lane gang : Nat) : Nat :=
  (((s.onCoreStrands core).filter fun x => x.2.gang == gang && x.2.lane == lane).map fun x => x.2.allot / 8).foldl (· + ·) 0
/-- A CLAIM has waited 2^16 die cycles at the head: the core marks a gang that holds blocks of the lane (12 R301). -/
def execClaimStarvation (core lane : Nat) (s : State) : Answer :=
  .next (match (s.core core).claims.find? (·.1 == lane) with
  | none => s
  | some r =>
    let mine := (s.strand r.2.strand).map (·.gang)
    let holders := (s.residents core).filter fun g => some g.1 != mine && decide (0 < gangBlocks s core lane g.1)
    if dieCycle (coreDie core) s.now < r.2.head + 65536 ∨ s.laneBlocks core lane + r.2.blocks ≤ lanePool lane ∨ holders.any (·.2.swap) then s
    else match leastBy (fun (g : Nat × Gang) => 1000 - gangBlocks s core lane g.1) holders with
      | some g => s.markSwap fun n _ => n == g.1
      | none => s)

end Sys2Proof.Machine
end

