-- ==== Sys2Proof/Machine/EvStops.lean ====
section
/-!
DEFINITION. Sys2Proof/Machine/EvStops.lean: lanes and runs (12 R284 to R291), stops of strands and their records (14 R345 to R350),
what the host asks of stopped strands (14 R360, 15 R373), swaps (14 R363) and energy windows (14 R368).
-/

namespace Sys2Proof.Machine

/-- The paths of the strands on a lane (12 R281, R289). -/
def lanePaths (s : State) (core lane : Nat) : List (Nat × Nat × Strand) :=
  (s.strands.filter fun x => coreOf x.1 == core && x.2.lane == lane).flatMap fun x =>
    (x.1, 0, x.2) :: (if x.2.divided then [(x.1, 1, x.2)] else [])
/-- The class of a path, higher first (12 R290, 14 R354). -/
def Strand.rank (st : Strand) : Nat := if st.role = 3 ∨ st.mode = .handler then 3 else if st.role = 1 then 2 else if st.role = 2 then 1 else 0
/-- One path comes before another (12 R290): promoted, class, age, slot, path. -/
def pathBefore (a b : Nat × Nat × Strand) : Bool :=
  let pa := a.2.2.path a.2.1
  let pb := b.2.2.path b.2.1
  if (pa.passes == 32) != (pb.passes == 32) then pa.passes == 32
  else if a.2.2.rank ≠ b.2.2.rank then decide (b.2.2.rank < a.2.2.rank)
  else if pa.age ≠ pb.age then decide (pa.age < pb.age)
  else if a.1 ≠ b.1 then decide (a.1 < b.1)
  else decide (a.2.1 < b.2.1)
/-- A free lane chooses a ready path, and its run begins (12 R288 to R291; log 79, DESIGN CHOICE). -/
def execLaneRunStart (core lane : Nat) (s : State) : Answer :=
  let paths := lanePaths s core lane
  .next (if paths.any fun x => (x.2.2.path x.2.1).run.isSome then s
    else
      let cand := paths.filter fun x => ready s x.1 x.2.1
      match cand.foldl (fun (b : Option (Nat × Nat × Strand)) x => match b with
        | none => some x
        | some y => if pathBefore x y then some x else some y) none with
      | none => s
      | some (k, pi, st) =>
        let s1 := cand.foldl (fun (s : State) x => s.onPath x.1 x.2.1 fun p => { p with passes := min 32 (p.passes + 1) }) s
        let s2 := s1.onPath k pi fun p => { p with passes := 0, run := some {}, heldFrom := none }
        let p := st.path pi
        { s2.trace k pi 0 p.pc p.act 0 with cur := some (k, pi) })
/-- A path that the scoreboard or the lookahead has held for 512 die cycles gives up its lane (12 R286). -/
def execStallCapExpiry (strand path : Nat) (s : State) : Answer :=
  .next (match s.strand strand with
  | none => s
  | some st => match s.gang st.gang, (st.path path).run, (st.path path).heldFrom with
    | some g, some _, some since =>
      let d := coreDie (coreOf strand)
      let (e, whole) := comingTo s strand path st g
      if dieCycle d since + 512 ≤ dieCycle d s.now && stalled s e whole then (s.countEvent (coreOf strand) 1).endRun strand path else s
    | _, _, _ => s)

/-- Faults found in the drain are recorded for their paths; those of a path that has a record stay (14 R345; log 58, DEDUCED). -/
def Strand.takeDeferred (st : Strand) : Strand :=
  st.deferred.foldl (fun (r : Strand) d =>
    let pi := if r.divided && d.path == 1 then 1 else 0
    if d.drain && (r.path pi).fault.isNone then r.setPath pi { r.path pi with fault := some d.fault }
    else { r with deferred := r.deferred ++ [{ d with drain := false }] }) { st with deferred := [] }
/-- A record that goes to the host whatever the kernel (14 R349). -/
def PathFault.toHost (f : PathFault) : Bool :=
  f.cause == 0x23 || (f.cause == 0x22 && f.qual == 0x10) || f.cause == 0x10 || f.cause == 0x11 || f.cause == 0xB3
/-- The records a stopping strand writes, by path. -/
def Strand.faults (st : Strand) : List (Nat × PathFault) :=
  (match st.path0.fault with | some f => [(0, f)] | none => []) ++ (match st.path1.fault with | some f => [(1, f)] | none => [])
/-- The image and the records are written and routed (14 R345, R349, R354, R355; log 58, DEDUCED): a handler's record is queued too where
LOGALL is set, or where it is one of a joint operation's (10 R254). -/
def State.stopStrand (s : State) (k : Nat) : State :=
  match s.strand k with
  | none => s
  | some st0 => match s.gang st0.gang with
    | none => s
    | some g =>
      let st := st0.takeDeferred
      let bytes (pi : Nat) : List Byte := match (st.path pi).fault with | some f => faultRecord s k st g pi f false | none => []
      let s1 := st.faults.foldl (fun (s : State) x => s.trace k x.1 4 x.2.pc (st.path x.1).act (BitVec.ofNat 32 x.2.cause)) (s.setStrand k st)
      let s2 := s1.saveStrand k (bytes 0) (bytes 1)
      if g.hdr.handlerOff = 0 || st.faults.any (·.2.toHost) then s2.toHost k
      else
        let all := match s.ctx g.task.ctx with | some c => c.logall | none => false
        let queued := st.faults.filter fun x => all || x.2.team
        (queued.foldl (fun (s : State) x => s.appendFault (g.task.ctx % 64) x.2.cause (bytes x.1) false) s2).startHandler k
/-- A handler that faults is abandoned (14 R355, R347; log 63, DEDUCED). -/
def State.abandonHandler (s : State) (k : Nat) : State :=
  match s.strand k with
  | none => s
  | some st => match s.gang st.gang, st.faults with
    | some g, (pi, f) :: _ =>
      let f' := if f.cause = 0x10 then f else { f with cause := 0x10, qual := 0, aux := f.cause }
      let s1 := ((s.withdrawHeld k).withdrawParked k).trace k pi 4 f'.pc (st.path pi).act (BitVec.ofNat 32 f'.cause)
      (s1.appendFault (g.task.ctx % 64) 0x10 (faultRecord s k st g pi f' true) true).toHost k
    | _, _ => s
/-- The stop of a strand whose hit path stopped alone goes on: the other path waits at its rejoin, has ended, has stopped too (15 R371),
or may start no run because its gang is to be swapped out (log 59, DEDUCED). -/
def aloneDone (s : State) (st : Strand) : Bool :=
  let o (pi : Nat) : Bool :=
    let p := st.path pi
    p.arrived || p.ended || p.fault.isSome || (p.run.isNone && (match s.gang st.gang with | some g => g.swap | none => false))
  (st.path0.fault.isSome && o 1) || (st.path1.fault.isSome && o 0)
/-- The gang's last strand waits for the recovery strands that have taken the gang, whose save slot and handler they use (09 R238; log 33,
DEDUCED). -/
def keepsRecovery (s : State) (k : Nat) (st : Strand) : Bool :=
  st.recov.isNone && decide ((s.gang st.gang).any fun g => g.live ≤ 1) && s.strands.any fun x => x.1 != k && x.2.gang == st.gang && decide (384 ≤ slotOf x.1)
/-- A strand stops, ends or leaves its handler once it has drained (14 R345, R355; 12 R315; 15 R371, R373; log 58, DEDUCED; log 59, DEDUCED). -/
def execStrandStop (strand : Nat) (s : State) : Answer :=
  .next (match s.strand strand with
  | none => s
  | some st => match st.mode with
    | .running =>
      if st.divided && aloneDone s st then s.setStrand strand { st with mode := .stopping }
      else match st.stepping with
        | some _ => if st.stepDone then s.requestStop strand else s
        | none => s
    | .stopping => if s.drained strand then s.stopStrand strand else s
    | .handler => if (st.path0.fault.isSome || st.path1.fault.isSome) && s.drained strand then s.abandonHandler strand else s
    | .exiting =>
      if !s.idle strand || keepsRecovery s strand st then s
      else if !st.deferred.isEmpty then
        (s.setStrand strand { st with deferred := st.deferred.map fun d => { d with drain := true } }).stopStrand strand
      else if st.recov.isNone && (decide (st.pending ≠ 0) || s.pkg.updates.any fun u => u.2.strand == strand) then s
      else s.strandEnd strand
    | .stopped => s)

/-- The oldest record that waits for a context's fault queue is appended, or waits on: while OVF is 0, that sets it and gives notice (14 R350;
log 64, DEDUCED; log 65, DEDUCED). -/
def execFaultQueueAppend (ctx : Nat) (s : State) : Answer :=
  .next (match s.pkg.faultWait.find? (·.ctx == ctx) with
  | none => s
  | some a =>
    let rest := s.pkg.faultWait.erase a
    let unwritten : State :=
      let s1 := s.setPkg { s.pkg with faultWait := rest }
      if a.toHost then s1.postInterrupt 2 ctx 0x11 0 else s1
    let obj := match s.ctx ctx with | some c => c.fqobj | none => 0
    let ext := match record s 0 ctx obj with | some r => r.extent | none => 0
    let cap := (ext - 128) / 128
    if (s.ctx ctx).isNone || !hwReaches s 0 ctx obj 0 16 || cap = 0 then unwritten
    else
      let tail := hwNat s 0 ctx obj 8 8
      if hwNat s 0 ctx obj 0 8 + cap ≤ tail then
        let at' := s.win.ctxoff.toNat + 256 * ctx
        let w := s.onyxNat 0 at' 1
        if bits w 2 1 = 1 then s else (s.setMem (writeNat s.mem (onyxKey 0 at') 1 (w + 4))).postInterrupt 2 ctx 0x11 0
      else if !hwReaches s 0 ctx obj (128 + 128 * (tail % cap)) 128 then unwritten
      else
        let s1 := hwWrite s 0 ctx obj (128 + 128 * (tail % cap)) a.record
        let s2 := hwWrite s1 0 ctx obj 8 (leBytes 8 (tail + 1))
        let s3 := s2.setPkg { s2.pkg with faultWait := rest }
        if a.toHost then s3.postInterrupt 1 ctx a.cause (tail + 1) else s3)

/-- The gang of a context that holds a save slot. -/
def gangAt (s : State) (ctx gslot : Nat) : Option (Nat × Gang) := s.gangs.find? fun g => g.2.task.ctx == ctx && g.2.gslot == gslot
/-- The strand of a resident gang with an index. -/
def strandAt (s : State) (n index : Nat) : Option (Nat × Strand) := (gangStrands s n).find? (·.2.index == index)
/-- REJ of HRSM tells whether the last write was refused (14 R360; log 61, DEDUCED). -/
def State.hrsmRej (s : State) (b : Bool) : State := s.setPkg { s.pkg with win := { s.win with hrsm := if b then 1#64 <<< 32 else 0 } }
/-- A write of HRSM (14 R360): mode 0 RSM, 1 RSM.rx, 2 KILL, 3 KILL.all. -/
def State.hostResume (s : State) (value mode : Nat) : State :=
  let gslot := bits value 0 16
  let index := bits value 16 5
  if !s.booted || bits value 21 2 != mode then s
  else match gangAt s (bits value 24 6) gslot with
    | none => s.hrsmRej true
    | some (n, g) =>
      let ok (m : Nat) : Bool := (imgCheck (s.slotRead g (imageOff m) 16384) ((look g.saved m).getD {})).isNone
      let go (s : State) (k : Nat) : State := (s.resume k (mode == 1) (if mode = 2 then some false else if mode = 3 then some true else none)).hrsmRej false
      if bits value 23 1 = 1 then
        let k := strandKey g.core (384 + index)
        match s.strand k with
        | some st => if index < 8 && st.gang == n && st.mode == .stopped && ok (32 + index) then go s k else s.hrsmRej true
        | none => s.hrsmRej true
      else if g.resident then match strandAt s n index with
        | some (k, st) => if st.mode == .stopped && ok index then go s k else s.hrsmRej true
        | none => s.hrsmRej true
      else if g.stopped.contains index && ok index then
        (s.onGang n fun g => { g with held := g.held ++ [.resume index mode] }).hrsmRej false
      else s.hrsmRej true
def execHrsmRsm (value : Nat) (s : State) : Answer := .next (s.hostResume value 0)
def execHrsmRsmRx (value : Nat) (s : State) : Answer := .next (s.hostResume value 1)
def execHrsmKill (value : Nat) (s : State) : Answer := .next (s.hostResume value 2)
def execHrsmKillAll (value : Nat) (s : State) : Answer := .next (s.hostResume value 3)

def State.dstopRej (s : State) (b : Bool) : State := s.setPkg { s.pkg with win := { s.win with dstop := if b then 1#64 <<< 32 else 0 } }
/-- The strands a write of DSTOP names: of a resident gang by key, of another by index (15 R373). -/
def dstopNames (s : State) (value n : Nat) (g : Gang) : List (Nat × Option (Nat × Strand)) :=
  let all := if g.resident then ((gangStrands s n).filter fun x => x.2.mode != .exiting).map fun x => (x.2.index, some x)
    else (g.saved.filter fun (x : Nat × Saved) => decide (x.1 < 32)).map fun (x : Nat × Saved) => (x.1, none)
  if bits value 21 1 = 1 then all else all.filter fun x => x.1 == bits value 16 5
/-- A write of DSTOP with STEP = 0 requests stops (15 R373, R374; log 61, DEDUCED; log 62, DESIGN CHOICE). -/
def execDstopStop (value : Nat) (s : State) : Answer :=
  .next (if !s.booted || bits value 22 1 != 0 then s
    else match gangAt s (bits value 24 6) (bits value 0 16) with
      | none => s.dstopRej true
      | some (n, g) =>
        let names := dstopNames s value n g
        let one (s : State) (x : Nat × Option (Nat × Strand)) : State := match x.2 with
          | some (k, _) => s.requestStop k
          | none => s.onGang n fun g => { g with held := g.held ++ [.stop x.1] }
        (names.foldl one s).dstopRej names.isEmpty)
/-- A write of DSTOP with STEP = 1 sets the step flags of stopped strands (15 R373; log 60, DEDUCED). -/
def execDstopStep (value : Nat) (s : State) : Answer :=
  .next (if !s.booted || bits value 22 1 != 1 then s
    else match gangAt s (bits value 24 6) (bits value 0 16) with
      | none => s.dstopRej true
      | some (n, g) =>
        let names := dstopNames s value n g
        let halted (x : Nat × Option (Nat × Strand)) : Bool := match x.2 with
          | some (_, st) => st.mode == .stopped || st.mode == .handler
          | none => g.stopped.contains x.1
        let one (s : State) (x : Nat × Option (Nat × Strand)) : State := match x.2 with
          | some (k, _) => s.onStrand k fun st => { st with stepFlag := true }
          | none => s.onGang n fun g => { g with held := g.held ++ [.step x.1] }
        ((names.filter halted).foldl one s).dstopRej (names.isEmpty || !names.all halted))

/-- A marked gang is saved, and its record goes to the tail of its quad's queue (14 R363, 12 R307; log 68, DEDUCED). -/
def execGangSwapSave (gang : Nat) (s : State) : Answer :=
  .next (match s.gang gang with
  | none => s
  | some g =>
    let q := quadOf g.core
    let room := decide (0 < s.room q)
    if !g.resident || !g.swap || !canSave s gang || (!room && (g.bound || !spillRoom s g.task.ctx)) then s
    else
      let s1 := s.saveGang gang
      let r : QRec := { task := { g.task with weight := g.prim.weight }, gang := some gang, launch := g.launch, index := g.index }
      (if room then s1.enqueue q r else s1.spill r).settleUnits)

/-- Static energy of a window, by context (14 R368): the strand slots each holds on the core. -/
def slotShares (s : State) (core : Nat) : List (Nat × Nat) :=
  let holders := (s.strands.filter fun x => coreOf x.1 == core).map fun x => match x.2.recov with
    | some (en :: _) => en.ctx
    | _ => s.ctxOf x.2
  (dedup holders).map fun c => (c, (holders.filter (· == c)).length)
/-- Add units to a context's counter on a core, and to its charges of the window (14 R366). -/
def State.chargeUnits (s : State) (core ctx u : Nat) : State :=
  if u = 0 then s else
  s.onCore core fun c => { c with energy := wr {} c.energy ctx ((rd {} c.energy ctx).add u), charges := wr 0 c.charges ctx (rd 0 c.charges ctx + u) }
/-- 4,096 die cycles have ended: static units are divided, and the window's charges join the package sums (14 R368). -/
def execEnergyWindow (core : Nat) (s : State) : Answer :=
  let stat := bits s.win.enstat.toNat 0 24
  let shares := slotShares s core
  let total := (shares.map (·.2)).foldl (· + ·) 0
  let part (n : Nat) : Nat := stat * n / total
  let rest := stat - (shares.map fun x => part x.2).foldl (· + ·) 0
  let most := leastBy (fun (x : Nat × Nat) => (1000 - x.2) * 64 + x.1) shares
  let s1 := if total = 0 then s
    else shares.foldl (fun (s : State) x => s.chargeUnits core x.1 (part x.2 + (if some x = most then rest else 0))) s
  let s2 := (s1.core core).charges.foldl (fun (s : State) x =>
    let at' := s.win.ctxoff.toNat + 256 * x.1 + 80
    s.setMem (writeNat s.mem (onyxKey 0 at') 8 ((parseCounter (s.onyxNat 0 at' 8)).add x.2).word)) s1
  .next (s2.onCore core fun c => { c with charges := [] })

end Sys2Proof.Machine
end

