-- ==== Sys2Proof/Machine/EvTasks.lean ====
section
/-!
DEFINITION. Sys2Proof/Machine/EvTasks.lean: the task port, the dispatcher and the quads (12 R302 to R306; 13 R318 to R324), successor
counters and returns of weight (13 R325 to R328), losses (13 R330) and POD arrivals (13 R338).
-/

namespace Sys2Proof.Machine

/-- A write to TKPORT (13 R320): a 64-byte aligned write of 64 bytes is a record; another is dropped and counted. -/
def execTkportWrite (off size data : Nat) (s : State) : Answer :=
  .next (if !s.booted || decide (off + size ≤ 0x40) || decide (0x80 ≤ off) then s
    else if off = 0x40 ∧ size = 64 then s.submit { task := parseTask (leBytes 64 data), origin := 0 }
    else if bits s.win.tkstat.toNat 0 16 = 65535 then s
    else s.setPkg { s.pkg with win := { s.win with tkstat := s.win.tkstat + 1 } })
/-- The dispatcher takes the oldest record that has reached it (13 R318, R320; log 46, DESIGN CHOICE). -/
def execDispatcherTake (s : State) : Answer :=
  .next (match s.pkg.port with
  | [] => s
  | r :: rest => if !r.pinned && pinsFull s r.task 1 then s else (s.setPkg { s.pkg with port := rest }).takeRecord r)
/-- The next gang record of a launch, or a team's four, goes to a quad's queue, or to the spill when no queue has room (13 R319, R322;
12 R302; log 44, DEDUCED; log 45, DEDUCED). -/
def execLaunchExpand (launch : Nat) (s : State) : Answer :=
  .next (match look s.pkg.launches launch with
  | none => s
  | some l =>
    let n := if l.hdr.team then 4 else 1
    if l.task.kind = 0 || decide (l.n < l.next + n) || pinsFull s l.task n then s
    else
      let recs := (List.range n).map fun i => ({ task := l.gangTask (l.next + i), launch, index := l.next + i } : QRec)
      let fixed := if l.hdr.nbdie = 0 then none else l.die
      let quad := s.chooseQuad fixed n
      let spill := spillRoom s l.task.ctx n
      if quad.isNone && !spill then s
      else
        let s1 := recs.foldl (fun (s : State) r =>
          let s' := match quad with | some q => s.enqueue q r | none => s.spill r
          if l.task.graph then s'.pin l.task.ctx l.task.graphObj l.task.gen else s') s
        let last := l.next + n == l.n
        let s2 := match l.pin with
          | some (o, g) => if last then s1.unpin l.task.ctx o g else s1
          | none => s1
        let die := if l.hdr.nbdie = 0 then l.die else match quad with | some q => some (q / 34) | none => l.die
        s2.setPkg { s2.pkg with launches := upd s2.pkg.launches launch (some { l with next := l.next + n, die, pin := if last then none else l.pin }) })
/-- A spilled record may return to this quad (13 R322): a team's four to one quad (12 R304), a launch with DIE slots to its die (13 R338;
log 45, DEDUCED). -/
def returnsTo (s : State) (quad : Nat) (r : QRec) : Bool :=
  let hdr : Option Header := match r.gang with
    | some n => (s.gang n).map fun (g : Gang) => g.hdr
    | none => (look s.pkg.launches r.launch).map fun (l : Launch) => l.hdr
  let die := (look s.pkg.launches r.launch).bind fun l => l.die
  match hdr with
  | none => true
  | some h =>
    let mates := (s.quadsIn.filter fun q => (s.quad q).queue.any fun x => x.launch == r.launch && x.index / 4 == r.index / 4) ++
      (s.gangs.filter fun x => x.2.hdr.team && x.2.launch == r.launch && x.2.index / 4 == r.index / 4).map fun x => quadOf x.2.core
    (!h.team || mates.all (· == quad)) && (h.nbdie == 0 || die.all (· == quad / 34))
/-- The object address that a record, or the launch it is of, was read from; 0 for a host record and one of SPWN (14 R347). -/
def State.recordAddr (s : State) (src launch : Nat) : Nat := if src ≠ 0 then src else ((look s.pkg.launches launch).map (·.addr)).getD 0
/-- Weight is lost by a hard fault (13 R330): a fault record that names the task record reports it, or, where it could not be read, that it
is unknown (14 R347). -/
def State.loseWeight (s : State) (d ctx w : Nat) (unread : Bool) (task : Nat) : State :=
  let s2 := s.domainReturned d ctx (if unread then 0 else w) true
  let s3 := if unread && d != noDomain && domainValid s2 d ctx then s2.domainPut d 24 4 (Nat.lor (domainNat s2 d 24 4) 4) else s2
  s3.appendFault (ctx % 64) 0x61 (strandlessRecord s3 0x61 0 ctx 0 (if unread then 2 ^ 64 - 1 else w) task) true
/-- Whether the weight of what a hard fault destroys can be read is a free value (log 10, DESIGN CHOICE). -/
def State.lose (s : State) (d ctx w task : Nat) : State :=
  let (r, s1) := s.freeValue 1
  s1.loseWeight d ctx w (r == 1) task
/-- An MMA or MMT of a joint operation that has been accepted (10 R248). -/
def Op.committing (o : Op) : Bool := match o.kind with
  | .mma _ _ _ _ _ _ _ _ acc => acc
  | _ => false
/-- It stays in its core's queue, without a strand, when its gang is destroyed: its joint operation runs to commit for the others (10 R248). -/
def Op.orphan (o : Op) : Op := { o with strand := 2 ^ 32, acc := none }
/-- A gang is destroyed with its holdings, its strands and what they have in flight (13 R330); a joint operation that has been accepted goes
on (10 R248). -/
def State.destroyGang (s : State) (n : Nat) : State := match s.gang n with
  | none => s
  | some g =>
    let ctx := g.task.ctx
    let s1 := if g.prim.returned then s else s.lose g.prim.domain ctx g.prim.weight (s.recordAddr g.src g.launch)
    let s2 := match g.sec with
      | some h => if h.returned then s1 else s1.lose h.domain ctx h.weight (s.recordAddr g.src g.launch)
      | none => s1
    let mine (x : Nat × Strand) : Bool := x.2.gang == n
    let s3 := ((s2.strands.filter fun x => mine x && decide (384 ≤ slotOf x.1)).map (·.1)).foldl (fun (s : State) k => s.strandEnd k) s2
    let keys := (s3.strands.filter mine).map (·.1)
    let entry (e : RecEntry) : RecEntry := if keys.contains e.source then { e with done := true } else e
    let s4 : State := { s3 with
      ops := (s3.ops.filter fun x => x.2.gang != n || x.2.committing).map fun x => if x.2.gang == n then (x.1, x.2.orphan) else x
      strands := (s3.strands.filter fun x => !mine x).map fun (x : Nat × Strand) => (x.1, { x.2 with recov := x.2.recov.map fun es => es.map entry })
      cores := s3.cores.map fun (x : Nat × Core) => (x.1, {
        (x.2.dropClaims (dieCycle (coreDie x.1) s.now) fun c => keys.contains c.2.strand) with
        recq := x.2.recq.filter fun e => !keys.contains e.source
        queue := x.2.queue.filter fun id => match s3.op id with | some o => o.gang != n || o.committing | none => true
        matchList := x.2.matchList.filter fun id => match s3.op id with | some o => o.gang != n | none => true })
      cur := match s3.cur with | some (k, p) => if keys.contains k then none else some (k, p) | none => none }
    (s4.onGang n fun g => { g with prim := { g.prim with returned := true }, sec := g.sec.map fun h => { h with returned := true } }).gangEnd n false
/-- A record that no longer stands anywhere is lost (13 R330; log 72, DEDUCED); where a spilled one cannot be read back, its weight is
unknown (13 R322). -/
def State.loseRecord (s : State) (r : QRec) (unread : Bool := false) : State := match r.gang with
  | some n => (s.onGang n fun g => { g with src := if r.src = 0 then g.src else r.src }).destroyGang n
  | none =>
    let t := r.task
    let at' := s.recordAddr r.src r.launch
    let s1 := (if unread then s.loseWeight t.domain t.ctx t.weight true at' else s.lose t.domain t.ctx t.weight at').launchEnded r.launch
    if t.graph then s1.unpin t.ctx t.graphObj t.gen else s1
/-- A quad with at least 512 free entries, below the ceiling, takes the oldest record of a spill (13 R322; log 11, DEDUCED). -/
def execTaskSpillTake (quad ctx : Nat) (s : State) : Answer :=
  .next (match spillQueue s ctx, s.pkg.spilled.find? (·.1 == ctx), s.ctx ctx with
  | some (obj, h, t, cap), some e, some c =>
    if !s.quadsIn.contains quad || decide (s.room quad < 512) || decide (s.ceiling ≤ s.reading quad) || decide (t ≤ h) || c.stopped ||
        !returnsTo s quad e.2 then s
    else
      let at' := s.spillBase ctx + 64 + 64 * (h % cap)
      let lost := (List.range 64).any fun i => (hwKey s 0 ctx obj (at' + i)).any (s.readFails 0)
      let task := parseTask (hwRead s 0 ctx obj at' 64)
      let s1 := hwWrite s 0 ctx obj (s.spillBase ctx) (leBytes 8 (h + 1))
      let s2 := s1.setPkg { s1.pkg with
        spilled := s1.pkg.spilled.erase e
        launches := match look s1.pkg.launches e.2.launch with
          | some l => upd s1.pkg.launches e.2.launch (some { l with die := if l.hdr.nbdie = 0 then l.die else some (l.die.getD (quad / 34)) })
          | none => s1.pkg.launches }
      let src := obj * 2 ^ 40 + at'
      if lost then s2.loseRecord { e.2 with src } true else s2.enqueue quad { e.2 with task, src }
  | _, _, _ => s)

/-- The oldest record of the overflow buffer goes where there is room (13 R322). -/
def execOverflowBufferRetry (s : State) : Answer :=
  .next (match s.pkg.overflow with
  | [] => s
  | r :: rest =>
    let s1 := s.setPkg { s.pkg with overflow := rest }
    match s.chooseQuad none 1 with
    | some q => s1.enqueue q r
    | none => if spillRoom s r.task.ctx then s1.spill r else s)

/-- The oldest record has waited one quantum of its own context (12 R304). -/
def waitedLong (s : State) (quad : Nat) (r : QRec) : Bool := decide (r.entered + quantum s r.task.ctx ≤ dieCycle (quad / 34) s.now)
/-- The records of a quad that may be placed, oldest first (12 R304): none younger than one that has waited one quantum as the oldest. -/
def unblocked (s : State) (quad : Nat) : List QRec :=
  let all := placeable s quad
  let held := match (s.quad quad).hold, all.findIdx? (fun (r : QRec) => some r.id == (s.quad quad).hold) with
    | some _, some i => all.take (i + 1)
    | _, _ => all
  match all with
  | r :: _ :: _ => if waitedLong s quad r then [r] else held
  | one => one
/-- A quad places the oldest record of its queue that fits (12 R304). -/
def execGangPlace (quad : Nat) (s : State) : Answer :=
  .next (if !s.quadsIn.contains quad then s else match (unblocked s quad).findSome? (fun (r : QRec) => s.tryPlace quad r) with
    | some s' => s'
    | none => s)
/-- The oldest record has waited one quantum of its context: it holds back younger placements (12 R304). -/
def execOldestRecordHold (quad : Nat) (s : State) : Answer :=
  .next (match placeable s quad with
  | [] => s
  | r :: _ =>
    if !waitedLong s quad r || (s.quad quad).hold.isSome then s
    else s.setQuad quad { s.quad quad with hold := some r.id })
/-- The package without a gang and its teammates on their cores, and without the counters that leave with them (14 R367; log 70, DEDUCED). -/
def State.without (s : State) (n : Nat) : State := match s.gang n with
  | none => s
  | some g =>
    let gone := n :: (mates s n g).map (·.1)
    let gangs := s.gangs.map fun x => if gone.contains x.1 then (x.1, { x.2 with resident := false }) else x
    let stays (core ctx : Nat) : Bool := gangs.any fun x => x.2.resident && x.2.core == core && x.2.task.ctx == ctx
    { s with
      gangs
      strands := s.strands.filter fun x => !(gone.contains x.2.gang && decide (slotOf x.1 < 384))
      cores := s.cores.map fun (x : Nat × Core) => (x.1, { x.2 with holding := x.2.holding.filter (stays x.1) }) }
/-- The package without several gangs. -/
def State.withoutAll (s : State) (ns : List Nat) : State := ns.foldl (fun (s : State) n => s.without n) s
/-- The gang's quantum of residency has ended (12 R306). -/
def Gang.overdue (s : State) (g : Gang) : Bool := decide (g.placed + quantum s g.task.ctx ≤ dieCycle (coreDie g.core) s.now)
/-- The departure of gang n would let a waiting record be placed (12 R306): alone, or, where those marked do not suffice, together with those
marked and the others whose quantum has ended, of its core or, for a team's record, of its quad (12 R308; log 70, DEDUCED). -/
def makesRoom (s : State) (q n : Nat) (g : Gang) (r : QRec) : Bool :=
  let near (x : Nat × Gang) : Bool := x.2.resident && quadOf x.2.core == q
  let team := match headerOf s r with | .ok h => h.team | .error _ => false
  let marked := (s.gangs.filter fun x => near x && x.2.swap).map (·.1)
  let others := (s.gangs.filter fun x => near x && x.2.overdue s && (team || x.2.core == g.core)).map (·.1)
  placeableAt (s.without n) q r ||
    (!placeableAt (s.withoutAll marked) q r && placeableAt (s.withoutAll (n :: marked ++ others)) q r)
/-- A quantum has ended on a core: of the gangs whose own has, the longest resident whose departure would let a queued record be placed is
marked (12 R306; log 70, DEDUCED). -/
def execQuantumExpiry (core : Nat) (s : State) : Answer :=
  let q := quadOf core
  let waiting := (unblocked s q).filter fun r => !placeableAt s q r
  let cand := (s.residents core).filter fun x => !x.2.swap && x.2.overdue s && waiting.any (makesRoom s q x.1 x.2)
  .next (match leastBy (fun (x : Nat × Gang) => x.2.placed) cand with
    | some x => s.markSwap fun n _ => n == x.1
    | none => s)

/-- Change the entry of a quad's queue with a number. -/
def State.onEntry (s : State) (q id : Nat) (f : QRec → QRec) : State :=
  s.setQuad q { s.quad q with queue := (s.quad q).queue.map fun x => if x.id == id then f x else x }
/-- The records of a quad that are queued. -/
def queued (s : State) (q : Nat) : List QRec := (s.quad q).queue.filter (·.st == .queued)
/-- A thief may take this record from a victim's queue (13 R323): its context runs, its kernel has no team, it is bound to no core, across
dies its kernel has no DIE slots, and the thief can place it at once. -/
def stealable (s : State) (thief victim : Nat) (r : QRec) : Bool :=
  let hdr : Option Header := match r.gang with
    | some n => (s.gang n).map (fun (g : Gang) => g.hdr)
    | none => (look s.pkg.launches r.launch).map (fun (l : Launch) => l.hdr)
  let bound := match r.gang with
    | some n => (match s.gang n with | some g => g.bound | none => true)
    | none => false
  match hdr with
  | none => false
  | some h => !h.team && !bound && (thief / 34 == victim / 34 || h.nbdie == 0) && placeableAt s thief r
/-- The dies a thief looks on, in order (13 R323; log 71, DEDUCED). -/
def stealOrder (s : State) (die : Nat) : List Nat :=
  if bits s.win.stealctl.toNat 5 1 = 0 then [die] else [die, Nat.xor die 1, Nat.xor die 2, Nat.xor die 3].filter s.diePresent
/-- An idle quad below the ceiling lends itself a record of the fullest quad (13 R323, R324; log 71, DEDUCED). -/
def execStealStart (quad : Nat) (s : State) : Answer :=
  let slot := (List.range 4).any fun c => decide ((s.onCoreStrands (quadCore quad c)).length < 384)
  let fullest (d : Nat) : Option Nat :=
    leastBy (fun q => 4096 - (queued s q).length) (s.quadsIn.filter fun q => q / 34 == d && q != quad && decide (2 ≤ (queued s q).length))
  .next (if !s.quadsIn.contains quad || !(s.quad quad).queue.isEmpty || !slot || decide (s.ceiling ≤ s.reading quad) ||
      s.pkg.steals.any fun x => x.2.thief == quad then s
    else match (stealOrder s (quad / 34)).findSome? fullest with
      | none => s
      | some v => match (placeable s v).find? fun r => stealable s quad v r with
        | none => s
        | some r =>
          let (id, s1) := s.fresh
          let s2 := s1.onEntry v r.id fun x => { x with st := .lent }
          s2.setPkg { s2.pkg with steals := upd s2.pkg.steals id (some { item := r, victim := v, thief := quad, start := dieCycle (v / 34) s.now }) })
/-- Change a steal in progress. -/
def State.setSteal (s : State) (id : Nat) (x : Option Steal) : State := s.setPkg { s.pkg with steals := upd s.pkg.steals id x }
/-- The copy reaches the thief, which holds it pending and sends ACK (13 R324). -/
def execStealCopyArrive (steal : Nat) (s : State) : Answer :=
  .next (match look s.pkg.steals steal with
  | none => s
  | some x =>
    if x.stage ≠ 0 ∨ 2048 ≤ (s.quad x.thief).queue.length then s
    else
      let r : QRec := { x.item with id := steal, st := .pending }
      (s.putEntry x.thief r).setSteal steal (some { x with stage := 1 }))
/-- The victim's timer has reached its limit. -/
def Steal.late (x : Steal) (s : State) : Bool := decide (x.start + 2 ^ bits s.win.stealctl.toNat 0 5 ≤ dieCycle (x.victim / 34) s.now)
/-- The lent entry is queued again, its age unchanged (13 R324); one that a hard fault has destroyed is lost (13 R330; log 73, DESIGN
CHOICE). -/
def State.stealBack (s : State) (steal : Nat) (x : Steal) : State :=
  let s1 := if (s.quad x.victim).queue.any fun r => r.id == x.item.id then s.onEntry x.victim x.item.id fun r => { r with st := .queued }
    else s.loseRecord x.item
  s1.setSteal steal (some { x with timedOut := true })
/-- The ACK reaches the victim: it frees the entry and confirms, or, after the timeout, refuses (13 R324). -/
def execStealAckArrive (steal : Nat) (s : State) : Answer :=
  .next (match look s.pkg.steals steal with
  | none => s
  | some x =>
    if x.stage ≠ 1 then s
    else if x.timedOut then s.setSteal steal (some { x with stage := 3 })
    else if x.late s then (s.stealBack steal x).setSteal steal (some { x with stage := 3, timedOut := true })
    else (s.dequeue x.victim [x.item.id]).setSteal steal (some { x with stage := 2 }))
/-- The timer of a lent entry expires (13 R324). -/
def execStealHandoffTimeout (steal : Nat) (s : State) : Answer :=
  .next (match look s.pkg.steals steal with
  | none => s
  | some x => if 2 ≤ x.stage ∨ x.timedOut ∨ !x.late s then s else s.stealBack steal x)
/-- CONFIRM reaches the thief, whose copy is now the record and enters its queue (13 R323, 19 R425); a thief that has lost it held the only
copy (13 R324; log 72, DEDUCED). -/
def execStealConfirmArrive (steal : Nat) (s : State) : Answer :=
  .next (match look s.pkg.steals steal with
  | none => s
  | some x =>
    if x.stage ≠ 2 then s
    else if (s.quad x.thief).queue.any fun r => r.id == steal then
      (s.onEntry x.thief steal fun r => { r with st := .queued, entered := dieCycle (x.thief / 34) s.now }).setSteal steal none
    else (s.setSteal steal none).loseRecord x.item)
/-- REFUSE reaches the thief (13 R324). -/
def execStealRefuseArrive (steal : Nat) (s : State) : Answer :=
  .next (match look s.pkg.steals steal with
  | none => s
  | some x => if x.stage ≠ 3 then s else (s.dequeue x.thief [steal]).setSteal steal none)

/-- A decrement reaches its counter's slice from a die (13 R325, R326, R335; log 47, DEDUCED); a link on its way that is down counts as an
error there (02 R49; log 107, DEDUCED). What it names as next is read from die 0 (log 119, DESIGN CHOICE). -/
def State.decrement (s : State) (succ w d ctx gen : Nat) (graph : Bool) (die : Nat) : State :=
  let obj := succ / 2 ^ 40
  let give (s : State) (broken : Bool) : State := s.domainReturned d ctx w broken
  let unpin (s : State) : State := if graph then s.unpin ctx obj gen else s
  match checkCounter s 0 ctx succ (if graph then some gen else none) with
  | .error f => unpin ((give s true).appendFault (ctx % 64) f.cause (strandlessRecord s f.cause f.qual ctx succ 0 0) true)
  | .ok l =>
    let ks := memKeys l.bytes
    let word (o n : Nat) : Nat := leNat (((ks.drop o).take n).map (readByte s.mem))
    if ks.any (s.readFails die) then unpin (give s true)
    else if word 0 4 = 0 then unpin (give s true)
    else
      let put (s : State) (v : Nat) : State := s.setMem (writeBytes s.mem (ks.take 4) (leBytes 4 v))
      let count := word 0 4 - 1
      let init := word 4 4
      let next := word 8 8
      if count ≠ 0 then unpin (give (put s count) false)
      else
        let s1 := put s (if init = 0 then 0 else init)
        if next = 0 then unpin (give s1 false)
        else match translateAt (recordDepth s1 ctx) s1 0 ctx next 64 .read false (if graph then some gen else none) with
          | .error f => unpin (s1.reject { weight := w, domain := d, ctx } 2 next f.cause f.qual)
          | .ok m =>
            let c := s1.readCause 0 (memKeys m.bytes)
            let r := parseTask (m.bytes.map (Src.read s1.mem))
            let r' := { r with weight := w, domain := d, ctx, gen := if r.graph && graph then gen else r.gen }
            if c ≠ 0 then unpin (s1.reject { weight := w, domain := d, ctx } 2 next c 0)
            else
              let keep := graph && r'.graph && r'.graphObj == obj
              let s2 := s1.submit { task := r', origin := 2, addr := next, pinned := keep }
              if keep then s2 else unpin s2
def execSuccessorDecrement (msg : Nat) (s : State) : Answer :=
  .next (match look s.pkg.msgs msg with
  | some (.dec succ w d ctx gen graph die) => (s.received msg).decrement succ w d ctx gen graph die
  | _ => s)
/-- Weight reaches its Beacon (13 R328): a WAITQ whose domain is quiet can issue again (`blocked`). -/
def execDomainReturn (msg : Nat) (s : State) : Answer :=
  .next (match look s.pkg.msgs msg with
  | some (.ret d w) => (s.received msg).domainReturned d (bits (domainNat s d 24 4) 4 6) w false
  | _ => s)

/-- The gangs of a launch that have not been issued are lost (13 R330). -/
def State.loseLaunch (s : State) (launch : Nat) (l : Launch) : State :=
  let s1 := s.lose l.task.domain l.task.ctx l.unissued l.addr
  let s2 := match l.pin with | some (o, g) => s1.unpin l.task.ctx o g | none => s1
  let l' := { l with n := l.next, pin := none }
  if l.ended = l.next then (s2.setPkg { s2.pkg with launches := upd s2.pkg.launches launch (some { l' with n := l.ended + 1 }) }).launchEnded launch
  else s2.setPkg { s2.pkg with launches := upd s2.pkg.launches launch (some l') }
/-- A hard fault destroys, by its number, a record of a quad's queue, a gang on the quad, a record held for overflow, or the rest of a
launch in expansion (13 R328, R330); of a record in a handoff the other copy decides (13 R324; log 73, DESIGN CHOICE). -/
def execHardFault (quad item : Nat) (s : State) : Answer :=
  .next (match (s.quad quad).queue.find? (·.id == item) with
  | some r =>
    let s1 := s.dequeue quad [item]
    if r.st == .queued then s1.loseRecord r else s1
  | none => match s.gang item, s.pkg.overflow.find? (·.id == item), look s.pkg.launches item with
    | some g, _, _ => if g.resident && quadOf g.core == quad then s.destroyGang item else s
    | none, some r, _ => (s.setPkg { s.pkg with overflow := s.pkg.overflow.erase r }).loseRecord r
    | none, none, some l => if l.next < l.n then s.loseLaunch item l else s
    | none, none, none => s)
/-- An arrival made in another package at a POD slot (13 R338, R339; log 7, DESIGN CHOICE). -/
def execPodBarrierArrival (ctx slot expected : Nat) (s : State) : Answer :=
  let used := match s.ctx ctx with | some c => decide (slot < 16) && c.podmap.getLsbD slot | none => false
  let k := barKey 5 0 slot
  .next (if !s.wilmo || !used then s else match (s.bar k).arrive 5 expected with
    | .ok b => s.setBar k b
    | .error _ => s)

end Sys2Proof.Machine
end

