-- ==== Sys2Proof/Machine/HintWords.lean ====
section
/-!
DEFINITION. Sys2Proof/Machine/HintWords.lean: the hint words (06 R139 to R142). A second hint of a kind in one chain raises
0x03.
-/

namespace Sys2Proof.Machine

/-- HINT_WIDE (06 R140). -/
def execHintWide (w : BitVec 21) (s : State) : Answer :=
  issueHint (.hintWide w) s (·.wide.isSome) fun h => (addHint h (.hintWide w)).getD h
/-- HINT_MOD (06 R140). -/
def execHintMod (e : BitVec 1) (c : BitVec 2) (n m a v r : BitVec 1) (q : BitVec 2) (s : State) : Answer :=
  issueHint (.hintMod e c n m a v r q) s (·.mod.isSome) fun h => (addHint h (.hintMod e c n m a v r q)).getD h
/-- HINT_THIRD (06 R140). -/
def execHintThird (t : BitVec 7) (s : State) : Answer :=
  issueHint (.hintThird t) s (·.third.isSome) fun h => (addHint h (.hintThird t)).getD h
/-- HINT_GUARD (06 R141). -/
def execHintGuard (n : BitVec 1) (p : BitVec 3) (s : State) : Answer :=
  issueHint (.hintGuard n p) s (·.guard.isSome) fun h => (addHint h (.hintGuard n p)).getD h
/-- HINT_RTAG (06 R140). -/
def execHintRtag (r : BitVec 8) (s : State) : Answer :=
  issueHint (.hintRtag r) s (·.rtag.isSome) fun h => (addHint h (.hintRtag r)).getD h
/-- HINT_TTAG (06 R140). -/
def execHintTtag (t : BitVec 16) (s : State) : Answer :=
  issueHint (.hintTtag t) s (·.ttag.isSome) fun h => (addHint h (.hintTtag t)).getD h
/-- HINT_CREDIT (06 R140). -/
def execHintCredit (c : BitVec 5) (s : State) : Answer :=
  issueHint (.hintCredit c) s (·.credit.isSome) fun h => (addHint h (.hintCredit c)).getD h

end Sys2Proof.Machine
end

