-- ==== Sys2Proof/Machine/IntAlu.lean ====
section
/-!
DEFINITION. Sys2Proof/Machine/IntAlu.lean: integer, address, shift, bit and selection instructions (08 R183 to R188).
-/

namespace Sys2Proof.Machine

/-- An n-bit integer result: wrapped, or saturated under SAT (08 R185). -/
def intResult (sat : Bool) (n : Nat) (i : Int) : Nat := unsigned n (if sat then clampSigned n i else i)
/-- a shifted left by c in n bits (08 R183). -/
def shiftLeft (n a c : Nat) : Nat := if n ≤ c then 0 else a * 2 ^ c % 2 ^ n
/-- a shifted right with zero fill (08 R183). -/
def shiftRight (n a c : Nat) : Nat := if n ≤ c then 0 else a / 2 ^ c
/-- a shifted right with sign fill (08 R183). -/
def shiftArith (n a c : Nat) : Nat := unsigned n (signed n a / ((2 ^ min c (n - 1) : Nat) : Int))
/-- The leading zero bits of 32. -/
def leadingZeros (a : Nat) : Nat := if a = 0 then 32 else 31 - Nat.log2 a
/-- The one bits of n. -/
def popCount (n a : Nat) : Nat := ((List.range n).filter fun i => bits a i 1 == 1).length
/-- The 32 bits of a in reverse. -/
def reverseBits (a : Nat) : Nat := (List.range 32).foldl (fun r i => r + bits a i 1 * 2 ^ (31 - i)) 0
/-- The magnitude of int32 a, the most negative value apart (08 R183). -/
def absInt (sat : Bool) (a : Nat) : Nat := intResult sat 32 ((signed 32 a).natAbs : Nat)
/-- Bit-field extract under control word b (08 R184). -/
def bitExtract (a b : Nat) : Nat :=
  let pc := min (bits b 0 8) 32
  let wd := min (bits b 8 8) (32 - pc)
  let f := bits a pc wd
  if wd = 0 then 0 else if bits b 16 1 = 1 then unsigned 32 (signed wd f) else f
/-- Bit-field insert of a into base under control word b (08 R184). -/
def bitInsert (base a b : Nat) : Nat :=
  let pc := min (bits b 0 8) 32
  let wd := min (bits b 8 8) (32 - pc)
  let m := (2 ^ wd - 1) * 2 ^ pc % 2 ^ 32
  Nat.lor (Nat.land base (2 ^ 32 - 1 - m)) (Nat.land (a * 2 ^ pc % 2 ^ 32) m)
/-- The condition of ICMP on n-bit operands (08 R187). -/
def intCompare (c : BitVec 3) (n a b : Nat) : Bool :=
  let x := signed n a
  let y := signed n b
  if c == 0 then decide (a = b) else if c == 1 then decide (a ≠ b) else if c == 2 then decide (x < y)
  else if c == 3 then decide (x ≤ y) else if c == 4 then decide (y < x) else if c == 5 then decide (y ≤ x)
  else if c == 6 then decide (a < b) else decide (a ≤ b)

/-- IADD (08 R183, R185). -/
def execIadd (z : BitVec 1) (d a b : BitVec 7) (x : BitVec 1) (s : State) : Answer :=
  issue (.iadd z d a b x) s fun e => e.two x d a b e.w e.w e.w fun p q => intResult e.h.sat e.n (signed e.n p + signed e.n q)
/-- ISUB (08 R183, R185). -/
def execIsub (z : BitVec 1) (d a b : BitVec 7) (x : BitVec 1) (s : State) : Answer :=
  issue (.isub z d a b x) s fun e => e.two x d a b e.w e.w e.w fun p q => intResult e.h.sat e.n (signed e.n p - signed e.n q)
/-- IMUL (08 R183). -/
def execImul (z : BitVec 1) (d a b : BitVec 7) (x : BitVec 1) (s : State) : Answer :=
  issue (.imul z d a b x) s fun e => e.two x d a b e.w e.w e.w fun p q => p * q
/-- IMULH (08 R183). -/
def execImulh (z : BitVec 1) (d a b : BitVec 7) (x : BitVec 1) (s : State) : Answer :=
  issue (.imulh z d a b x) s fun e => e.two x d a b 1 1 1 fun p q => unsigned 64 (signed 32 p * signed 32 q) / 2 ^ 32
/-- IMAD (08 R183, R185). -/
def execImad (z : BitVec 1) (d a b : BitVec 7) (x : BitVec 1) (s : State) : Answer :=
  issue (.imad z d a b x) s fun e s => e.next (e.put x d 1 (fun t =>
    intResult e.h.sat 32 (signed 32 (e.get x a 1 t) * signed 32 (e.get x b 1 t) + signed 32 (e.get x (e.third d) 1 t))) s)
/-- MIN (08 R183). -/
def execMin (z : BitVec 1) (d a b : BitVec 7) (x : BitVec 1) (s : State) : Answer :=
  issue (.min z d a b x) s fun e => e.two x d a b e.w e.w e.w fun p q => if signed e.n p ≤ signed e.n q then p else q
/-- MAX (08 R183). -/
def execMax (z : BitVec 1) (d a b : BitVec 7) (x : BitVec 1) (s : State) : Answer :=
  issue (.max z d a b x) s fun e => e.two x d a b e.w e.w e.w fun p q => if signed e.n p ≤ signed e.n q then q else p
/-- LEA (08 R183). -/
def execLea (z : BitVec 1) (d a b : BitVec 7) (x : BitVec 1) (s : State) : Answer :=
  issue (.lea z d a b x) s fun e => e.two x d a b 2 2 1 fun p q => p + q
/-- SHL (08 R183). -/
def execShl (z : BitVec 1) (d a b : BitVec 7) (x : BitVec 1) (s : State) : Answer :=
  issue (.shl z d a b x) s fun e => e.two x d a b e.w e.w 1 fun p q => shiftLeft e.n p (q % 256)
/-- SHR (08 R183). -/
def execShr (z : BitVec 1) (d a b : BitVec 7) (x : BitVec 1) (s : State) : Answer :=
  issue (.shr z d a b x) s fun e => e.two x d a b e.w e.w 1 fun p q => shiftRight e.n p (q % 256)
/-- SAR (08 R183). -/
def execSar (z : BitVec 1) (d a b : BitVec 7) (x : BitVec 1) (s : State) : Answer :=
  issue (.sar z d a b x) s fun e => e.two x d a b e.w e.w 1 fun p q => shiftArith e.n p (q % 256)
/-- AND (08 R183). -/
def execAnd (z : BitVec 1) (d a b : BitVec 7) (x : BitVec 1) (s : State) : Answer :=
  issue (.and z d a b x) s fun e => e.two x d a b e.w e.w e.w Nat.land
/-- OR (08 R183). -/
def execOr (z : BitVec 1) (d a b : BitVec 7) (x : BitVec 1) (s : State) : Answer :=
  issue (.or z d a b x) s fun e => e.two x d a b e.w e.w e.w Nat.lor
/-- XOR (08 R183). -/
def execXor (z : BitVec 1) (d a b : BitVec 7) (x : BitVec 1) (s : State) : Answer :=
  issue (.xor z d a b x) s fun e => e.two x d a b e.w e.w e.w Nat.xor
/-- ANDN (08 R183). -/
def execAndn (z : BitVec 1) (d a b : BitVec 7) (x : BitVec 1) (s : State) : Answer :=
  issue (.andn z d a b x) s fun e => e.two x d a b e.w e.w e.w fun p q => Nat.land p (2 ^ e.n - 1 - q)
/-- IABS (08 R183). -/
def execIabs (z : BitVec 1) (d a : BitVec 7) (x : BitVec 1) (s : State) : Answer :=
  issue (.iabs z d a x) s fun e => e.one x d a 1 1 (absInt e.h.sat)
/-- CLZ (08 R183). -/
def execClz (z : BitVec 1) (d a : BitVec 7) (x : BitVec 1) (s : State) : Answer :=
  issue (.clz z d a x) s fun e => e.one x d a 1 1 leadingZeros
/-- POPC (08 R183). -/
def execPopc (z : BitVec 1) (d a : BitVec 7) (x : BitVec 1) (s : State) : Answer :=
  issue (.popc z d a x) s fun e => e.one x d a 1 1 (popCount 32)
/-- BREV (08 R183). -/
def execBrev (z : BitVec 1) (d a : BitVec 7) (x : BitVec 1) (s : State) : Answer :=
  issue (.brev z d a x) s fun e => e.one x d a 1 1 reverseBits
/-- MOV (08 R183). -/
def execMov (z : BitVec 1) (d a : BitVec 7) (x : BitVec 1) (s : State) : Answer :=
  issue (.mov z d a x) s fun e => e.one x d a e.w e.w fun p => p
/-- BFX (08 R184). -/
def execBfx (z : BitVec 1) (d a b : BitVec 7) (x : BitVec 1) (s : State) : Answer :=
  issue (.bfx z d a b x) s fun e => e.two x d a b 1 1 1 bitExtract
/-- BFI (08 R184). -/
def execBfi (z : BitVec 1) (d a b : BitVec 7) (x : BitVec 1) (s : State) : Answer :=
  issue (.bfi z d a b x) s fun e s => e.next (e.put x d 1 (fun t =>
    bitInsert (e.get x (e.third d) 1 t) (e.get x a 1 t) (e.get x b 1 t)) s)
/-- ICMP (08 R187). -/
def execIcmp (z : BitVec 1) (c : BitVec 3) (d a b : BitVec 7) (x : BitVec 1) (s : State) : Answer :=
  issue (.icmp z c d a b x) s fun e s =>
    let f (t : Nat) : Bool := intCompare c e.n (e.get x a e.w t) (e.get x b e.w t)
    e.next (e.putPred d.toNat (maskWhere f) s)
/-- SEL (08 R188): the uniform form takes the predicate of the lowest active thread. -/
def execSel (z : BitVec 1) (p : BitVec 3) (d a b : BitVec 7) (x : BitVec 1) (s : State) : Answer :=
  issue (.sel z p d a b x) s fun e s => e.next (e.put x d e.w (fun t =>
    if e.st.pred p.toNat t then e.get x a e.w t else e.get x b e.w t) s)

/-- The I-format operations on a register (08 R186). -/
def Env.immediate (e : Env) (x : BitVec 1) (d a : BitVec 7) (i : BitVec 8) (f : Nat → Nat → Nat) (s : State) : State :=
  e.one x d a e.w e.w (fun p => f p (unsigned e.n (e.imm i))) s
/-- The I-format shifts: the count is v read as unsigned 32-bit (08 R186). -/
def Env.shiftImm (e : Env) (x : BitVec 1) (d a : BitVec 7) (i : BitVec 8) (f : Nat → Nat → Nat → Nat) (s : State) : State :=
  e.one x d a e.w e.w (fun p => f e.n p (unsigned 32 (e.imm i))) s

/-- MOVI (08 R186). -/
def execMovi (z : BitVec 1) (d : BitVec 7) (i : BitVec 8) (s : State) : Answer :=
  issue (.movi z d i) s fun e s => e.next (e.put 0 d e.w (fun _ => unsigned e.n (e.imm i)) s)
/-- IADD with an immediate (08 R186). -/
def execIaddI (z : BitVec 1) (d a : BitVec 7) (i : BitVec 8) (s : State) : Answer :=
  issue (.iaddI z d a i) s fun e => e.immediate 0 d a i (· + ·)
/-- SHL by an immediate (08 R186). -/
def execShlI (z : BitVec 1) (d a : BitVec 7) (i : BitVec 8) (s : State) : Answer :=
  issue (.shlI z d a i) s fun e => e.shiftImm 0 d a i shiftLeft
/-- SHR by an immediate (08 R186). -/
def execShrI (z : BitVec 1) (d a : BitVec 7) (i : BitVec 8) (s : State) : Answer :=
  issue (.shrI z d a i) s fun e => e.shiftImm 0 d a i shiftRight
/-- SAR by an immediate (08 R186). -/
def execSarI (z : BitVec 1) (d a : BitVec 7) (i : BitVec 8) (s : State) : Answer :=
  issue (.sarI z d a i) s fun e => e.shiftImm 0 d a i shiftArith
/-- AND with an immediate (08 R186). -/
def execAndI (z : BitVec 1) (d a : BitVec 7) (i : BitVec 8) (s : State) : Answer :=
  issue (.andI z d a i) s fun e => e.immediate 0 d a i Nat.land
/-- OR with an immediate (08 R186). -/
def execOrI (z : BitVec 1) (d a : BitVec 7) (i : BitVec 8) (s : State) : Answer :=
  issue (.orI z d a i) s fun e => e.immediate 0 d a i Nat.lor
/-- XOR with an immediate (08 R186). -/
def execXorI (z : BitVec 1) (d a : BitVec 7) (i : BitVec 8) (s : State) : Answer :=
  issue (.xorI z d a i) s fun e => e.immediate 0 d a i Nat.xor
/-- MOVI of a uniform register (08 R186). -/
def execMoviU (z : BitVec 1) (d : BitVec 7) (i : BitVec 8) (s : State) : Answer :=
  issue (.moviU z d i) s fun e s => e.next (e.put 1 d e.w (fun _ => unsigned e.n (e.imm i)) s)
/-- IADD of a uniform register with an immediate (08 R186). -/
def execIaddIu (z : BitVec 1) (d a : BitVec 7) (i : BitVec 8) (s : State) : Answer :=
  issue (.iaddIu z d a i) s fun e => e.immediate 1 d a i (· + ·)
/-- SHL of a uniform register by an immediate (08 R186). -/
def execShlIu (z : BitVec 1) (d a : BitVec 7) (i : BitVec 8) (s : State) : Answer :=
  issue (.shlIu z d a i) s fun e => e.shiftImm 1 d a i shiftLeft
/-- SHR of a uniform register by an immediate (08 R186). -/
def execShrIu (z : BitVec 1) (d a : BitVec 7) (i : BitVec 8) (s : State) : Answer :=
  issue (.shrIu z d a i) s fun e => e.shiftImm 1 d a i shiftRight
/-- SAR of a uniform register by an immediate (08 R186). -/
def execSarIu (z : BitVec 1) (d a : BitVec 7) (i : BitVec 8) (s : State) : Answer :=
  issue (.sarIu z d a i) s fun e => e.shiftImm 1 d a i shiftArith
/-- AND of a uniform register with an immediate (08 R186). -/
def execAndIu (z : BitVec 1) (d a : BitVec 7) (i : BitVec 8) (s : State) : Answer :=
  issue (.andIu z d a i) s fun e => e.immediate 1 d a i Nat.land
/-- OR of a uniform register with an immediate (08 R186). -/
def execOrIu (z : BitVec 1) (d a : BitVec 7) (i : BitVec 8) (s : State) : Answer :=
  issue (.orIu z d a i) s fun e => e.immediate 1 d a i Nat.lor
/-- XOR of a uniform register with an immediate (08 R186). -/
def execXorIu (z : BitVec 1) (d a : BitVec 7) (i : BitVec 8) (s : State) : Answer :=
  issue (.xorIu z d a i) s fun e => e.immediate 1 d a i Nat.xor

end Sys2Proof.Machine
end

