-- ==== Sys2Proof/Machine/Merges.lean ====
section
/-!
DEFINITION. Sys2Proof/Machine/Merges.lean: SJN and the merge of recovered results into their sources (09 R230, R234, R238).
-/

namespace Sys2Proof.Machine

/-- A sampled difference: not a number, infinite, or a ratio (09 R234). -/
inductive Diff where
  | nan
  | inf
  | ratio (num den : Nat) (e : Int)
  deriving DecidableEq, Repr
/-- |y - x|, over |x| when relative (09 R234). -/
def diffOf (rel : Bool) (y x : FV) : Diff :=
  match (FV.add 0 y x.neg).1 with
  | .nan _ => .nan
  | .inf _ => if !rel then .inf else if x.isFinite then .inf else .nan
  | .fin _ m e =>
    if !rel then .ratio m 1 e
    else match x with
      | .fin _ k f => if k = 0 then (if m = 0 then .ratio 0 1 0 else .inf) else .ratio m k (e - f)
      | _ => .nan
/-- The larger of two differences, NaN above everything. -/
def Diff.max (a b : Diff) : Diff :=
  match a, b with
  | .nan, _ | _, .nan => .nan
  | .inf, _ | _, .inf => .inf
  | .ratio n d e, .ratio k f g =>
    let lo := min e g
    if n * 2 ^ (e - lo).toNat * f < k * 2 ^ (g - lo).toNat * d then b else a
/-- The difference rounded once to FP32 (09 R234). -/
def Diff.round : Diff → Nat
  | .nan => fp32.qnan
  | .inf => fp32.infEnc
  | .ratio n d e => (fp32.round 0 false (quotient false n d e)).1
/-- The sampled error of a thread (09 R234). -/
def sampleError (rel : Bool) (ys es : List Word) : Nat :=
  ((ys.zip es).foldl (fun (m : Diff) p => m.max (diffOf rel (fp32.value p.1.toNat) (fp32.value p.2.toNat))) (Diff.ratio 0 1 0)).round
/-- A source that recovered results reach: the live threads, and the way its registers are written: in the image of a strand that stands in
the save slot (14 R353, R354), else in the slot. -/
def RecEntry.stored (s : State) (en : RecEntry) : Option (Gang × Nat) := if en.handler then none else s.imageHome en.source
def RecEntry.live (s : State) (en : RecEntry) : Mask := match en.stored s, s.strand en.source with
  | some (g, n), some st => (st.fromImage (s.slotRead g (imageOff n) 16384)).live
  | _, some st => if en.handler && st.mode != .handler then 0 else st.live
  | _, none => 0
def RecEntry.give (s : State) (en : RecEntry) (vs : List Word) : State := match en.stored s with
  | some (g, n) => (en.resRegs.zip vs).foldl (fun (s : State) p =>
      s.slotWrite g (imageOff n + 2048 + 4 * (p.1 * 32 + en.srcThread)) (leBytes 4 p.2.toNat)) s
  | none => s.onStrand en.source fun src => (en.resRegs.zip vs).foldl (fun src p => src.setV p.1 en.srcThread p.2) src
/-- Merge recovery thread n into its source (09 R234); a source thread that no longer lives receives nothing (09 R238). -/
def mergeOne (k : Nat) (s : State) (n : Nat) (en : RecEntry) : State :=
  match s.strand k with
  | some st =>
    if !has (en.live s) en.srcThread || en.done then s.release en
    else
      let exact := en.resRegs.map fun c => st.vreg c n
      if !en.sample then (en.give s exact).release en
      else
        let q := s.liveq en.ctx en.region
        let err := sampleError q.rel en.ys exact
        let v := fp32.value err
        let viol := v.isNan || (fp32.value q.bound).isNan || (fp32.value q.bound).lt v
        let (g, ovf, nf) := toGrid 0 (v.mul v).1 (-64) 126
        let s1 := s.sendUpdate { ctx := en.ctx, region := en.region, strand := en.source, viol := if viol then 1 else 0
                                 err := some (BitVec.ofNat 32 err), sq := BitVec.ofNat 128 (gridWord g ovf nf) }
        (if viol then en.give s1 exact else s1).release en
  | none => s
/-- SJN (09 R230, R234): a recovery strand drains, merges its active threads in ascending order, releases the rest and ends. -/
def execSjn (z : BitVec 1) (s : State) : Answer :=
  issue (.sjn z) s fun e s => match e.st.recov with
    | none => e.next s
    | some es =>
      let s1 := (es.mapIdx fun n en => (n, en)).foldl (fun s x => if has e.act x.1 then mergeOne e.k s x.1 x.2 else s.release x.2) s
      let s2 := e.finish (some (e.pc + 4)) true s1
      let gone (p : Path) : Path := { p with act := 0, stack := [], ended := true, reissue := none }
      (s2.onStrand e.k fun st =>
        { (st.remove 0xFFFFFFFF) with recov := some [], mode := .exiting, path0 := gone st.path0, path1 := gone st.path1 }).sealEnding e.k

end Sys2Proof.Machine
end

