-- ==== Sys2Proof/Machine/System.lean ====
section
/-!
DEFINITION. Sys2Proof/Machine/System.lean: SRD and SWR (05 R101, R102; 14 R361, R362), TRAP (14 R359), BKPT (15 R375), and RSM, KILL
and HX, which end a handler (14 R355 to R358).
-/

namespace Sys2Proof.Machine

/-- The high half of an energy counter as SRD reads it (05 R101). -/
def Counter.high (c : Counter) : Nat := bits c.count 32 16 + bit c.sat * 2 ^ 31
/-- The package sum of a context, in its context record (14 R351, R368). -/
def State.psum (s : State) (ctx : Nat) : Counter :=
  let v := s.onyxNat 0 (s.win.ctxoff.toNat + 256 * ctx + 80) 8
  { count := bits v 0 48, sat := bits v 63 1 == 1 }
/-- The high code whose half an SRD of a low code latches (05 R102). -/
def highOf (code : Nat) : Option Nat :=
  if code = 0x10 ∨ code = 0x12 ∨ code = 0x14 ∨ code = 0x20 ∨ code = 0x22 then some (code + 1) else none
/-- The entries of a recovery strand, or of the one whose handler runs in its slot (14 R354). -/
def Env.entries (e : Env) : Option (List RecEntry) :=
  if e.st.mode == .handler then match look e.g.saved (imageNo e.k e.st.index) with | some sv => sv.recov | none => none else e.st.recov

/-- A special register as thread t reads it, apart from held high halves (05 R101). -/
def Env.special (e : Env) (s : State) (code t : Nat) : Nat :=
  let src (f : RecEntry → Nat) : Nat := match e.entries with
    | some es => (match es[t]? with | some en => f en | none => 0xFFFFFFFF)
    | none => 0xFFFFFFFF
  let eng := rd {} (s.core e.core).energy e.ctx
  let r := e.st.rsel.toNat
  if code = 0x00 then t
  else if code = 0x01 then e.st.index
  else if code = 0x02 then e.g.index
  else if code = 0x03 then e.st.lane
  else if code = 0x04 then coreIn e.core
  else if code = 0x05 then coreQuad e.core
  else if code = 0x06 then e.die
  else if code = 0x07 then s.pkgId
  else if code = 0x08 then e.st.role
  else if code = 0x09 then s.caps % 2 ^ 32
  else if code = 0x0A then s.caps / 2 ^ 32
  else if code = 0x0B then e.g.task.tc0 + e.g.task.tc1 * 2 ^ 16
  else if code = 0x0C then e.g.task.tc2 + e.g.task.tc3 * 2 ^ 16
  else if code = 0x0D then slotOf e.k
  else if code = 0x0E then src (·.srcSlot)
  else if code = 0x0F then src (·.srcThread)
  else if code = 0x10 then dieCycle e.die s.now % 2 ^ 32
  else if code = 0x11 then bits (dieCycle e.die s.now) 32 32
  else if code = 0x12 then eng.count % 2 ^ 32
  else if code = 0x13 then eng.high
  else if code = 0x14 then (s.psum e.ctx).count % 2 ^ 32
  else if code = 0x15 then (s.psum e.ctx).high
  else if code = 0x18 then e.p.nfr.toNat
  else if code = 0x1F then r
  else if code = 0x20 then s.regionNat e.ctx r 16 4
  else if code = 0x21 then s.regionNat e.ctx r 20 2
  else if code = 0x22 then s.regionNat e.ctx r 24 4
  else if code = 0x23 then s.regionNat e.ctx r 28 2
  else if code = 0x24 then s.regionNat e.ctx r 32 4
  else if code = 0x25 then s.regionNat e.ctx r 22 2
  else s.regionNat e.ctx r 36 4
/-- One reading of a special register: a low code latches its high half, a high code takes what is held (05 R102); the reading
excludes the charge of the SRD itself (14 R361). A region record that cannot be read raises 0xB2 (01 R22; log 106, DESIGN CHOICE). -/
def Env.readSpecial (e : Env) (x : BitVec 1) (d : BitVec 7) (code : Nat) (s : State) : State :=
  let held := look e.st.latch code
  let value (t : Nat) : Nat := match held with | some w => w.toNat | none => e.special s code t
  let s1 := if x == 0 && decide (e.act = 0) then s else s.onStrand e.k fun st => { st with
    latch := match highOf code with
      | some h => upd st.latch h (some (BitVec.ofNat 32 (e.special s h 0)))
      | none => upd st.latch code none }
  if decide (0x20 ≤ code) && held.isNone && decide (x = 1 ∨ e.act ≠ 0) && s.regionFails e.die e.ctx e.st.rsel.toNat then e.raise (s.charge e.core e.ctx 2 1) 0xB2
  else e.next ((e.put x d 1 value s1).charge e.core e.ctx 2 1)
/-- SRD (14 R361). -/
def execSrd (z : BitVec 1) (d : BitVec 7) (i : BitVec 8) (s : State) : Answer :=
  issue (.srd z d i) s fun e => e.readSpecial 0 d i.toNat
/-- SRD.u (14 R361). -/
def execSrdU (z : BitVec 1) (d : BitVec 7) (i : BitVec 8) (s : State) : Answer :=
  issue (.srdU z d i) s fun e => e.readSpecial 1 d i.toNat
/-- SWR (14 R362): NFR or RSEL. -/
def execSwr (z : BitVec 1) (a : BitVec 7) (i : BitVec 8) (s : State) : Answer :=
  issue (.swr z a i) s fun e s =>
    let w := e.st.sreg a.toNat
    e.next (if i.toNat = 0x18 then s.onPath e.k e.pi fun p => { p with nfr := swrNfr p.nfr w }
      else s.onStrand e.k fun st => { st with rsel := w.setWidth 8 })
/-- TRAP (14 R359). -/
def execTrap (z : BitVec 1) (i : BitVec 16) (s : State) : Answer :=
  issue (.trap z i) s fun e s => e.nextFault s 0xBF 0 e.act 0 i.toNat
/-- BKPT (15 R375). -/
def execBkpt (z : BitVec 1) (s : State) : Answer :=
  issue (.bkpt z) s fun e s =>
    if bits (s.core e.core).dbgctl.toNat 0 1 = 1 then e.raise s 0xB0 else e.finish none true s

/-- What RSM and KILL share (14 R356, R357): an image that fails a check is the handler's fault 0x10 (log 48, DEDUCED). -/
def Env.endHandler (e : Env) (rx : Bool) (kill : Option Bool) (s : State) : State :=
  let n := imageNo e.k e.st.index
  match imgCheck (s.slotRead e.g (imageOff n) 16384) ((look e.g.saved n).getD {}) with
  | some c => e.raise s 0x10 0 0 (c * 256)
  | none => (e.finish none true s).resume e.k rx kill
/-- RSM (14 R356). -/
def execRsm (z r : BitVec 1) (s : State) : Answer := issue (.rsm z r) s fun e => e.endHandler (r == 1) none
/-- KILL (14 R357). -/
def execKill (z a : BitVec 1) (s : State) : Answer := issue (.kill z a) s fun e => e.endHandler false (some (a == 1))
/-- HX (14 R358). -/
def execHx (z : BitVec 1) (s : State) : Answer :=
  issue (.hx z) s fun e s => (e.finish none true s).toHost e.k

end Sys2Proof.Machine
end

