-- ==== Sys2Proof/Machine/Dispatch.lean ====
section
/-!
DEFINITION. Sys2Proof/Machine/Dispatch.lean: one arm per instruction, hint word and step of the machine.
-/

namespace Sys2Proof.Machine

def exec (i : Instr) (s : State) : Host.Outcome State Fault Refusal :=
  match i with
  | .iadd z d a b x => Sys2Proof.Machine.execIadd z d a b x s
  | .isub z d a b x => Sys2Proof.Machine.execIsub z d a b x s
  | .imul z d a b x => Sys2Proof.Machine.execImul z d a b x s
  | .imulh z d a b x => Sys2Proof.Machine.execImulh z d a b x s
  | .imad z d a b x => Sys2Proof.Machine.execImad z d a b x s
  | .min z d a b x => Sys2Proof.Machine.execMin z d a b x s
  | .max z d a b x => Sys2Proof.Machine.execMax z d a b x s
  | .lea z d a b x => Sys2Proof.Machine.execLea z d a b x s
  | .shl z d a b x => Sys2Proof.Machine.execShl z d a b x s
  | .shr z d a b x => Sys2Proof.Machine.execShr z d a b x s
  | .sar z d a b x => Sys2Proof.Machine.execSar z d a b x s
  | .and z d a b x => Sys2Proof.Machine.execAnd z d a b x s
  | .or z d a b x => Sys2Proof.Machine.execOr z d a b x s
  | .xor z d a b x => Sys2Proof.Machine.execXor z d a b x s
  | .andn z d a b x => Sys2Proof.Machine.execAndn z d a b x s
  | .iabs z d a x => Sys2Proof.Machine.execIabs z d a x s
  | .clz z d a x => Sys2Proof.Machine.execClz z d a x s
  | .popc z d a x => Sys2Proof.Machine.execPopc z d a x s
  | .brev z d a x => Sys2Proof.Machine.execBrev z d a x s
  | .mov z d a x => Sys2Proof.Machine.execMov z d a x s
  | .bfx z d a b x => Sys2Proof.Machine.execBfx z d a b x s
  | .bfi z d a b x => Sys2Proof.Machine.execBfi z d a b x s
  | .icmp z c d a b x => Sys2Proof.Machine.execIcmp z c d a b x s
  | .sel z p d a b x => Sys2Proof.Machine.execSel z p d a b x s
  | .movi z d imm => Sys2Proof.Machine.execMovi z d imm s
  | .iaddI z d a imm => Sys2Proof.Machine.execIaddI z d a imm s
  | .shlI z d a imm => Sys2Proof.Machine.execShlI z d a imm s
  | .shrI z d a imm => Sys2Proof.Machine.execShrI z d a imm s
  | .sarI z d a imm => Sys2Proof.Machine.execSarI z d a imm s
  | .andI z d a imm => Sys2Proof.Machine.execAndI z d a imm s
  | .orI z d a imm => Sys2Proof.Machine.execOrI z d a imm s
  | .xorI z d a imm => Sys2Proof.Machine.execXorI z d a imm s
  | .moviU z d imm => Sys2Proof.Machine.execMoviU z d imm s
  | .iaddIu z d a imm => Sys2Proof.Machine.execIaddIu z d a imm s
  | .shlIu z d a imm => Sys2Proof.Machine.execShlIu z d a imm s
  | .shrIu z d a imm => Sys2Proof.Machine.execShrIu z d a imm s
  | .sarIu z d a imm => Sys2Proof.Machine.execSarIu z d a imm s
  | .andIu z d a imm => Sys2Proof.Machine.execAndIu z d a imm s
  | .orIu z d a imm => Sys2Proof.Machine.execOrIu z d a imm s
  | .xorIu z d a imm => Sys2Proof.Machine.execXorIu z d a imm s
  | .fadd z d a b x => Sys2Proof.Machine.execFadd z d a b x s
  | .fsub z d a b x => Sys2Proof.Machine.execFsub z d a b x s
  | .fmul z d a b x => Sys2Proof.Machine.execFmul z d a b x s
  | .ffma z d a b x => Sys2Proof.Machine.execFfma z d a b x s
  | .fmin z d a b x => Sys2Proof.Machine.execFmin z d a b x s
  | .fmax z d a b x => Sys2Proof.Machine.execFmax z d a b x s
  | .frnd z d a x => Sys2Proof.Machine.execFrnd z d a x s
  | .fcls z d a x => Sys2Proof.Machine.execFcls z d a x s
  | .fcmp z c d a b x => Sys2Proof.Machine.execFcmp z c d a b x s
  | .hadd2 z h d a b x => Sys2Proof.Machine.execHadd2 z h d a b x s
  | .hmul2 z h d a b x => Sys2Proof.Machine.execHmul2 z h d a b x s
  | .hfma2 z h d a b x => Sys2Proof.Machine.execHfma2 z h d a b x s
  | .fdot2 z h d a b x => Sys2Proof.Machine.execFdot2 z h d a b x s
  | .cvt z sz d a t => Sys2Proof.Machine.execCvt z sz d a t s
  | .pack z m d a b x => Sys2Proof.Machine.execPack z m d a b x s
  | .unpk z m d a b x => Sys2Proof.Machine.execUnpk z m d a b x s
  | .fmt z sz d a t => Sys2Proof.Machine.execFmt z sz d a t s
  | .shfl z m d a b => Sys2Proof.Machine.execShfl z m d a b s
  | .vote z m d a => Sys2Proof.Machine.execVote z m d a s
  | .rdfl z d a b => Sys2Proof.Machine.execRdfl z d a b s
  | .prfx z d a b => Sys2Proof.Machine.execPrfx z d a b s
  | .conf z d a b => Sys2Proof.Machine.execConf z d a b s
  | .kcomb z d a b => Sys2Proof.Machine.execKcomb z d a b s
  | .rebal z d a b => Sys2Proof.Machine.execRebal z d a b s
  | .mask z d b => Sys2Proof.Machine.execMask z d b s
  | .sfe z d a f l u => Sys2Proof.Machine.execSfe z d a f l u s
  | .stbl z t p l => Sys2Proof.Machine.execStbl z t p l s
  | .tswp z t l => Sys2Proof.Machine.execTswp z t l s
  | .lz z e => Sys2Proof.Machine.execLz z e s
  | .ladd z a e q => Sys2Proof.Machine.execLadd z a e q s
  | .lmrg z a e q l => Sys2Proof.Machine.execLmrg z a e q l s
  | .lst z a e q l => Sys2Proof.Machine.execLst z a e q l s
  | .lrd z d e => Sys2Proof.Machine.execLrd z d e s
  | .lvar z d a => Sys2Proof.Machine.execLvar z d a s
  | .srg z j l => Sys2Proof.Machine.execSrg z j l s
  | .sjn z => Sys2Proof.Machine.execSjn z s
  | .sld z sz p l => Sys2Proof.Machine.execSld z sz p l s
  | .ssw z sz l => Sys2Proof.Machine.execSsw z sz l s
  | .qset z u l => Sys2Proof.Machine.execQset z u l s
  | .sctr z u o l => Sys2Proof.Machine.execSctr z u o l s
  | .sdis z => Sys2Proof.Machine.execSdis z s
  | .ldG z sz d a k l u => Sys2Proof.Machine.execLdG z sz d a k l u s
  | .ldGExt z sz d a k l u => Sys2Proof.Machine.execLdGExt z sz d a k l u s
  | .ldS z sz d a o l u => Sys2Proof.Machine.execLdS z sz d a o l u s
  | .ldSExt z sz d a o l u => Sys2Proof.Machine.execLdSExt z sz d a o l u s
  | .stG z sz d a k l u => Sys2Proof.Machine.execStG z sz d a k l u s
  | .stS z sz d a o l u => Sys2Proof.Machine.execStS z sz d a o l u s
  | .atom z o d a k l => Sys2Proof.Machine.execAtom z o d a k l s
  | .red z o d a k l => Sys2Proof.Machine.execRed z o d a k l s
  | .stGB128 z d a k l => Sys2Proof.Machine.execStGB128 z d a k l s
  | .stSB128 z d a l => Sys2Proof.Machine.execStSB128 z d a l s
  | .aoaddB32 z d a l => Sys2Proof.Machine.execAoaddB32 z d a l s
  | .aoaddB64 z d a l => Sys2Proof.Machine.execAoaddB64 z d a l s
  | .ldsumB32 z d a q l => Sys2Proof.Machine.execLdsumB32 z d a q l s
  | .ldsumB64 z d a q l => Sys2Proof.Machine.execLdsumB64 z d a q l s
  | .ldsumG z d a q l => Sys2Proof.Machine.execLdsumG z d a q l s
  | .ldsumF32 z d a q l => Sys2Proof.Machine.execLdsumF32 z d a q l s
  | .lduB32 z d a k l => Sys2Proof.Machine.execLduB32 z d a k l s
  | .lduB64 z d a k l => Sys2Proof.Machine.execLduB64 z d a k l s
  | .pref z a k => Sys2Proof.Machine.execPref z a k s
  | .cpySFromG z sz d a k l u => Sys2Proof.Machine.execCpySFromG z sz d a k l u s
  | .cpyGFromS z sz d a k l u => Sys2Proof.Machine.execCpyGFromS z sz d a k l u s
  | .cpySFromS z sz d a l => Sys2Proof.Machine.execCpySFromS z sz d a l s
  | .cpyGFromGB4 z d a k l => Sys2Proof.Machine.execCpyGFromGB4 z d a k l s
  | .cpyGFromGB8 z d a k l => Sys2Proof.Machine.execCpyGFromGB8 z d a k l s
  | .cpyGFromGB16 z d a k l => Sys2Proof.Machine.execCpyGFromGB16 z d a k l s
  | .cpyvG z d a k l => Sys2Proof.Machine.execCpyvG z d a k l s
  | .cpyvS z d a k l => Sys2Proof.Machine.execCpyvS z d a k l s
  | .seal z p => Sys2Proof.Machine.execSeal z p s
  | .wait z u p => Sys2Proof.Machine.execWait z u p s
  | .pub z d sz k l => Sys2Proof.Machine.execPub z d sz k l s
  | .gathE z sz d a k l => Sys2Proof.Machine.execGathE z sz d a k l s
  | .gathXB16 z d a k l => Sys2Proof.Machine.execGathXB16 z d a k l s
  | .gathXB32 z d a k l => Sys2Proof.Machine.execGathXB32 z d a k l s
  | .gathXB64 z d a k l => Sys2Proof.Machine.execGathXB64 z d a k l s
  | .tlook z d a => Sys2Proof.Machine.execTlook z d a s
  | .tset z a b => Sys2Proof.Machine.execTset z a b s
  | .tinv z b => Sys2Proof.Machine.execTinv z b s
  | .hclaim z d imm j u => Sys2Proof.Machine.execHclaim z d imm j u s
  | .hrel z h => Sys2Proof.Machine.execHrel z h s
  | .hins z d a p h => Sys2Proof.Machine.execHins z d a p h s
  | .hprb z d a p h => Sys2Proof.Machine.execHprb z d a p h s
  | .hdel z d a p h => Sys2Proof.Machine.execHdel z d a p h s
  | .haccAdd z d a p h => Sys2Proof.Machine.execHaccAdd z d a p h s
  | .haccMin z d a p h => Sys2Proof.Machine.execHaccMin z d a p h s
  | .haccMax z d a p h => Sys2Proof.Machine.execHaccMax z d a p h s
  | .haccOr z d a p h => Sys2Proof.Machine.execHaccOr z d a p h s
  | .haccFadd z d a p h => Sys2Proof.Machine.execHaccFadd z d a p h s
  | .hdrn z d a p h => Sys2Proof.Machine.execHdrn z d a p h s
  | .hdrnDel z d a p h => Sys2Proof.Machine.execHdrnDel z d a p h s
  | .pln z a u p e sz => Sys2Proof.Machine.execPln z a u p e sz s
  | .upln z d u t => Sys2Proof.Machine.execUpln z d u t s
  | .mz z n w => Sys2Proof.Machine.execMz z n w s
  | .mrd z d n r l h f => Sys2Proof.Machine.execMrd z d n r l h f s
  | .mld z n u g l => Sys2Proof.Machine.execMld z n u g l s
  | .mma z n u a b p l => Sys2Proof.Machine.execMma z n u a b p l s
  | .mmt z n u a b p l => Sys2Proof.Machine.execMmt z n u a b p l s
  | .br z o => Sys2Proof.Machine.execBr z o s
  | .brc z p o => Sys2Proof.Machine.execBrc z p o s
  | .brd z p o => Sys2Proof.Machine.execBrd z p o s
  | .call z k o => Sys2Proof.Machine.execCall z k o s
  | .join z => Sys2Proof.Machine.execJoin z s
  | .brx z imm o => Sys2Proof.Machine.execBrx z imm o s
  | .lpad z c l => Sys2Proof.Machine.execLpad z c l s
  | .callx z k t => Sys2Proof.Machine.execCallx z k t s
  | .ret z k => Sys2Proof.Machine.execRet z k s
  | .exit z => Sys2Proof.Machine.execExit z s
  | .yld z => Sys2Proof.Machine.execYld z s
  | .nop z => Sys2Proof.Machine.execNop z s
  | .barArrive z n d sz t => Sys2Proof.Machine.execBarArrive z n d sz t s
  | .barWait z sz t => Sys2Proof.Machine.execBarWait z sz t s
  | .barArriveWait z n d sz t => Sys2Proof.Machine.execBarArriveWait z n d sz t s
  | .bart z v imm sz => Sys2Proof.Machine.execBart z v imm sz s
  | .fence z sz k => Sys2Proof.Machine.execFence z sz k s
  | .spwn z a h c l => Sys2Proof.Machine.execSpwn z a h c l s
  | .take z d a l => Sys2Proof.Machine.execTake z d a l s
  | .done z a sz => Sys2Proof.Machine.execDone z a sz s
  | .waitq z d => Sys2Proof.Machine.execWaitq z d s
  | .qdom z d => Sys2Proof.Machine.execQdom z d s
  | .give z n => Sys2Proof.Machine.execGive z n s
  | .claim z n => Sys2Proof.Machine.execClaim z n s
  | .srd z d imm => Sys2Proof.Machine.execSrd z d imm s
  | .srdU z d imm => Sys2Proof.Machine.execSrdU z d imm s
  | .swr z a imm => Sys2Proof.Machine.execSwr z a imm s
  | .trap z imm => Sys2Proof.Machine.execTrap z imm s
  | .rsm z r => Sys2Proof.Machine.execRsm z r s
  | .kill z a => Sys2Proof.Machine.execKill z a s
  | .bkpt z => Sys2Proof.Machine.execBkpt z s
  | .hx z => Sys2Proof.Machine.execHx z s
  | .hintWide w => Sys2Proof.Machine.execHintWide w s
  | .hintMod e c n m a sz r q => Sys2Proof.Machine.execHintMod e c n m a sz r q s
  | .hintThird t => Sys2Proof.Machine.execHintThird t s
  | .hintGuard n p => Sys2Proof.Machine.execHintGuard n p s
  | .hintRtag r => Sys2Proof.Machine.execHintRtag r s
  | .hintTtag t => Sys2Proof.Machine.execHintTtag t s
  | .hintCredit sz => Sys2Proof.Machine.execHintCredit sz s
  | .laneRunStart core lane => Sys2Proof.Machine.execLaneRunStart core lane s
  | .stallCapExpiry strand path => Sys2Proof.Machine.execStallCapExpiry strand path s
  | .loadDataReturn op => Sys2Proof.Machine.execLoadDataReturn op s
  | .l1FillReturn core line => Sys2Proof.Machine.execL1FillReturn core line s
  | .storeAtHome op => Sys2Proof.Machine.execStoreAtHome op s
  | .storeAck op => Sys2Proof.Machine.execStoreAck op s
  | .sliceAtomicLineOp op line => Sys2Proof.Machine.execSliceAtomicLineOp op line s
  | .atomicResultReturn op => Sys2Proof.Machine.execAtomicResultReturn op s
  | .aoaddSliceApply op => Sys2Proof.Machine.execAoaddSliceApply op s
  | .aoaddResend op => Sys2Proof.Machine.execAoaddResend op s
  | .keySpillAppend op => Sys2Proof.Machine.execKeySpillAppend op s
  | .copyEngineAccept op line => Sys2Proof.Machine.execCopyEngineAccept op line s
  | .copyLineOpComplete op line => Sys2Proof.Machine.execCopyLineOpComplete op line s
  | .cpyvTileOp op line => Sys2Proof.Machine.execCpyvTileOp op line s
  | .gatherUnitRequest op part => Sys2Proof.Machine.execGatherUnitRequest op part s
  | .gatherForward op part => Sys2Proof.Machine.execGatherForward op part s
  | .gatherBurstReturn op part => Sys2Proof.Machine.execGatherBurstReturn op part s
  | .ldsumRequest op => Sys2Proof.Machine.execLdsumRequest op s
  | .ldsumMemberRequest tag => Sys2Proof.Machine.execLdsumMemberRequest tag s
  | .ldsumPartial tag child => Sys2Proof.Machine.execLdsumPartial tag child s
  | .ldsumResult op => Sys2Proof.Machine.execLdsumResult op s
  | .ldsumTimeout op => Sys2Proof.Machine.execLdsumTimeout op s
  | .ldsumEntryTimeout tag => Sys2Proof.Machine.execLdsumEntryTimeout tag s
  | .publishRequest pub => Sys2Proof.Machine.execPublishRequest pub s
  | .publishSwap pub => Sys2Proof.Machine.execPublishSwap pub s
  | .publishInvalidateDie pub die => Sys2Proof.Machine.execPublishInvalidateDie pub die s
  | .publishComplete pub => Sys2Proof.Machine.execPublishComplete pub s
  | .generationRetired ctx obj => Sys2Proof.Machine.execGenerationRetired ctx obj s
  | .publishPortRequest value => Sys2Proof.Machine.execPublishPortRequest value s
  | .pinRelease ctx obj gen => Sys2Proof.Machine.execPinRelease ctx obj gen s
  | .dieLinkFailure link => Sys2Proof.Machine.execDieLinkFailure link s
  | .wilmoPortFailure port => Sys2Proof.Machine.execWilmoPortFailure port s
  | .l1SoftError core line => Sys2Proof.Machine.execL1SoftError core line s
  | .correctedError die cls unit => Sys2Proof.Machine.execCorrectedError die cls unit s
  | .softErrorWindow die => Sys2Proof.Machine.execSoftErrorWindow die s
  | .hclaimClearDone op => Sys2Proof.Machine.execHclaimClearDone op s
  | .stblCopyDone op => Sys2Proof.Machine.execStblCopyDone op s
  | .sldCopyDone op => Sys2Proof.Machine.execSldCopyDone op s
  | .bankSwapNotice op core => Sys2Proof.Machine.execBankSwapNotice op core s
  | .bankSwapComplete op => Sys2Proof.Machine.execBankSwapComplete op s
  | .recoveryStrandForm core slot => Sys2Proof.Machine.execRecoveryStrandForm core slot s
  | .regionCounterUpdate upd => Sys2Proof.Machine.execRegionCounterUpdate upd s
  | .regionDisableNotice core ctx region => Sys2Proof.Machine.execRegionDisableNotice core ctx region s
  | .regenWrite value => Sys2Proof.Machine.execRegenWrite value s
  | .regionEnableNotice core ctx region => Sys2Proof.Machine.execRegionEnableNotice core ctx region s
  | .qsetComplete op => Sys2Proof.Machine.execQsetComplete op s
  | .jointOpCommit op => Sys2Proof.Machine.execJointOpCommit op s
  | .mldComplete op => Sys2Proof.Machine.execMldComplete op s
  | .claimGrant core lane => Sys2Proof.Machine.execClaimGrant core lane s
  | .claimStarvation core lane => Sys2Proof.Machine.execClaimStarvation core lane s
  | .tkportWrite off size data => Sys2Proof.Machine.execTkportWrite off size data s
  | .dispatcherTake => Sys2Proof.Machine.execDispatcherTake s
  | .launchExpand launch => Sys2Proof.Machine.execLaunchExpand launch s
  | .taskSpillTake quad ctx => Sys2Proof.Machine.execTaskSpillTake quad ctx s
  | .overflowBufferRetry => Sys2Proof.Machine.execOverflowBufferRetry s
  | .gangPlace quad => Sys2Proof.Machine.execGangPlace quad s
  | .oldestRecordHold quad => Sys2Proof.Machine.execOldestRecordHold quad s
  | .quantumExpiry core => Sys2Proof.Machine.execQuantumExpiry core s
  | .gangSwapSave gang => Sys2Proof.Machine.execGangSwapSave gang s
  | .stealStart quad => Sys2Proof.Machine.execStealStart quad s
  | .stealCopyArrive steal => Sys2Proof.Machine.execStealCopyArrive steal s
  | .stealAckArrive steal => Sys2Proof.Machine.execStealAckArrive steal s
  | .stealHandoffTimeout steal => Sys2Proof.Machine.execStealHandoffTimeout steal s
  | .stealConfirmArrive steal => Sys2Proof.Machine.execStealConfirmArrive steal s
  | .stealRefuseArrive steal => Sys2Proof.Machine.execStealRefuseArrive steal s
  | .successorDecrement msg => Sys2Proof.Machine.execSuccessorDecrement msg s
  | .domainReturn msg => Sys2Proof.Machine.execDomainReturn msg s
  | .strandStop strand => Sys2Proof.Machine.execStrandStop strand s
  | .faultQueueAppend ctx => Sys2Proof.Machine.execFaultQueueAppend ctx s
  | .hrsmRsm value => Sys2Proof.Machine.execHrsmRsm value s
  | .hrsmRsmRx value => Sys2Proof.Machine.execHrsmRsmRx value s
  | .hrsmKill value => Sys2Proof.Machine.execHrsmKill value s
  | .hrsmKillAll value => Sys2Proof.Machine.execHrsmKillAll value s
  | .ctxctlNone value => Sys2Proof.Machine.execCtxctlNone value s
  | .ctxctlStop value => Sys2Proof.Machine.execCtxctlStop value s
  | .ctxctlStart value => Sys2Proof.Machine.execCtxctlStart value s
  | .ctxctlKill value => Sys2Proof.Machine.execCtxctlKill value s
  | .ctxctlComplete => Sys2Proof.Machine.execCtxctlComplete s
  | .energyWindow core => Sys2Proof.Machine.execEnergyWindow core s
  | .dstopStop value => Sys2Proof.Machine.execDstopStop value s
  | .dstopStep value => Sys2Proof.Machine.execDstopStep value s
  | .interruptRecordAppend => Sys2Proof.Machine.execInterruptRecordAppend s
  | .apertureAccess write addr size data => Sys2Proof.Machine.execApertureAccess write addr size data s
  | .registerWrite off size value => Sys2Proof.Machine.execRegisterWrite off size value s
  | .clkctlRateWrite value => Sys2Proof.Machine.execClkctlRateWrite value s
  | .clockChangeEffective => Sys2Proof.Machine.execClockChangeEffective s
  | .powerWindow watts => Sys2Proof.Machine.execPowerWindow watts s
  | .sensorSample quad tcd tbd => Sys2Proof.Machine.execSensorSample quad tcd tbd s
  | .thermalHoldEnd => Sys2Proof.Machine.execThermalHoldEnd s
  | .packageReset => Sys2Proof.Machine.execPackageReset s
  | .bootclrClear value => Sys2Proof.Machine.execBootclrClear value s
  | .bootclrReset value => Sys2Proof.Machine.execBootclrReset value s
  | .attestRequest value => Sys2Proof.Machine.execAttestRequest value s
  | .attestDone => Sys2Proof.Machine.execAttestDone s
  | .sidebandRequest off write value => Sys2Proof.Machine.execSidebandRequest off write value s
  | .pcieCompletionTimeout op => Sys2Proof.Machine.execPcieCompletionTimeout op s
  | .hardFault quad item => Sys2Proof.Machine.execHardFault quad item s
  | .podBarrierArrival ctx slot expected => Sys2Proof.Machine.execPodBarrierArrival ctx slot expected s

end Sys2Proof.Machine
end

