-- ==== Sys2Proof/Machine/Sched.lean ====
section
/-!
DEFINITION. Sys2Proof/Machine/Sched.lean: the step the package takes when the schedule names none and no lane is issuing (log 3, DESIGN CHOICE): the
first of a fixed order of steps that changes anything.
-/

namespace Sys2Proof.Machine

/-- The steps that may move an operation in flight. -/
def opSteps (id : Nat) (o : Op) : List (State → Answer) :=
  let parts := List.range o.lines.length
  match o.kind with
  | .load .. | .lmrg _ | .prefetch _ => execLoadDataReturn id :: o.allLines.map fun l => execL1FillReturn o.core l
  | .store _ => [execStoreAtHome id, execStoreAck id]
  | .atomic .. => (parts.map fun n => execSliceAtomicLineOp id n) ++ [execAtomicResultReturn id]
  | .aoadd .. => [execAoaddSliceApply id, execAtomicResultReturn id]
  | .ldsum .. => [execLdsumRequest id, execLdsumResult id, execLdsumTimeout id, execLdsumMemberRequest id]
  | .copy _ => (parts.map fun n => execCopyEngineAccept id n) ++ parts.map fun n => execCopyLineOpComplete id n
  | .copyv _ => (parts.map fun n => execCopyEngineAccept id n) ++ (parts.map fun n => execCpyvTileOp id n) ++ [execAtomicResultReturn id]
  | .gather .. => (parts.map fun n => execGatherUnitRequest id n) ++ (parts.map fun n => execGatherForward id n) ++ parts.map fun n => execGatherBurstReturn id n
  | .key .. => [execKeySpillAppend id]
  | .hclaim _ => [execHclaimClearDone id]
  | .pub .. => []
  | .stbl .. => [execStblCopyDone id]
  | .sld .. => [execSldCopyDone id]
  | .bankSwap _ _ cores => (cores.map fun c => execBankSwapNotice id c) ++ [execBankSwapComplete id]
  | .qset _ => [execQsetComplete id]
  | .mma .. => [execJointOpCommit id]
  | .mld .. => [execMldComplete id]
  | .spwn .. | .done .. => []
/-- The steps of the units that are not strands', in the default order (log 3, DESIGN CHOICE). -/
def unitSteps (s : State) : List (State → Answer) :=
  (s.strands.map fun x => execStrandStop x.1) ++
  (s.ops.flatMap fun x => opSteps x.1 x.2) ++
  (s.pkg.pubs.flatMap fun x => execPublishRequest x.1 :: execPublishSwap x.1 :: execPublishComplete x.1 :: s.dieSet.map fun d => execPublishInvalidateDie x.1 d) ++
  (s.pkg.unretired.map fun u => execGenerationRetired u.ctx u.obj) ++ (s.pkg.pins.map fun p => execPinRelease p.ctx p.obj p.gen) ++
  (s.pkg.updates.map fun x => execRegionCounterUpdate x.1) ++ (s.pkg.members.map fun x => execLdsumEntryTimeout x.1) ++
  (s.cores.flatMap fun x => (x.2.claims.map fun c => execClaimGrant x.1 c.1) ++ if x.2.recq.isEmpty then [] else (List.range 8).map fun n => execRecoveryStrandForm x.1 n) ++
  (s.pkg.msgs.flatMap fun x => [execSuccessorDecrement x.1, execDomainReturn x.1]) ++
  (s.gangs.map fun x => execGangSwapSave x.1) ++ (s.pkg.faultWait.map fun a => execFaultQueueAppend a.ctx) ++ [execInterruptRecordAppend, execCtxctlComplete, execAttestDone] ++
  [execDispatcherTake] ++ (s.pkg.launches.map fun x => execLaunchExpand x.1) ++ [execOverflowBufferRetry] ++
  (s.pkg.spilled.flatMap fun x => s.quadsIn.map fun q => execTaskSpillTake q x.1) ++ (s.quads.map fun x => execGangPlace x.1) ++
  (s.pkg.steals.flatMap fun x => [execStealCopyArrive x.1, execStealAckArrive x.1, execStealConfirmArrive x.1, execStealRefuseArrive x.1]) ++
  ((dedup ((s.gangs.filter fun g => g.2.resident).map fun g => g.2.core)).map fun c => execQuantumExpiry c) ++
  (s.cores.flatMap fun x => x.2.claims.map fun c => execClaimStarvation x.1 c.1) ++ (s.quads.map fun x => execOldestRecordHold x.1)
/-- The paths whose run is in progress and whose next chain can issue (log 3, DESIGN CHOICE). -/
def openRuns (s : State) : List (Nat × Nat) := s.strands.flatMap fun x => [0, 1].filterMap fun pi =>
  match s.gang x.2.gang with
  | some g => if (x.2.path pi).run.isSome && !s.gatedNow (coreOf x.1) && canIssue s x.1 pi x.2 g then some (x.1, pi) else none
  | none => none
/-- Runs whose next word stays held: the stall cap ends each in the end (12 R286; log 3, DESIGN CHOICE). -/
def heldRuns (s : State) : List (Nat × Nat) := s.strands.flatMap fun x => [0, 1].filterMap fun pi =>
  if (x.2.path pi).run.isSome then some (x.1, pi) else none
/-- What a step makes of s, where it changes s. -/
def moves (s : State) (f : State → Answer) : Option Answer :=
  match f s with
  | .next s' => if s' = s then none else some (.next s')
  | o => some o
/-- A list read round from place n. -/
def roundFrom {α : Type} (l : List α) (n : Nat) : List α := l.drop (n % l.length) ++ l.take (n % l.length)
/-- The first step of the default order that changes s: a unit moves, or a lane starts a run, or the stall cap ends a
held run, or a returned AOADD is sent again. The lane that goes first changes with every step, so that none waits for ever (log 3, DESIGN CHOICE). -/
def unitMove (s : State) : Option Answer :=
  (unitSteps s ++ roundFrom (s.strands.map fun x => execLaneRunStart (coreOf x.1) x.2.lane) s.now ++
    (heldRuns s).map (fun x => execStallCapExpiry x.1 x.2) ++ s.ops.map fun x => execAoaddResend x.1).findSome? (moves s)

end Sys2Proof.Machine
end

