-- ==== Sys2Proof/Machine/Step.lean ====
section
/-!
DEFINITION. Sys2Proof/Machine/Step.lean: one step of the package. The head of the schedule moves if there is one; else the path
whose lane issues executes its next word; else the units take the step the default order gives (log 3, DESIGN CHOICE).
-/

namespace Sys2Proof.Machine

/-- Time passes with every step (log 1, DESIGN CHOICE): the trace units write (15 R380), and as the next die cycle begins paths become ready and
held chains grow older (12 R286, R290). -/
def tick : Host.Outcome State Fault Refusal → Host.Outcome State Fault Refusal
  | .next s => .next ({ s.drainTraces with now := s.now + 1 } : State).reage
  | o => o

/-- Execute the next word of the current path. -/
def runWord (s : State) : Host.Outcome State Fault Refusal :=
  match nextWord s with
  | .idle => .next { s with cur := none }
  | .fault s' => .next s'
  | .word i => exec i s

/-- One step of the package (log 3, DESIGN CHOICE). -/
def step (s : State) : Host.Outcome State Fault Refusal :=
  match s.schedule with
  | .event i :: rest => tick (exec i { s with schedule := rest })
  | .issue k pi :: rest => tick (runWord { s with schedule := rest, cur := some (k, pi) })
  | [] =>
    match s.cur with
    | some _ => tick (runWord s)
    | none => match openRuns s with
      | (k, pi) :: _ => tick (runWord { s with cur := some (k, pi) })
      | [] => tick ((unitMove s).getD (.next s))

/-- A booted Euquel 940 with context 0 active, object 1 a code object, and strand 0 of one gang about to issue from offset 64
of it: how a program stands when the host has loaded and launched it (log 5, DESIGN CHOICE). -/
def State.launched (s : State) : State :=
  let record := leBytes 4 (5 * 64 + 16 * 65536) ++ leBytes 4 0 ++ leBytes 8 4096 ++ leBytes 4 1024 ++ leBytes 4 1 ++ leBytes 4 1 ++
    leBytes 4 1 ++ leBytes 4 1 ++ leBytes 4 0 ++ leBytes 4 0 ++ leBytes 4 0 ++ leBytes 16 0 ++
    leBytes 8 0x200000 ++ leBytes 8 4096 ++ leBytes 4 0 ++ leBytes 4 7 ++ leBytes 8 0 ++
    leBytes 8 0x300000 ++ leBytes 8 4096 ++ leBytes 4 0 ++ leBytes 4 7
  let record := leBytes 1 ((record.headD 0).toNat + 1) ++ record.drop 1
  let win := { s.pkg.win with caps := 0x3FCBFFFFF0, bootstat := 0x701 }
  let s0 := { s with
    pkg := { s.pkg with win := win }
    ctxs := upd s.ctxs 0 (some { otbase := 0x10000, otlen := 16 }), schedule := [], cur := some (0, 0) }
  let task : Task := { entry := 2 ^ 40, ctx := 0 }
  let g : Gang := { task := task, hdr := { entryOff := 64 }, live := 1, launch := 1 }
  let p : Path := { pc := 64, act := 0xFFFFFFFF, run := some {} }
  let st : Strand := { gang := 1, path0 := p, s := [(3, 256)] }
  ((s0.sysWrite (0x10000 + 128) record).setGang 1 g).setStrand 0 st

/-- The key of the word step fetches next, where it fetches one (log 5, DESIGN CHOICE). -/
def State.fetchKey (s : State) : Option Nat :=
  match s.schedule, s.cur with
  | [], some (k, pi) => match s.strand k with
    | some st => match s.gang st.gang, (st.path pi).run with
      | some g, some _ => match translate s (coreDie (coreOf k)) g.task.ctx (codeAddr g (st.path pi).pc) 4 .read with
        | .ok l => match l.bytes with
          | .mem a :: _ => some a
          | _ => none
        | .error _ => none
      | _, _ => none
    | none => none
  | _, _ => none

/-- The state in which step fetches and runs the word w next: where s fetches no word, a program is launched first (log 5, DESIGN CHOICE). -/
def State.withFetchWord (s : State) (nbits w : Nat) : State :=
  match s.fetchKey with
  | some a => s.setMem (writeNat s.mem a 4 (w % 2 ^ nbits))
  | none =>
    let s' := s.launched
    match s'.fetchKey with
    | some a => s'.setMem (writeNat s'.mem a 4 (w % 2 ^ nbits))
    | none => s'

end Sys2Proof.Machine
end

