-- ==== Sys2Proof/Safety.lean ====
section
/-!
DEFINITION. Sys2Proof/Safety.lean: the words claims are made of. What a safe run is; when a word issues and has its own effect;
what retiring it leaves; what a word writes and what stays as it was.
-/

namespace Sys2Proof.Machine

/-- k steps from s all answer a next state. Every fault of this package is taken by the package itself (14 R345), so a run is
safe when no step of it stops. -/
def SafeRun (k : Nat) (s : State) : Prop := ∃ t, core.run k s = .next t

/-- The state in which the instruction of e issues: its run has begun (09 R211, R220). -/
def begun (s : State) (e : Env) : State := s.setStrand e.k e.st
/-- The conditions on the state and the operands under which i issues and has its own effect: the run and the lookahead let its chain go
(12 R284, 06 R137), no breakpoint and no fault found after issue stops it (15 R376, 14 R345), its chain is legal under its hints (06 R146), the
scoreboard lets it go (06 R137), its guard does not skip it (06 R141), and what it waits for has come (12 R285). -/
abbrev Issues (i : Instr) (s : State) (e : Env) (r : Run) : Prop :=
  envOf i s = some (e, r) ∧ r.words + e.len ≤ runLimit e.g.hdr.version ∧ lookaheadHeld (begun s e) e.p e.len = false ∧
  breakpoints (begun s e) e = [] ∧ guardHeld (begun s e) e = false ∧ deferredStop (begun s e) e = none ∧ decodeFault e = none ∧
  dependHeld (begun s e) e = false ∧ e.skips = false ∧ waits (begun s e) e = .go

/-- The state with the energy of the chain charged (14 R364): what the body of an instruction starts from. -/
def paid (i : Instr) (e : Env) (s : State) : State :=
  ((begun s e).charge e.core e.ctx 2 e.p.chainLen).charge e.core e.ctx (wordClass i (decide (e.act ≠ 0))).1 (wordClass i (decide (e.act ≠ 0))).2

/-- The run ends with the instruction (12 R284): it ends it itself, has the boundary flag, reaches the forced boundary, or is the
chain of a step (15 R373). -/
def Env.runEnds (e : Env) (r : Run) (ends : Bool) : Bool :=
  ends || boundary e.i || decide (runLimit e.g.hdr.version ≤ r.words + e.len) || e.st.stepping.isSome

/-- A path p once the instruction has retired: at `jump` or the next word, its hints used, its words counted; a chain issued again
gives way to the path's point of resumption, its threads and its arrival there (14 R356). -/
def Env.pathAfter (e : Env) (r : Run) (jump : Option Word) (ends : Bool) (p : Path) : Path :=
  { p with
    pc := jump.getD ((p.reissue.map (·.cont)).getD (p.pc + 4))
    act := if jump.isSome then p.act else (p.reissue.map (·.live)).getD p.act
    reissue := none, hints := {}, chainLen := 0, words := p.words + e.len, skipBp := false, awaits := none
    half := jump.isNone && p.reissue.any (·.half)
    run := if e.runEnds r ends then none else some { r with words := r.words + e.len } }

/-- t is u with the instruction of e retired: the issuing path is past it and nothing else of the strand has changed but the note of
a step; every other strand is as in u, every core but for a long run counted (15 R379), and everything else of the package. -/
structure Retires (u t : State) (e : Env) (r : Run) (jump : Option Word) (ends : Bool) (st1 st' : Strand) : Prop where
  before : u.strand e.k = some st1
  strand : t.strand e.k = some st'
  path : st'.path e.pi = e.pathAfter r jump ends (st1.path e.pi)
  other : e.pi = 0 ∨ e.pi = 1 → st'.path (1 - e.pi) = st1.path (1 - e.pi)
  rest : st' = { st1 with path0 := st'.path0, path1 := st'.path1, stepping := st'.stepping }
  strands : ∀ k, k ≠ e.k → t.strand k = u.strand k
  cores : ∀ c, t.core c = { u.core c with evc0 := (t.core c).evc0 }
  counts : ∀ c, (c ≠ e.core ∨ runLimit e.g.hdr.version > r.words + e.len) → (t.core c).evc0 = (u.core c).evc0
  lane : t.cur = if e.runEnds r ends then none else some (e.k, e.pi)
  package : t = { u with strands := t.strands, cores := t.cores, cur := t.cur }

/-- u is s but for strand k, which is st1 now. -/
structure OnlyStrand (s u : State) (k : Nat) (st1 : Strand) : Prop where
  strand : u.strand k = some st1
  others : ∀ j, j ≠ k → u.strand j = s.strand j
  package : u = { s with strands := u.strands }

/-- Nothing of the strand has changed but registers, predicates, long accumulators and the sticky flags of path pi. -/
structure OnlyRegs (st st1 : Strand) (pi : Nat) (nfr : Word) : Prop where
  path : st1.path pi = { st.path pi with nfr := nfr }
  other : pi = 0 ∨ pi = 1 → st1.path (1 - pi) = st.path (1 - pi)
  rest : st1 = { st with
    v := st1.v, s := st1.s, p := st1.p, l0 := st1.l0, l1 := st1.l1, fl0 := st1.fl0, fl1 := st1.fl1, path0 := st1.path0, path1 := st1.path1 }

/-- Vector registers d to d + n - 1 of the threads of `act` take the low words of f, low register first (05 R95); every other
vector register, and every uniform register and predicate, is unchanged. -/
structure WritesVector (st st' : Strand) (act : Mask) (d n : Nat) (f : Nat → Nat) : Prop where
  vec : ∀ c t, t < 32 → st'.vreg c t = if has act t ∧ d ≤ c ∧ c < d + n then BitVec.ofNat 32 (f t / 2 ^ (32 * (c - d))) else st.vreg c t
  uni : ∀ c, st'.sreg c = st.sreg c
  pred : ∀ p, st'.pmask p = st.pmask p

/-- Uniform registers d to d + n - 1 take the low words of v; every other register and every predicate is unchanged. -/
structure WritesUniform (st st' : Strand) (d n v : Nat) : Prop where
  uni : ∀ c, st'.sreg c = if d ≤ c ∧ c < d + n then BitVec.ofNat 32 (v / 2 ^ (32 * (c - d))) else st.sreg c
  vec : ∀ c t, t < 32 → st'.vreg c t = st.vreg c t
  pred : ∀ p, st'.pmask p = st.pmask p

/-- The destination group of an instruction with an x field: under x = 1 the uniform group, once; else the vector group, for each
active thread (08 R180). -/
def Writes (x : BitVec 1) (st st' : Strand) (act : Mask) (d n : Nat) (f : Nat → Nat) : Prop :=
  if x = 1 then WritesUniform st st' d n (f (lowest act)) else WritesVector st st' act d n f

/-- Predicate p takes val for the threads of act; p0 stays true (05 R97); nothing else changes. -/
structure WritesPred (st st' : Strand) (act : Mask) (p : Nat) (val : Nat → Bool) : Prop where
  pred : ∀ q t, t < 32 → st'.pred q t = if q = p ∧ p ≠ 0 ∧ has act t then val t else st.pred q t
  vec : ∀ c t, t < 32 → st'.vreg c t = st.vreg c t
  uni : ∀ c, st'.sreg c = st.sreg c

/-- No register and no predicate changes. -/
structure SameRegs (st st' : Strand) : Prop where
  vec : ∀ c t, t < 32 → st'.vreg c t = st.vreg c t
  uni : ∀ c, st'.sreg c = st.sreg c
  pred : ∀ p, st'.pmask p = st.pmask p

/-- No long accumulator changes. -/
def SameAccs (st st' : Strand) : Prop := st'.l0 = st.l0 ∧ st'.l1 = st.l1 ∧ st'.fl0 = st.fl0 ∧ st'.fl1 = st.fl1

/-- The instruction computes and retires: from the charged state it changes its own strand alone, and of that only registers,
predicates, long accumulators and the path's sticky flags, as `what` says of the strand before and after; then the path moves on. -/
def Computes (i : Instr) (s : State) (e : Env) (r : Run) (nfr : Word) (what : Strand → Strand → Prop) : Prop :=
  ∃ u t st1 st', exec i s = .next t ∧ OnlyStrand (paid i e s) u e.k st1 ∧ OnlyRegs e.st st1 e.pi nfr ∧ what e.st st1 ∧
    Retires u t e r none false st1 st'

/-- t is u with the issuing path stopped (14 R344, R345): the path holds the record f unless it has one already, and has no run. Where the
stop is at an instruction, the path goes on at `resume` after a resumption, as it stood before a chain was issued again; where it is
before a chain, nothing of that chain has issued. The other path of a divided strand ends its run at a word boundary; the strand drains
before its image is written. When `alone`, only the path stops (15 R371). The lane issues nothing until a path is chosen. -/
structure Stops (u t : State) (e : Env) (f : PathFault) (resume : Word) (alone : Bool) (st1 st' : Strand) : Prop where
  before : u.strand e.k = some st1
  strand : t.strand e.k = some st'
  path : st'.path e.pi = let p := st1.path e.pi
    if p.stopsBefore f resume then { p.rewind with run := none, fault := some (p.fault.getD f) }
    else { p with
      pc := resume, hints := {}, chainLen := 0, run := none, fault := some (p.fault.getD f), reissue := none, awaits := none
      half := p.reissue.any (·.half), act := (p.reissue.map (·.live)).getD p.act }
  other : e.pi = 0 ∨ e.pi = 1 → st'.path (1 - e.pi) =
    if alone || !st1.divided then st1.path (1 - e.pi)
    else { st1.path (1 - e.pi) with
      run := none, hints := {}, chainLen := 0
      pc := if (st1.path (1 - e.pi)).chainLen = 0 then (st1.path (1 - e.pi)).pc else (st1.path (1 - e.pi)).chainPc }
  mode : st'.mode = if alone then st1.mode else if st1.mode = .running then .stopping else st1.mode
  rest : st' = { st1 with path0 := st'.path0, path1 := st'.path1, mode := st'.mode }
  strands : ∀ k, k ≠ e.k → t.strand k = u.strand k
  lane : t.cur = none
  package : t = { u with strands := t.strands, cur := none }

/-- The energy of a chain that a check stops as it issues (14 R364): its hints by class 2, its instruction by its class, one event at least; PLN by class 1,
MRD, which runs no beat, by class 2 (log 49, DEDUCED). -/
def spent (e : Env) (s : State) : State :=
  let (c, n) := match e.i with
    | .pln .. => (1, 1)
    | .mrd .. => (2, 1)
    | i => wordClass i (decide (e.act ≠ 0))
  ((begun s e).charge e.core e.ctx 2 e.p.chainLen).charge e.core e.ctx c (max n 1)

/-- Issue comes as far as decoding the chain: nothing holds or stops it before (06 R137, R146; 15 R370; 12 R284; 03 R67). -/
abbrev Reaches (i : Instr) (s : State) (e : Env) (r : Run) : Prop :=
  envOf i s = some (e, r) ∧ r.words + e.len ≤ runLimit e.g.hdr.version ∧ lookaheadHeld (begun s e) e.p e.len = false ∧
  breakpoints (begun s e) e = [] ∧ guardHeld (begun s e) e = false ∧ deferredStop (begun s e) e = none

/-- u is s with one operation in flight more, under the next number: o as the path issues it (03 R63), tagged by Lantern and watched
or not (15 R378, R383); the path counts it among its outstanding ones with the instruction's lookahead (06 R137). -/
structure StartsOp (s u : State) (e : Env) (o : Op) (st1 : Strand) : Prop where
  started : ∃ o', u.op s.nextId = some o' ∧ o' = { o with
    strand := e.k, gang := e.st.gang, ctx := e.ctx, core := e.core, path := e.opPath, pc := e.chain, mask := e.act, active := e.p.act
    named := e.vregsNamed, from1 := e.pi == 1, born := s.now
    watched := o'.watched, tags := o'.tags }
  ops : ∀ j, j ≠ s.nextId → u.op j = s.op j
  nextId : u.nextId = s.nextId + 1
  strand : u.strand e.k = some st1
  outs : st1 = e.st.setPath e.pi { e.p with outs := e.p.outs ++ [(s.nextId, e.p.words + e.len, lookahead e.i)] }
  strands : ∀ k, k ≠ e.k → u.strand k = s.strand k
  cores : ∀ c, u.core c = { s.core c with lantern := (u.core c).lantern }
  package : u = { s with ops := u.ops, nextId := u.nextId, strands := u.strands, cores := u.cores }

/-- The instruction starts operation o from the state `base` and retires. -/
def Launches (i : Instr) (s base : State) (e : Env) (r : Run) (o : Op) : Prop :=
  ∃ u t st1 st', exec i s = .next t ∧ StartsOp base u e o st1 ∧ Retires u t e r none false st1 st'

/-- t differs from s in strand e.k, in a long run counted on its core, and in which path issues next, alone. -/
structure Local (s t : State) (e : Env) : Prop where
  strands : ∀ k, k ≠ e.k → t.strand k = s.strand k
  cores : ∀ c, t.core c = { s.core c with evc0 := (t.core c).evc0 }
  counts : ∀ c, c ≠ e.core → (t.core c).evc0 = (s.core c).evc0
  package : t = { s with strands := t.strands, cores := t.cores, cur := t.cur }

end Sys2Proof.Machine
end

