-- ==== Sys2Proof/Certificates/Slice0/Obligations.lean ====
section
/-!
DEFINITION. Sys2Proof/Certificates/Slice0/Obligations.lean: the statements for the provers. A statement about an instruction holds
for every state in which it issues (Issues) and says that exec answers a next state, what that state holds, and that nothing
else changed.
-/

namespace Sys2Proof.Machine

/-! Integer instructions (08 R183 to R188) -/

/-- The nearest n-bit signed number to an integer. -/
def clamped (n : Nat) (i : Int) : BitVec n := BitVec.ofInt n (max (-(2 ^ (n - 1) : Int)) (min i (2 ^ (n - 1) - 1)))
/-- Operands of an instruction under D64: 64 bits from a pair; else 32 (08 R182). -/
def Env.operand (e : Env) (x : BitVec 1) (c : BitVec 7) (t : Nat) : BitVec e.n := BitVec.ofNat e.n (e.get x c e.w t)
def Env.operand32 (e : Env) (x : BitVec 1) (c : BitVec 7) (t : Nat) : Word := BitVec.ofNat 32 (e.get x c 1 t)

/-- Integer instructions on two operands of one width: the result, with or without SAT (08 R183, R185). -/
def wideBinary : Instr → Option (BitVec 1 × BitVec 7 × BitVec 7 × BitVec 7 × (Bool → (n : Nat) → BitVec n → BitVec n → BitVec n))
  | .iadd _ d a b x => some (x, d, a, b, fun sat n p q => if sat then clamped n (p.toInt + q.toInt) else p + q)
  | .isub _ d a b x => some (x, d, a, b, fun sat n p q => if sat then clamped n (p.toInt - q.toInt) else p - q)
  | .imul _ d a b x => some (x, d, a, b, fun _ _ p q => p * q)
  | .min _ d a b x => some (x, d, a, b, fun _ _ p q => if p.sle q then p else q)
  | .max _ d a b x => some (x, d, a, b, fun _ _ p q => if p.sle q then q else p)
  | .and _ d a b x => some (x, d, a, b, fun _ _ p q => p &&& q)
  | .or _ d a b x => some (x, d, a, b, fun _ _ p q => p ||| q)
  | .xor _ d a b x => some (x, d, a, b, fun _ _ p q => p ^^^ q)
  | .andn _ d a b x => some (x, d, a, b, fun _ _ p q => p &&& ~~~q)
  | _ => none

/-- Control word of BFX and BFI: position and width (08 R184). -/
def fieldPos (b : Word) : Nat := min (b.toNat % 256) 32
def fieldLen (b : Word) : Nat := min (b.toNat / 256 % 256) (32 - fieldPos b)
def fieldMask (b : Word) : Word := BitVec.ofNat 32 ((2 ^ fieldLen b - 1) * 2 ^ fieldPos b)

/-- Integer instructions of other shapes: x, destination, its registers, and the value for a thread (08 R183 to R185, R188). -/
def integerValue (e : Env) : Instr → Option (BitVec 1 × BitVec 7 × Nat × (Nat → Nat))
  | .imulh _ d a b x => some (x, d, 1, fun t => (BitVec.ofInt 32 ((e.operand32 x a t).toInt * (e.operand32 x b t).toInt / 2 ^ 32)).toNat)
  | .imad _ d a b x => some (x, d, 1, fun t =>
      let p := e.operand32 x a t
      let q := e.operand32 x b t
      let c := e.operand32 x (e.h.third.getD d) t
      (if e.h.sat then clamped 32 (p.toInt * q.toInt + c.toInt) else p * q + c).toNat)
  | .lea _ d a b x => some (x, d, 2, fun t => (BitVec.ofNat 64 (e.get x a 2 t) + BitVec.ofNat 64 (e.get x b 1 t)).toNat)
  | .iabs _ d a x => some (x, d, 1, fun t =>
      let v : Int := (e.operand32 x a t).toInt.natAbs
      (if e.h.sat then clamped 32 v else BitVec.ofInt 32 v).toNat)
  | .clz _ d a x => some (x, d, 1, fun t => ((List.range 32).takeWhile fun n => !(e.operand32 x a t).getMsbD n).length)
  | .popc _ d a x => some (x, d, 1, fun t => ((List.range 32).filter fun n => (e.operand32 x a t).getLsbD n).length)
  | .brev _ d a x => some (x, d, 1, fun t => (e.operand32 x a t).reverse.toNat)
  | .mov _ d a x => some (x, d, e.w, fun t => (e.operand x a t).toNat)
  | .bfx _ d a b x => some (x, d, 1, fun t =>
      let c := e.operand32 x b t
      let f := (e.operand32 x a t).extractLsb' (fieldPos c) (fieldLen c)
      (if c.getLsbD 16 then f.signExtend 32 else f.setWidth 32).toNat)
  | .bfi _ d a b x => some (x, d, 1, fun t =>
      let c := e.operand32 x b t
      ((e.operand32 x (e.h.third.getD d) t &&& ~~~fieldMask c) ||| ((e.operand32 x a t <<< fieldPos c) &&& fieldMask c)).toNat)
  | .sel _ p d a b x => some (x, d, e.w, fun t => (if e.st.pred p.toNat t then e.operand x a t else e.operand x b t).toNat)
  | .shl _ d a b x => some (x, d, e.w, fun t => (e.operand x a t <<< (e.get x b 1 t % 256)).toNat)
  | .shr _ d a b x => some (x, d, e.w, fun t => (e.operand x a t >>> (e.get x b 1 t % 256)).toNat)
  | .sar _ d a b x => some (x, d, e.w, fun t => ((e.operand x a t).sshiftRight (e.get x b 1 t % 256)).toNat)
  | _ => none

/-- The immediate of an I-format word: WIDE's payload, signed, above its eight bits; without WIDE, the eight bits (08 R186, 06
R140). -/
def Env.immediateOf (e : Env) (i : BitVec 8) : Int := match e.h.wide with
  | some w => w.toInt * 256 + i.toNat
  | none => i.toNat
/-- I-format instructions: the source if any, and the result from it and the immediate (08 R186). -/
def immediateOp : Instr → Option (BitVec 1 × BitVec 7 × Option (BitVec 7) × BitVec 8 × ((n : Nat) → BitVec n → Int → BitVec n))
  | .movi _ d i => some (0, d, none, i, fun n _ v => BitVec.ofInt n v)
  | .moviU _ d i => some (1, d, none, i, fun n _ v => BitVec.ofInt n v)
  | .iaddI _ d a i => some (0, d, some a, i, fun n p v => p + BitVec.ofInt n v)
  | .iaddIu _ d a i => some (1, d, some a, i, fun n p v => p + BitVec.ofInt n v)
  | .shlI _ d a i => some (0, d, some a, i, fun _ p v => p <<< (BitVec.ofInt 32 v).toNat)
  | .shlIu _ d a i => some (1, d, some a, i, fun _ p v => p <<< (BitVec.ofInt 32 v).toNat)
  | .shrI _ d a i => some (0, d, some a, i, fun _ p v => p >>> (BitVec.ofInt 32 v).toNat)
  | .shrIu _ d a i => some (1, d, some a, i, fun _ p v => p >>> (BitVec.ofInt 32 v).toNat)
  | .sarI _ d a i => some (0, d, some a, i, fun _ p v => p.sshiftRight (BitVec.ofInt 32 v).toNat)
  | .sarIu _ d a i => some (1, d, some a, i, fun _ p v => p.sshiftRight (BitVec.ofInt 32 v).toNat)
  | .andI _ d a i => some (0, d, some a, i, fun n p v => p &&& BitVec.ofInt n v)
  | .andIu _ d a i => some (1, d, some a, i, fun n p v => p &&& BitVec.ofInt n v)
  | .orI _ d a i => some (0, d, some a, i, fun n p v => p ||| BitVec.ofInt n v)
  | .orIu _ d a i => some (1, d, some a, i, fun n p v => p ||| BitVec.ofInt n v)
  | .xorI _ d a i => some (0, d, some a, i, fun n p v => p ^^^ BitVec.ofInt n v)
  | .xorIu _ d a i => some (1, d, some a, i, fun n p v => p ^^^ BitVec.ofInt n v)
  | _ => none

/-- The condition of ICMP (08 R187). -/
def icmpCondition (c : BitVec 3) {n : Nat} (p q : BitVec n) : Bool :=
  match c.toNat with
  | 0 => p == q
  | 1 => p != q
  | 2 => p.slt q
  | 3 => p.sle q
  | 4 => q.slt p
  | 5 => q.sle p
  | 6 => p.ult q
  | _ => p.ule q

/-! Floating-point, conversion, function and cross-lane instructions (08 R189 to R206, 09 R207 to R219) -/

/-- An FP32 operand: subnormals flushed under FZ32, then negated by its MOD bit (08 R189, 05 R108). -/
def Env.fp32In (e : Env) (x : BitVec 1) (c : BitVec 7) (neg : Bool) (t : Nat) : FV := (fp32.input e.fz32 (e.get x c 1 t)).negIf neg
/-- Element j of a packed operand, FP16 or BF16 (08 R193). -/
def Env.halfIn (e : Env) (h x : BitVec 1) (c : BitVec 7) (neg : Bool) (t j : Nat) : FV :=
  ((if h = 1 then bf16 else fp16).input e.fz16 (e.get x c 1 t / 2 ^ (16 * j) % 2 ^ 16)).negIf neg
/-- An exact FP32 result rounded once, flushed and clamped under SAT, with its flags (08 R189). -/
def Env.fp32Out (e : Env) (v : FV × Nat) : Nat × Nat := fp32.finish e.rm e.fz32 e.h.sat v
/-- Two packed results, each rounded once; the flags of both (08 R193). -/
def Env.halfOut (e : Env) (h : BitVec 1) (lo hi : FV × Nat) : Nat × Nat :=
  let f := if h = 1 then bf16 else fp16
  let l := f.finish e.rm e.fz16 e.h.sat lo
  let m := f.finish e.rm e.fz16 e.h.sat hi
  (l.1 + 2 ^ 16 * m.1, orFlags l.2 m.2)
/-- The active threads below t whose key is t's (08 R203). -/
def Env.sameKey (e : Env) (key : Nat → Nat) (t : Nat) : List Nat := e.ts.filter fun u => u < t && key u == key t

/-- Instructions whose results raise flags: x, the threads written, destination, registers, and for a thread the value and the flags. -/
def flaggedValue (s : State) (e : Env) : Instr → Option (BitVec 1 × Mask × BitVec 7 × Nat × (Nat → Nat × Nat))
  | .fadd _ d a b x => some (x, e.act, d, 1, fun t => e.fp32Out (FV.add e.rm (e.fp32In x a e.h.nega t) (e.fp32In x b e.h.negb t)))
  | .fsub _ d a b x => some (x, e.act, d, 1, fun t => e.fp32Out (FV.add e.rm (e.fp32In x a e.h.nega t) (e.fp32In x b e.h.negb t).neg))
  | .fmul _ d a b x => some (x, e.act, d, 1, fun t => e.fp32Out (FV.mul (e.fp32In x a e.h.nega t) (e.fp32In x b e.h.negb t)))
  | .ffma _ d a b x => some (x, e.act, d, 1, fun t =>
      e.fp32Out (FV.mulAdd e.rm (e.fp32In x a e.h.nega t) (e.fp32In x b e.h.negb t) (e.fp32In x (e.h.third.getD d) e.h.negc t)))
  | .fmin _ d a b x => some (x, e.act, d, 1, fun t => minMax false (e.fp32In x a e.h.nega t) (e.fp32In x b e.h.negb t))
  | .fmax _ d a b x => some (x, e.act, d, 1, fun t => minMax true (e.fp32In x a e.h.nega t) (e.fp32In x b e.h.negb t))
  | .frnd _ d a x => some (x, e.act, d, 1, fun t => toIntegral e.rm (e.fp32In x a e.h.nega t))
  | .hadd2 _ h d a b x => some (x, e.act, d, 1, fun t =>
      let v (j : Nat) := FV.add e.rm (e.halfIn h x a e.h.nega t j) (e.halfIn h x b e.h.negb t j)
      e.halfOut h (v 0) (v 1))
  | .hmul2 _ h d a b x => some (x, e.act, d, 1, fun t =>
      let v (j : Nat) := FV.mul (e.halfIn h x a e.h.nega t j) (e.halfIn h x b e.h.negb t j)
      e.halfOut h (v 0) (v 1))
  | .hfma2 _ h d a b x => some (x, e.act, d, 1, fun t =>
      let v (j : Nat) := FV.mulAdd e.rm (e.halfIn h x a e.h.nega t j) (e.halfIn h x b e.h.negb t j) (e.halfIn h x (e.h.third.getD d) e.h.negc t j)
      e.halfOut h (v 0) (v 1))
  | .fdot2 _ h d a b x => some (x, e.act, d, 1, fun t =>
      e.fp32Out (dot2 e.rm (e.halfIn h x a e.h.nega t 0) (e.halfIn h x b e.h.negb t 0) (e.halfIn h x a e.h.nega t 1)
        (e.halfIn h x b e.h.negb t 1) (e.fp32In x (e.h.third.getD d) e.h.negc t)))
  | .cvt _ f d a t' => some (0, e.act, d, if wide64 t'.toNat then 2 else 1, fun t =>
      let v := convert e.p.nfr e.rm e.h.sat f.toNat t'.toNat (e.get 0 a (if wide64 f.toNat then 2 else 1) t)
      (extend t'.toNat v.1, v.2))
  | .fmt _ f d a t' => some (0, e.act, d, fmtRegs f.toNat t'.toNat t'.toNat, fun t =>
      let n := fmtCount f.toNat t'.toNat
      let v (j : Nat) := convert e.p.nfr e.rm e.h.sat f.toNat t'.toNat
        (e.get 0 a (fmtRegs f.toNat t'.toNat f.toNat) t / 2 ^ (fmtBits f.toNat * j) % 2 ^ fmtBits f.toNat)
      (((List.range n).map fun j => (v j).1 * 2 ^ (fmtBits t'.toNat * j)).sum, (List.range n).foldl (fun g j => orFlags g (v j).2) 0))
  | .kcomb _ d a b =>
      let key := e.get 0 a 1
      some (0, maskOf (e.ts.filter fun t => (e.sameKey key t).isEmpty), d, 1, fun t =>
        (e.ts.filter fun u => t < u && key u == key t).foldl (fun (g : Nat × Nat) u =>
          let c := e.combine b g.1 (e.get 0 d 1 u)
          (c.1, orFlags g.2 c.2)) (e.get 0 d 1 t, 0))
  | .sfe _ d a f _ _ =>
      if f.toNat < 16 then some (0, e.act, d, 1, fun t => builtin f.toNat e.fz32 (e.get 0 a 1 t))
      else match tableImage s e.ctx e.p.run (f.toNat - 16) with
        | some tab =>
          if e.ts.any fun t => tableFails s e.die e.ctx e.p.run (f.toNat - 16) (tab.touches e.fz32 (e.get 0 a 1 t)) then none
          else some (0, e.act, d, 1, fun t => tab.eval e.fz32 (e.get 0 a 1 t))
        | none => none
  | .lrd _ d l => some (1, e.act, d, 1, fun _ => (e.st.acc l).read e.rm e.fz32)
  | .lvar _ d a => some (1, e.act, d, 1, fun _ =>
      let v := variance (e.st.acc 0) (e.st.acc 1) (e.st.sreg a.toNat).toNat
      if v.isNan then (fp32.qnan, flagInv) else fp32.round e.rm e.fz32 v)
  | _ => none
/-- The flags an instruction raises: those of its one computation, or of all the threads it computes for. -/
def flagsOf (x : BitVec 1) (e : Env) (m : Mask) (f : Nat → Nat × Nat) : Nat :=
  if x = 1 then (f (lowest e.act)).2 else unionFlags ((active m).map fun t => (f t).2)

/-- The source thread of SHFL: index, up, down, butterfly, rotate (08 R199). -/
def shflSource (m : BitVec 3) (t n : Nat) : Option Nat :=
  match m.toNat with
  | 0 => some n
  | 1 => if n ≤ t then some (t - n) else none
  | 2 => if t + n < 32 then some (t + n) else none
  | 3 => some (t ^^^ n)
  | _ => some ((t + n) % 32)
/-- Cross-lane and bit instructions without flags: x, destination, registers, value for a thread (08 R191, R197 to R206). -/
def laneValue (e : Env) : Instr → Option (BitVec 1 × BitVec 7 × Nat × (Nat → Nat))
  | .fcls _ d a x => some (x, d, 1, fun t => classOf ((fp32.value (e.get x a 1 t)).negIf e.h.nega))
  | .pack _ m d a b x => some (x, d, 1, fun t =>
      let p := e.operand32 x a t
      let q := e.operand32 x b t
      let old := e.operand32 x d t
      let s8 (w : Word) : BitVec 8 := clamped 8 w.toInt
      let u8 (w : Word) : BitVec 8 := BitVec.ofInt 8 (max 0 (min w.toInt 255))
      let v : Word := match m.toNat with
        | 0 => q.extractLsb' 0 16 ++ p.extractLsb' 0 16
        | 1 => q.extractLsb' 16 16 ++ p.extractLsb' 16 16
        | 2 => clamped 16 q.toInt ++ clamped 16 p.toInt
        | 3 => BitVec.ofInt 16 (max 0 (min q.toInt 65535)) ++ BitVec.ofInt 16 (max 0 (min p.toInt 65535))
        | 4 => old.extractLsb' 16 16 ++ (s8 q ++ s8 p)
        | 5 => (s8 q ++ s8 p) ++ old.extractLsb' 0 16
        | 6 => old.extractLsb' 16 16 ++ (u8 q ++ u8 p)
        | _ => (u8 q ++ u8 p) ++ old.extractLsb' 0 16
      v.toNat)
  | .unpk _ m d a b x => some (x, d, 1, fun t =>
      let n := if m.toNat < 2 then 8 else if m.toNat < 4 then 16 else 4
      let f := (e.operand32 x a t).extractLsb' (n * (e.get x b 1 t % (32 / n))) n
      (if m.getLsbD 0 then f.signExtend 32 else f.setWidth 32).toNat)
  | .shfl _ m d a b => some (0, d, 1, fun t => match shflSource m t (e.get 0 b 1 t % 32) with
      | some u => if has e.act u then e.get 0 a 1 u else e.get 0 a 1 t
      | none => e.get 0 a 1 t)
  | .vote _ m d a =>
      if m = 2 then some (0, d, 1, fun _ => (e.act &&& e.st.pmask a.toNat).toNat)
      else if m = 4 then some (0, d, 1, fun _ => (e.ts.filter fun t => e.st.pred a.toNat t).length) else none
  | .rdfl _ d a b => if e.act = 0 then none else some (if b = 1 then 1 else 0, d, 1, fun _ => e.get 0 a 1 (lowest e.act))
  | .prfx _ d a m => some (0, d, 1, fun t =>
      let v (u : Nat) : Nat := e.get 0 a 1 u
      match m.toNat with
      | 0 => ((e.ts.filter (· ≤ t)).map v).sum
      | 1 => ((e.ts.filter (· < t)).map v).sum
      | 2 => (e.ts.map v).sum
      | _ => (BitVec.ofInt 32 (((e.ts.filter (· ≤ t)).map fun u => (e.operand32 0 a u).toInt).foldl max (-2 ^ 31))).toNat)
  | .rebal _ d a b => some (0, d, 2, fun t =>
      let total (us : List Nat) : Nat := (us.map (e.get 0 a 1)).sum
      let place := e.get 0 b 1 (lowest e.act) + t
      match e.ts.find? fun u => place < total (e.ts.filter (· ≤ u)) with
      | some u => u + 2 ^ 32 * (place - total (e.ts.filter (· < u)))
      | none => 2 ^ 32 - 1)
  | .mask _ d b => some (0, d, 1, fun t => match b.toNat with
      | 0 => e.act.toNat
      | 1 => 2 ^ t - 1
      | 2 => 2 ^ (t + 1) - 1
      | _ => 2 ^ 32 - 2 ^ (t + 1))
  | _ => none

/-! Memory instructions (07) -/

/-- Addresses of thread t: base pair and register, a register pair, or the scratchpad register, with a displacement (07 R155). -/
def Env.objectAt (e : Env) (k : Nat) (a : BitVec 7) (off : Int) (t : Nat) : Nat :=
  (BitVec.ofInt 64 ((e.st.upair (2 * k) + (e.st.src a.toNat t).toNat : Nat) + off)).toNat
def Env.pairAt (e : Env) (a : BitVec 7) (off : Int) (t : Nat) : Nat := (BitVec.ofInt 64 ((e.get 0 a 2 t : Nat) + off)).toNat
def Env.scratchAt (e : Env) (a : BitVec 7) (off : Int) (t : Nat) : Nat := (BitVec.ofInt 32 (((e.st.src a.toNat t).toNat : Nat) + off)).toNat
/-- The displacement of WIDE, in bytes (06 R136). -/
def Env.wideOff (e : Env) : Int := match e.h.wide with | some w => w.toInt | none => 0

/-- A thread, its address and where it lies: for each thread that a translation serves. -/
abbrev Places := List (Nat × Nat × Located)
/-- An operation on objects: the access, its bytes, each thread's address, the state it starts from and the operation, given where
the threads' addresses lie (07 R160, R162, R163). -/
structure ObjectAccess where
  kind : Kind
  bytes : Nat
  addr : Nat → Nat
  base : Places → State → State
  op : Places → Op
def loadOp (e : Env) (n : Nat) (sx : Bool) (d : BitVec 7) (ps : Places) : Op :=
  { kind := .load d.toNat n sx false, acc := some 0, items := ps.map fun p => { t := p.1, addr := p.2.1, src := p.2.2.bytes, rol := p.2.2.rol }
    gens := ps.map (·.2.2.gen), vregs := keysFrom d.toNat (regsOf n), cache := e.h.cache }
def storeOp (e : Env) (n : Nat) (d : BitVec 7) (ps : Places) : Op :=
  { kind := .store false, acc := some 0, outstanding := false, cache := e.h.cache, gens := ps.map (·.2.2.gen)
    items := ps.map fun p => { t := p.1, addr := p.2.1, dst := memKeys p.2.2.bytes, val := e.get 0 d (regsOf n) p.1, rol := p.2.2.rol } }
def atomicOp (e : Env) (o : Nat) (d : BitVec 7) (ret : Bool) (ps : Places) : Op :=
  let items := ps.map fun p => ({
    t := p.1, addr := p.2.1, src := p.2.2.bytes, dst := memKeys p.2.2.bytes
    val := (e.atomOperand o d p.1).1, cmp := (e.atomOperand o d p.1).2, rol := p.2.2.rol } : Item)
  let (items, lines) := numberLines (fun i => (i.dst.take 1).map lineOf) items (128 / atomBytes o)
  { kind := .atomic o ret d.toNat (if o = 14 then e.window else 0) e.rm, acc := some 0, items, lines := List.replicate lines .waiting
    gens := ps.map (·.2.2.gen), vregs := if ret then keysFrom d.toNat (if o = 14 then 4 else atomBytes o / 4) else [], outstanding := ret }
/-- The core's copies of the lines of an atomic go before it (04 R74). -/
def dropLines (e : Env) (ps : Places) (s : State) : State :=
  s.invalidate e.core (dedup (ps.flatMap fun p => (memKeys p.2.2.bytes ++ memKeys p.2.2.bytes).map lineOf)).contains false
def objectAccess (e : Env) : Instr → Option ObjectAccess
  | .ldG _ c d a k _ u => some ⟨.read, sizeOf c, e.objectAt k.toNat a (e.wideOff + u.toNat * sizeOf c), fun _ s => s, loadOp e (sizeOf c) false d⟩
  | .ldGExt _ c d a k _ u =>
      some ⟨.read, sizeExt c, e.objectAt k.toNat a (e.wideOff + u.toNat * sizeExt c), fun _ s => s, loadOp e (sizeExt c) (c != 0) d⟩
  | .stG _ c d a k _ u => some ⟨.write, sizeOf c, e.objectAt k.toNat a (e.wideOff + u.toNat * sizeOf c), fun _ s => s, storeOp e (sizeOf c) d⟩
  | .stGB128 _ d a k _ => some ⟨.write, 16, e.objectAt k.toNat a e.wideOff, fun _ s => s, storeOp e 16 d⟩
  | .atom _ o d a k _ => some ⟨.atomic, atomBytes o.toNat, e.objectAt k.toNat a (if o = 14 then 0 else e.wideOff), dropLines e, atomicOp e o.toNat d true⟩
  | .red _ o d a k _ => some ⟨.atomic, atomBytes o.toNat, e.objectAt k.toNat a (if o = 14 then 0 else e.wideOff), dropLines e, atomicOp e o.toNat d false⟩
  | _ => none

/-- Scratchpad loads and stores: bytes, displacement, and for a load its sign extension (07 R160). -/
def scratchLoad (e : Env) : Instr → Option (BitVec 7 × BitVec 7 × Nat × Int × Bool)
  | .ldS _ c d a o _ u => some (d, a, sizeOf c, e.wideOff + (o.toNat + 32 * u.toNat) * sizeOf c, false)
  | .ldSExt _ c d a o _ u => some (d, a, sizeExt c, e.wideOff + (o.toNat + 32 * u.toNat) * sizeExt c, c != 0)
  | _ => none
def scratchStore (e : Env) : Instr → Option (BitVec 7 × BitVec 7 × Nat × Int)
  | .stS _ c d a o _ u => some (d, a, sizeOf c, e.wideOff + (o.toNat + 32 * u.toNat) * sizeOf c)
  | .stSB128 _ d a _ => some (d, a, 16, e.wideOff)
  | _ => none
/-- The register value of a load of n bytes: extended from its top bit, or with zeros (07 R160). -/
def extended (n : Nat) (sx : Bool) (v : Nat) : Nat := if sx then (BitVec.ofInt 32 (BitVec.ofNat (8 * n) v).toInt).toNat else v
/-- No watchpoint of the core is enabled (15 R377). -/
def noWatch (s : State) (core : Nat) : Prop := ∀ n, n < 4 → (rd {} (s.core core).wp n).ctl.getLsbD 14 = false
/-- The address and the operation of LDU (07 R155, R161). -/
def Env.uniformAt (e : Env) (k : BitVec 2) (a : BitVec 7) : Nat :=
  (BitVec.ofInt 64 ((e.st.upair (2 * k.toNat) + (e.st.sreg a.toNat).toNat : Nat) + e.wideOff)).toNat
def Env.uniformLoad (e : Env) (d a : BitVec 7) (k : BitVec 2) (n : Nat) (l : Located) : Op :=
  { kind := .load d.toNat n false true, acc := some 0, gens := [l.gen], sregs := keysFrom d.toNat (regsOf n), cache := e.h.cache
    items := [{ t := lowest e.act, addr := e.uniformAt k a, src := l.bytes, rol := l.rol }] }
/-- The one place a strand-wide access names. -/
def uniformItem (e : Env) (addr : Nat) (l : Located) : Item := { t := lowest e.act, addr, src := l.bytes, rol := l.rol }

/-! Copies, gathers, batches, tags and key tables (03 R57 to R70; 04 R84 to R92; 07 R165 to R178) -/

/-- One side of a copy: bytes of objects or of the scratchpad, and each thread's address. -/
inductive Side where
  | object (kind : Kind) (n : Nat) (addr : Nat → Nat)
  | scratch (n : Nat) (addr : Nat → Nat)
def Side.addr : Side → Nat → Nat
  | .object _ _ a => a
  | .scratch _ a => a
/-- Where a thread's side lies: the bytes to read, the bytes to write, and the generation translated against. -/
def Side.lies (x : Side) (s : State) (e : Env) (t : Nat) : Except Failed (List Src × List Nat × List GenRef) := match x with
  | .object kind n addr => (translate s e.die e.ctx (addr t) n kind).map fun l => (l.bytes, memKeys l.bytes, [l.gen])
  | .scratch n addr => (Machine.scratch e.g (addr t) n).map fun ks => (ks.map Src.mem, ks, [])
/-- CPY and CPYV: source, destination, whether it is an object, and for CPYV its mask register (07 R170, R171). -/
def copySides (e : Env) : Instr → Option (Side × Side × Bool × Option (BitVec 7))
  | .cpySFromG _ c d a k _ u => some (.object .read (4 * 2 ^ c.toNat) (e.objectAt k.toNat a (u.toNat * (4 * 2 ^ c.toNat))),
      .scratch (4 * 2 ^ c.toNat) (e.scratchAt d e.wideOff), false, none)
  | .cpyGFromS _ c d a k _ u => some (.scratch (4 * 2 ^ c.toNat) (e.scratchAt d e.wideOff),
      .object .shadow (4 * 2 ^ c.toNat) (e.objectAt k.toNat a (u.toNat * (4 * 2 ^ c.toNat))), true, none)
  | .cpySFromS _ c d a _ => some (.scratch (4 * 2 ^ c.toNat) (e.scratchAt a 0), .scratch (4 * 2 ^ c.toNat) (e.scratchAt d 0), false, none)
  | .cpyGFromGB4 _ d a k _ => some (.object .read 4 (e.objectAt k.toNat a 0), .object .shadow 4 (e.objectAt (k.toNat + 1) d 0), true, none)
  | .cpyGFromGB8 _ d a k _ => some (.object .read 8 (e.objectAt k.toNat a 0), .object .shadow 8 (e.objectAt (k.toNat + 1) d 0), true, none)
  | .cpyGFromGB16 _ d a k _ => some (.object .read 16 (e.objectAt k.toNat a 0), .object .shadow 16 (e.objectAt (k.toNat + 1) d 0), true, none)
  | .cpyvG _ d a k _ => some (.object .read 128 (e.objectAt (k.toNat + 1) (e.h.third.getD a) 0), .object .tile 128 (e.objectAt k.toNat a e.wideOff), true, some d)
  | .cpyvS _ d a k _ => some (.scratch 128 (e.scratchAt (e.h.third.getD a) 0), .object .tile 128 (e.objectAt k.toNat a e.wideOff), true, some d)
  | _ => none
/-- The items of a copy before they are numbered into line operations. -/
def copyItems (e : Env) (src : Side) (sb : Nat → List Src) (db : Nat → List Nat) (mask : Option (BitVec 7)) : List Item :=
  e.ts.map fun t => { t, addr := src.addr t, src := sb t, dst := db t, cmp := match mask with | some d => e.get 0 d 2 t | none => 0 }
/-- The line operations of a copy: pieces of one source line and one destination line, or of one destination tile (03 R59, R61), each with
the translations that it ends (01 R34). -/
def copyOp (e : Env) (mask : Option (BitVec 7)) (items : List Item) (trs : List (List GenRef)) : Op :=
  let key (i : Item) : List Nat := match mask with
    | some _ => i.dst
    | none => ((memKeys i.src).take 1).map lineOf ++ (i.dst.take 1).map lineOf
  let (its, n) := numberLines key items
  let gens := ((its.zip trs).map fun x => x.2.map fun g => { g with line := some x.1.line }).flatten
  match mask with
  | some d => { kind := .copyv d.toNat, acc := some 1, items := its, gens, lines := List.replicate n .waiting, vregs := [d.toNat, d.toNat + 1] }
  | none => { kind := .copy (e.h.credit.map (·.toNat)), acc := some 1, items := its, gens, lines := List.replicate n .waiting, outstanding := false }
/-- A credit is legal: a CORE slot the kernel has, for a destination in the scratchpad (03 R70, 06 R140, R151). -/
def creditFits (e : Env) (object : Bool) : Prop := ∀ c, e.h.credit = some c → object = false ∧ c.toNat < 16 ∧ c.toNat < e.g.hdr.nbcore

/-- GATH: element bytes, index addresses, and the value object's base for GATH.x (07 R172). -/
def gatherForm (e : Env) : Instr → Option (BitVec 7 × Nat × Nat × (Nat → Nat) × Option (Nat × Nat))
  | .gathE _ c d a k _ => some (d, 2 * 2 ^ c.toNat, 2 * 2 ^ c.toNat, fun t => (e.st.upair (2 * k.toNat) + (e.st.src a.toNat t).toNat * (2 * 2 ^ c.toNat)) % 2 ^ 64, none)
  | .gathXB16 _ d a k _ => some (d, 2, 4, fun t => (e.st.upair (2 * k.toNat) + (e.st.src a.toNat t).toNat * 4) % 2 ^ 64, some (e.st.upair (2 * k.toNat), e.st.upair (2 * (k.toNat + 1))))
  | .gathXB32 _ d a k _ => some (d, 4, 4, fun t => (e.st.upair (2 * k.toNat) + (e.st.src a.toNat t).toNat * 4) % 2 ^ 64, some (e.st.upair (2 * k.toNat), e.st.upair (2 * (k.toNat + 1))))
  | .gathXB64 _ d a k _ => some (d, 8, 4, fun t => (e.st.upair (2 * k.toNat) + (e.st.src a.toNat t).toNat * 4) % 2 ^ 64, some (e.st.upair (2 * k.toNat), e.st.upair (2 * (k.toNat + 1))))
  | _ => none

/-- The function of a key-table instruction: 0 insert, 1 probe, 2 delete, 3 to 7 accumulate; its registers (07 R177). -/
def keyForm : Instr → Option (Nat × BitVec 7 × BitVec 7 × BitVec 3 × BitVec 3)
  | .hins _ d a p h => some (0, d, a, p, h)
  | .hprb _ d a p h => some (1, d, a, p, h)
  | .hdel _ d a p h => some (2, d, a, p, h)
  | .haccAdd _ d a p h => some (3, d, a, p, h)
  | .haccMin _ d a p h => some (4, d, a, p, h)
  | .haccMax _ d a p h => some (5, d, a, p, h)
  | .haccOr _ d a p h => some (6, d, a, p, h)
  | .haccFadd _ d a p h => some (7, d, a, p, h)
  | _ => none
/-- The threads whose flags meet an enable have no effect, and are named in the record; the others have theirs, as `what` says of their mask, from a
state `base`; the path then stops after the instruction (05 R105, 14 R344). The record's cause is that of the lowest enabled flag of any thread (log 26,
DEDUCED). -/
def TrapsThreads (i : Instr) (s base : State) (e : Env) (r : Run) (flags : Nat → Nat) (what : Mask → Strand → Prop) : Prop :=
  let caught (t : Nat) : Nat := trapped e.p.nfr (flags t)
  let bad : List Nat := e.ts.filter fun t => caught t != 0
  let good : List Nat := e.ts.filter fun t => caught t == 0
  bad ≠ [] → ∃ u v t st1 st2 st3, exec i s = .next t ∧ OnlyStrand base u e.k st1 ∧
    OnlyRegs e.st st1 e.pi (e.p.nfr ||| BitVec.ofNat 32 (unionFlags (good.map flags)) <<< 4) ∧ SameAccs e.st st1 ∧ what (maskOf good) st1 ∧
    Retires u v e r none false st1 st2 ∧
    Stops v t e { cause := numericCause (unionFlags (bad.map caught)), emask := maskOf bad, pc := e.chain } e.after false st2 st3

/-- A strand that stops with no effect: the record of a fault for the whole strand (14 R344). -/
def wholeFault (e : Env) (cause qual addr : Nat) : PathFault := { cause, qual, emask := e.p.act, whole := true, pc := e.chain, addr }
/-- The instruction stops the strand with no effect, from a state `base`. -/
def StopsFrom (i : Instr) (s base : State) (e : Env) (cause qual addr : Nat) : Prop :=
  ∃ t st', exec i s = .next t ∧ Stops base t e (wholeFault e cause qual addr) e.after false e.st st'
/-- The instruction stops the strand with no effect. -/
def StopsWhole (i : Instr) (s : State) (e : Env) (cause qual addr : Nat) : Prop :=
  ∃ t st', exec i s = .next t ∧ Stops (paid i e s) t e (wholeFault e cause qual addr) e.after false e.st st'

/-! Control flow (12 R292 to R297, R309 to R316) -/

/-- A taken branch from u to x: the run ends, and a trace record of it follows (12 R309, 15 R381). -/
def Jumps (i : Instr) (s : State) (e : Env) (r : Run) (x : Word) (what : Strand → Strand → Prop) : Prop :=
  ∃ u v st1 st', exec i s = .next (v.trace e.k e.pi 1 x e.p.act e.pc) ∧ OnlyStrand (paid i e s) u e.k st1 ∧ OnlyRegs e.st st1 e.pi e.p.nfr ∧
    SameAccs e.st st1 ∧ what e.st st1 ∧ Retires u v e r (some x) true st1 st'
/-- A fault of the path that leaves it at the instruction (12 R312, R313). -/
def StopsHere (i : Instr) (s : State) (e : Env) (cause qual addr : Nat) : Prop :=
  ∃ t st', exec i s = .next t ∧ Stops (paid i e s) t e { cause, qual, emask := e.p.act, pc := e.chain, addr } e.chain false e.st st'
/-- The path's strand once the instruction has issued, with the fields a divergence changes left free. -/
def Diverged (st st' : Strand) : Prop :=
  st' = { st with path0 := st'.path0, path1 := st'.path1, divided := st'.divided, nfrs := st'.nfrs, frozen := st'.frozen, stepping := st'.stepping }
/-- The control bits of one NFR with the sticky flags of another (05 R104). -/
def nfrOf (control flags : Word) : Word := (control &&& 0xFFFFFE0F) ||| (flags &&& 0x1F0)

/-- The hints of a chain once a hint word has joined them, with whether one of its kind stood there already (06 R140). -/
def hinted (h : Hints) : Instr → Option (Hints × Bool)
  | .hintWide w => some ({ h with wide := some w }, h.wide.isSome)
  | .hintMod e c n m a v r q => some ({ h with mod := some {
      rm := q, rmen := r == 1, sat := v == 1, nega := a == 1, negb := m == 1, negc := n == 1, cache := c, d64 := e == 1 } }, h.mod.isSome)
  | .hintThird t => some ({ h with third := some t }, h.third.isSome)
  | .hintGuard n p => some ({ h with guard := some (n == 1, p) }, h.guard.isSome)
  | .hintRtag r => some ({ h with rtag := some r }, h.rtag.isSome)
  | .hintTtag t => some ({ h with ttag := some t }, h.ttag.isSome)
  | .hintCredit c => some ({ h with credit := some c }, h.credit.isSome)
  | _ => none

/-- The instruction retires from u, which differs from s in its own strand alone of the strands, and otherwise as `what` says. -/
def Effects (i : Instr) (s : State) (e : Env) (r : Run) (what : State → Strand → Prop) : Prop :=
  ∃ u t st1 st', exec i s = .next t ∧ Retires u t e r none false st1 st' ∧ (∀ k, k ≠ e.k → u.strand k = s.strand k) ∧ what u st1
/-- The instruction computes from a state `base`, as Computes says from the charged one. -/
def ComputesFrom (i : Instr) (s base : State) (e : Env) (r : Run) (nfr : Word) (what : Strand → Strand → Prop) : Prop :=
  ∃ u t st1 st', exec i s = .next t ∧ OnlyStrand base u e.k st1 ∧ OnlyRegs e.st st1 e.pi nfr ∧ what e.st st1 ∧ Retires u t e r none false st1 st'
/-- t is u with the issuing path's run ended before the chain, which issues again later (12 R285). -/
structure Waits (u t : State) (e : Env) (st1 st' : Strand) : Prop where
  before : u.strand e.k = some st1
  strand : t.strand e.k = some st'
  path : st' = st1.setPath e.pi { st1.path e.pi with pc := e.chain, hints := {}, chainLen := 0, run := none }
  strands : ∀ k, k ≠ e.k → t.strand k = u.strand k
  package : t = { u with strands := t.strands, cur := none }

/-! Matrix instructions (05 R119 to R124; 10 R246 to R266) -/

/-- The 32 elements PLN packs: those of the active threads, as its format reads their registers (10 R261). -/
def Env.packed (e : Env) (a : BitVec 7) (c : BitVec 2) : List (Option FV) := (List.range 32).map fun t =>
  let w := e.get 0 a 1 t
  if has e.act t = false then none
  else some (if c = 1 then fp16.value (w % 2 ^ 16) else if c = 2 then bf16.value (w % 2 ^ 16) else fp32.value w)
/-- The block of PLN and its flags. -/
def Env.planes (e : Env) (a : BitVec 7) (p : BitVec 4) (d : BitVec 1) (c : BitVec 2) : List Byte × Nat :=
  if c = 3 then makeTs8 (d == 1) (e.packed a c)
  else makeBlock (if p = 0 then 16 else p.toNat) (0x10 + c.toNat) (d == 1) (e.packed a c)
/-- The entry an MMA or MMT puts into its core's match list (10 R247). -/
def Env.entry (e : Env) (mmt : Bool) (n : BitVec 3) (u : BitVec 5) (ra rb : BitVec 1) (p : BitVec 4) (now : Nat) : Op :=
  { kind := .mma n.toNat mmt (e.st.sreg (2 * u.toNat)).toNat (e.st.sreg (2 * u.toNat + 1)).toNat (ra == 1) (rb == 1)
      (if p = 0 then 16 else p.toNat) ((e.h.ttag.map (·.toNat)).getD 0) false
    strand := e.k, gang := e.st.gang, ctx := e.ctx, core := e.core, path := e.opPath, pc := e.chain, mask := e.act, active := e.p.act
    named := e.vregsNamed, born := now }
/-- The state in which the entry has joined its list: the chain is charged when the entry is accepted. -/
def Env.joined (e : Env) (o : Op) (s : State) : State :=
  (({ begun s e with nextId := s.nextId + 1 }).setOp s.nextId o).onCore e.core fun c => { c with matchList := c.matchList ++ [s.nextId] }
/-- The core has accepted a joint operation that has not been committed (10 R252). -/
def uncommitted (s : State) (core : Nat) : Prop := ∃ id ∈ (s.core core).queue, ∃ p, s.op id = some p ∧ (mmaKey p).isSome = true
/-- The fields of MMA and MMT. -/
def jointForm : Instr → Option (Bool × BitVec 3 × BitVec 5 × BitVec 1 × BitVec 1 × BitVec 4)
  | .mma _ n u a b p _ => some (false, n, u, a, b, p)
  | .mmt _ n u a b p _ => some (true, n, u, a, b, p)
  | _ => none

/-! Barriers (13 R338 to R342), tasks (13 R332 to R337), registers on loan (12 R300, R301) -/

/-- A slot after an arrival naming n: the phase completes with the last arrival, at CORE scope once no byte is pending (13 R339). -/
def arrived (b : BarSlot) (scope n : Nat) : BarSlot :=
  if b.arr + 1 = n ∧ (scope ≠ 1 ∨ b.pend = 0) then { b with exp := n, phase := b.phase + 1, arr := 0 } else { b with exp := n, arr := b.arr + 1 }
/-- An arrival naming n may be made: a count in range, no error, and the count of the arrivals before it (13 R339). -/
def mayArrive (b : BarSlot) (scope n : Nat) : Prop :=
  1 ≤ n ∧ n ≤ countLimit scope ∧ b.err = false ∧ (b.arr = 0 ∨ (n = b.exp ∧ b.arr ≠ b.exp))
/-- One slot has changed. -/
def OnlySlot (s u : State) (key : Nat) (b : BarSlot) : Prop := u.bar key = b ∧ ∀ j, j ≠ key → u.bar j = s.bar j
/-- The strand's target phase of one slot has changed. -/
def OnlyTarget (st st1 : Strand) (bit : Nat) (v : Option Word) : Prop := look st1.targets bit = v ∧ ∀ j, j ≠ bit → look st1.targets j = look st.targets j
/-- A weight after n splits, each of which gives half away (13 R329). -/
def halved : Nat → Nat → Nat
  | 0, w => w
  | n + 1, w => halved n (w - w / 2)
/-- A SPWN has sent nothing: its operation has begun and ended. -/
structure Unsent (s u : State) (e : Env) (st1 : Strand) : Prop where
  gone : u.op s.nextId = none
  ops : ∀ j, j ≠ s.nextId → u.op j = s.op j
  strand : u.strand e.k = some st1
  outs : st1 = { e.st with
    path0 := { e.st.path0 with outs := e.st.path0.outs.filter fun x => x.1 != s.nextId }
    path1 := { e.st.path1 with outs := e.st.path1.outs.filter fun x => x.1 != s.nextId } }
  strands : ∀ k, k ≠ e.k → u.strand k = s.strand k
  package : u = { s with nextId := s.nextId + 1, ops := u.ops, strands := u.strands }
/-- The holding's domain record is changed in one field, the gang in one holding; nothing else of the gang. -/
def OnlyGang (s u : State) (n : Nat) (g : Gang) : Prop := u.gang n = some g ∧ ∀ m, m ≠ n → u.gang m = s.gang m
/-- Memory has changed in the domain's record alone (13 R327). -/
def OnlyDomain (s u : State) (id : Nat) : Prop :=
  ∀ k, (∀ j, j < 32 → k ≠ onyxKey (domainAt s id).1 ((domainAt s id).2 + j)) → readByte u.mem k = readByte s.mem k
/-- One message of weight is on its way more. -/
def Sent (s u : State) (m : Msg) : Prop := look u.pkg.msgs s.nextId = some m ∧ ∀ j, j ≠ s.nextId → look u.pkg.msgs j = look s.pkg.msgs j

/-! Handlers (14 R353 to R358) and the function and model units (09 R209 to R244) -/

/-- What a strand image gives a strand back (14 R353). -/
structure Restored (bs : List Byte) (st : Strand) : Prop where
  allot : st.allot = imgFlags bs / 2 ^ 16 % 2 ^ 8
  vec : ∀ r t, r < st.allot → t < 32 → st.vreg r t = imgWord bs (2048 + 128 * r + 4 * t)
  uni : ∀ r, r < 64 → st.sreg r = imgWord bs (384 + 4 * r)
  pred : ∀ p, 1 ≤ p → p < 8 → st.pmask p = imgWord bs (328 + 4 * p)
  srg : st.srgCount = imgWord bs 288
/-- The image is of an undivided strand with a live thread and the record of its fault, and nothing else waits for its resumption. -/
def PlainImage (bs : List Byte) (sv : Saved) : Prop :=
  imgFv bs 0 = true ∧ imgFv bs 1 = false ∧ imgFlags bs % 2 = 0 ∧ imgLive bs 0 ≠ 0 ∧ sv.recov = none ∧ sv.aoadds = [] ∧
  sv.keep0.reissue = none ∧ sv.keep0.half = false
/-- Every other strand is as it was, but that recovery entries of a handler that has ended are done with (14 R354; log 33, DEDUCED). -/
def HandlerGone (s t : State) (k : Nat) : Prop := ∀ j, j ≠ k → t.strand j = (s.strand j).map fun st =>
  { st with recov := st.recov.map fun es => es.map fun en => if en.source = k ∧ en.handler = true then { en with done := true } else en }

/-! Steps of the units: operations in flight -/

/-- Operation id has completed (03 R63): it is gone, its strand's paths wait for it no longer, and of the strand only registers, predicates, long accumulators and the
finished counts of its access path have changed; nothing of the rest but memory, pending bytes, lines of an L1 and energy. -/
structure Completes (s t : State) (id : Nat) (o : Op) (st st' : Strand) : Prop where
  before : s.strand o.strand = some st
  strand : t.strand o.strand = some st'
  gone : t.op id = none
  ops : ∀ j, j ≠ id → t.op j = s.op j
  path0 : st'.path0 = { st.path0 with outs := st.path0.outs.filter fun x => x.1 != id }
  path1 : st'.path1 = { st.path1 with outs := st.path1.outs.filter fun x => x.1 != id }
  rest : st' = { st with
    v := st'.v, s := st'.s, p := st'.p, l0 := st'.l0, l1 := st'.l1, fl0 := st'.fl0, fl1 := st'.fl1, path0 := st'.path0, path1 := st'.path1
    finishedB := st'.finishedB }
  batches : ∀ a, o.acc ≠ some a → rd 0 st'.finishedB a = rd 0 st.finishedB a
  strands : ∀ k, k ≠ o.strand → t.strand k = s.strand k
  cores : ∀ c, t.core c = { s.core c with l1 := (t.core c).l1, energy := (t.core c).energy, charges := (t.core c).charges }
  package : t = { s with mem := t.mem, strands := t.strands, ops := t.ops, cores := t.cores, free := t.free, bars := t.bars }

/-- Operation id ends with a deferred 0xB2 of its whole strand, for what its instruction was to write lies beyond a link that is down: nothing is
written (02 R49, 03 R67). -/
def Unwritten (i : Instr) (s : State) (id : Nat) (o : Op) (st : Strand) : Prop := o.active ≠ 0 → ∃ t st', exec i s = .next t ∧
  let st1 : Strand := { st with deferred := st.deferred ++ [{
    fault := { cause := 0xB2, emask := o.active, whole := true, defer := true, pc := o.pc }, path := if st.divided then o.path else 2, acc := o.acc
    batch := o.batch, vregs := o.vregs, sregs := o.sregs, preds := o.preds, drain := st.draining }] }
  Completes (s.setStrand o.strand st1) t id o st1 st' ∧ SameRegs st1 st' ∧ SameAccs st1 st' ∧ t.mem = s.mem ∧ t.bars = s.bars

/-- Operation id is o' now; nothing else has changed but memory, energy and what watchpoints note. -/
structure Advances (s t : State) (id : Nat) (o' : Op) : Prop where
  now : t.op id = some o'
  ops : ∀ j, j ≠ id → t.op j = s.op j
  cores : ∀ c, t.core c = { s.core c with energy := (t.core c).energy, charges := (t.core c).charges }
  package : t = { s with mem := t.mem, ops := t.ops, cores := t.cores, free := t.free }

/-- Nothing of the operation has failed, fired or been tagged: it completes without a stop and without a sample. -/
def Op.quiet (o : Op) : Prop := (∀ i ∈ o.items, i.bad = 0) ∧ o.fired = [] ∧ o.tags = []
/-- A line operation has finished, and with it the translations that served it alone (01 R34). -/
def Op.lineDone (o : Op) (n : Nat) : Op := { o with lines := o.lines.set n .finished, gens := o.gens.filter fun g => g.line != some n }
/-- Each thread that has a value takes it in its registers dst to dst + n - 1; nothing else changes. -/
structure Gives (st st' : Strand) (dst n : Nat) (f : Nat → Option Nat) : Prop where
  vec : ∀ c t, t < 32 → st'.vreg c t = match f t with
    | some v => if dst ≤ c ∧ c < dst + n then BitVec.ofNat 32 (v / 2 ^ (32 * (c - dst))) else st.vreg c t
    | none => st.vreg c t
  uni : ∀ c, st'.sreg c = st.sreg c
  pred : ∀ p, st'.pmask p = st.pmask p
  acc : SameAccs st st'
/-- The value of the item of a thread. -/
def valueOf (its : List Item) (f : Item → Nat) (t : Nat) : Option Nat := (its.find? fun i => i.t == t).map f
/-- The items are of different threads. -/
def ownThreads (its : List Item) : Prop := (its.map (·.t)).Nodup
/-- The byte the last item that names key k writes there. -/
def landed (its : List Item) (f : Item → Nat) (k : Nat) : Option Byte :=
  (its.reverse.find? fun i => i.dst.contains k).map fun i => BitVec.ofNat 8 (f i / 2 ^ (8 * i.dst.idxOf k))
/-- Memory of t: that of s with what the items write, later items over earlier ones. -/
def Lands (s t : State) (its : List Item) (f : Item → Nat) : Prop := ∀ k, readByte t.mem k = (landed its f k).getD (readByte s.mem k)

/-- An element after an atomic by its function (07 R164): integers in 32 and 64 bits, FP32, a grid number. -/
def atomicResult (f : Nat) (w : Int) (rm old v c : Nat) : Nat :=
  let o32 : BitVec 32 := BitVec.ofNat 32 old
  let v32 : BitVec 32 := BitVec.ofNat 32 v
  match f with
  | 0 => (o32 + v32).toNat
  | 1 => (BitVec.ofNat 64 old + BitVec.ofNat 64 v).toNat
  | 2 => (if v32.slt o32 then v32 else o32).toNat
  | 3 => (if o32.slt v32 then v32 else o32).toNat
  | 4 => (if v32.ult o32 then v32 else o32).toNat
  | 5 => (if o32.ult v32 then v32 else o32).toNat
  | 6 => (o32 &&& v32).toNat
  | 7 => (o32 ||| v32).toNat
  | 8 => (o32 ^^^ v32).toNat
  | 9 => v
  | 10 => v
  | 11 => if old = c then v else old
  | 12 => if old = c then v else old
  | 13 => (fp32.round 0 false (FV.add 0 (fp32.value old) (fp32.value v)).1).1
  | _ => let x := toGrid rm (fp32.value v) w 126
         gridAdd old (gridWord x.1 x.2.1 x.2.2)

/-! Steps of the units: publishes, reductions, banks, regions, the matrix engine -/

/-- A publish in progress has changed, or ended; nothing else. -/
def OnlyPub (s t : State) (n : Nat) (p : Option Pub) : Prop :=
  look t.pkg.pubs n = p ∧ (∀ j, j ≠ n → look t.pkg.pubs j = look s.pkg.pubs j) ∧ t = { s with pkg := { s.pkg with pubs := t.pkg.pubs } }
/-- Only bytes of the system space at the keys have changed. -/
def OnlyBytes (s t : State) (ks : List Nat) : Prop := ∀ k, k ∉ ks → readByte t.mem k = readByte s.mem k
/-- n bytes of the system space from offset p lie in as many places. -/
def spread (s : State) (p n : Nat) : Prop := ∀ a b, a < n → b < n → s.sysKey (p + a) = s.sysKey (p + b) → a = b
def sysKeys (s : State) (p n : Nat) : List Nat := (List.range n).map fun i => s.sysKey (p + i)
/-- RPSTAT with timeouts and overflows counted: its two counts saturate (02 R55). -/
def withRpstat (s : State) (timeouts full : Nat) : State :=
  let v := s.win.rpstat.toNat
  let counts := min 65535 (v / 2 ^ 16 % 2 ^ 16 + timeouts) * 2 ^ 16 + min 65535 (v / 2 ^ 32 % 2 ^ 16 + full) * 2 ^ 32
  { s with pkg := { s.pkg with win := { s.win with rpstat := BitVec.ofNat 64 counts } } }
/-- The threads' result predicate takes one value; registers stay. -/
structure GivesPred (st st' : Strand) (q : Nat) (ts : List Nat) (b : Bool) : Prop where
  pred : ∀ p t, t < 32 → st'.pred p t = if p = q ∧ p ≠ 0 ∧ t ∈ ts then b else st.pred p t
  vec : ∀ c t, t < 32 → st'.vreg c t = st.vreg c t
  uni : ∀ c, st'.sreg c = st.sreg c
/-- The free elements a partial of another package brings (log 7, DESIGN CHOICE). -/
def freeElements (s : State) (f n : Nat) : List Nat :=
  (List.range n).map fun j => ((Config.freeBits (s.free + j)).setWidth (8 * if f = 1 then 8 else if f = 2 then 16 else 4)).toNat
/-- A CLAIM that waits: its lane, its path and its blocks. -/
def claimOf (x : Nat × ClaimReq) : Nat × Nat × Nat × Nat := (x.1, x.2.strand, x.2.path, x.2.blocks)
/-- The CLAIMs of the gangs that have been marked for swap are withdrawn, those of their handlers apart (12 R307). -/
structure Withdraws (s t : State) (gone : Nat → Bool) : Prop where
  cores : ∀ c, t.core c = { s.core c with claims := (t.core c).claims }
  claims : ∀ c, (t.core c).claims.map claimOf = ((s.core c).claims.filter fun x => !((s.strand x.2.strand).any fun st =>
    gone st.gang && st.mode != .handler && decide (slotOf x.2.strand < 384 ∧ coreOf x.2.strand = c))).map claimOf
/-- No strand waits for a joint operation of its team (10 R247). -/
def noneUnmatched (s : State) : Prop := ∀ x ∈ s.strands, s.unmatched x.1 = []
/-- One member of a reduction has changed, or is gone. -/
def OnlyMember (s t : State) (tag : Nat) (m : Option Member) : Prop :=
  look t.pkg.members tag = m ∧ ∀ j, j ≠ tag → look t.pkg.members j = look s.pkg.members j
/-- Tile t of a gang after its engine has written it: element (i, n) for each row and column; the other tiles as before. -/
def Tiles (g g' : Gang) (t : Nat) (f : Nat → Nat → TileElem) : Prop :=
  ∀ m i n, i < 16 → n < 64 → g'.elem m i n = if m = t then f i n else g.elem m i n

/-! Steps of the units: tasks -/

/-- One quad has changed. -/
def OnlyQuad (s t : State) (q : Nat) (x : Quad) : Prop := t.quad q = x ∧ ∀ p, p ≠ q → t.quad p = s.quad p
/-- One launch has changed, or ended. -/
def OnlyLaunch (s t : State) (n : Nat) (l : Option Launch) : Prop := look t.pkg.launches n = l ∧ ∀ j, j ≠ n → look t.pkg.launches j = look s.pkg.launches j
/-- One steal has changed, or ended. -/
def OnlySteal (s t : State) (n : Nat) (x : Option Steal) : Prop := look t.pkg.steals n = x ∧ ∀ j, j ≠ n → look t.pkg.steals j = look s.pkg.steals j
/-- The keys at which the bytes of a hardware-accessed object from offset o stand, each in a place of its own (04 R72). -/
def HwLies (s : State) (ctx obj o : Nat) (ks : List Nat) : Prop := ks.Nodup ∧ ∀ i, i < ks.length → hwKey s 0 ctx obj (o + i) = ks[i]?
/-- A fault record waits for its context's queue more (14 R349). -/
def withFault (s : State) (f : FaultAppend) : State := { s with pkg := { s.pkg with faultWait := s.pkg.faultWait ++ [f] } }
/-- The fault record of a rejected record, or of lost weight, that names no strand (13 R318, R330; 14 R347). -/
def lostRecord (s : State) (cause qual ctx addr aux task : Nat) : FaultAppend :=
  { ctx := ctx % 64, cause, record := strandlessRecord s cause qual ctx addr aux task, toHost := true }
/-- The free entries of a quad's queue, lowest first (13 R321; log 11, DEDUCED). -/
def freeEntries (s : State) (q : Nat) : List Nat := (List.range 2048).filter fun i => !((s.quad q).queue.map (·.slot)).contains i
/-- Where the next n records of a queue lie in Onyx SRAM (13 R321). -/
def entriesOf (s : State) (q n : Nat) : List Nat := (List.range n).flatMap fun i => keysFrom (s.entryKey q ((freeEntries s q).getD i 0)) 64
/-- The records stand in Onyx SRAM as the next ones of the queue. -/
def Stand (s t : State) (q : Nat) (rs : List QRec) : Prop := (entriesOf s q rs.length).map (readByte t.mem) = rs.flatMap fun r => r.task.bytes
/-- They do, and no other byte has changed. -/
def Enters (s t : State) (q : Nat) (rs : List QRec) : Prop := Stand s t q rs ∧ OnlyBytes s t (entriesOf s q rs.length)
/-- A queue with more records at its tail: queued, on the die cycle of now, at its lowest free entries, with numbers from s.nextId on (13 R321). -/
def queuedAfter (s : State) (q : Nat) (rs : List QRec) : Quad :=
  { s.quad q with queue := (s.quad q).queue ++ rs.mapIdx fun i r =>
      { r with entered := dieCycle (q / 34) s.now, st := .queued, id := s.nextId + i, slot := (freeEntries s q).getD i 0 } }
/-- A queue without the records of a number (13 R321). -/
def queueWithout (s : State) (q id : Nat) : Quad :=
  { s.quad q with queue := (s.quad q).queue.filter fun x => x.id != id, hold := (s.quad q).hold.filter fun i => i != id }
/-- A queue with one record's state changed (13 R324). -/
def queueMarked (s : State) (q id : Nat) (x : QState) : Quad :=
  { s.quad q with queue := (s.quad q).queue.map fun r => if r.id = id then { r with st := x } else r }

/-! Steps of the units: lanes, stops, the host's requests -/

/-- The bytes at the keys are those of the list. -/
def BytesAre (t : State) (ks : List Nat) (bs : List Byte) : Prop := ks.map (readByte t.mem) = bs
/-- The records that a stopped strand's image holds, as they go to the host (14 R349, R358). -/
def hostRecords (ctx : Nat) (bs : List Byte) : List FaultAppend :=
  ([0, 1].filter fun pi => imgFv bs pi).map fun pi => {
    ctx := ctx % 64, cause := recCause (imgRec bs pi), toHost := true
    record := leBytes 4 (Nat.lor (fieldAt (imgRec bs pi) 0 4) (2 ^ 20)) ++ (imgRec bs pi).drop 4 }
/-- A write to HRSM and DSTOP has been taken, or refused (14 R360; 15 R373). -/
def withHrsm (s : State) (v : Dword) : State := { s with pkg := { s.pkg with win := { s.win with hrsm := v } } }
def withDstop (s : State) (v : Dword) : State := { s with pkg := { s.pkg with win := { s.win with dstop := v } } }
/-- The event of a write to HRSM with a mode (14 R360). -/
def HrsmEvent (mode value : Nat) (i : Instr) : Prop :=
  (mode = 0 ∧ i = .hrsmRsm value) ∨ (mode = 1 ∧ i = .hrsmRsmRx value) ∨ (mode = 2 ∧ i = .hrsmKill value) ∨ (mode = 3 ∧ i = .hrsmKillAll value)

/-! Steps of the units: the host's window, clocks, boot -/

/-- The window has changed; the rest of the package state has not (16 R387). -/
def withWin (s : State) (w : Window) : State := { s with pkg := { s.pkg with win := w } }
/-- CTXCTL once an operation has completed: BUSY clear, DONE set, REFUSED with a refusal (14 R363). -/
def ctxctlDone (c : Dword) (refused : Bool) : Dword := (c &&& ~~~0x100#64) ||| 0x200#64 ||| (if refused then 0x400#64 else 0)
/-- The rate the clock comes to with the changes announced (16 R396). -/
def comingRate (s : State) : Nat := (s.pkg.clockAt.getLast?.map (·.1)).getD (s.win.clkctl.toNat / 4 % 4)
/-- A change of the clock to a rate is announced, at least 4,096 die cycles ahead and after those announced before it, with interrupt kind 7 (16 R396). -/
def Announced (u t : State) (rate : Nat) : Prop :=
  ∃ c, dieCycle 0 u.now + 4096 ≤ c ∧ (∀ x, u.pkg.clockAt.getLast? = some x → x.2 < c) ∧
    t = ({ u with free := u.free + 1, pkg := { u.pkg with clockAt := u.pkg.clockAt ++ [(rate, c)] } } : State).postInterrupt 7 0 rate c
/-- A state with the time of a step passed (12 R290; 15 R380). -/
def passed (s : State) : State := ({ s.drainTraces with now := s.now + 1 } : State).reage

end Sys2Proof.Machine

open Sys2Proof Sys2Proof.Machine

/-- A 32-bit source code below 112 reads that vector register of the thread, a code from 112 on broadcasts s0 to s15, and a uniform form reads the
uniform register; a pair reads its low register first (06 R134, 05 R95, R96). -/
def Obligations.SourcesRead : Prop :=
  ∀ (e : Env) (c : BitVec 7) (t : Nat),
    let w (c : Nat) : Nat := (if c < 112 then e.st.vreg c t else e.st.sreg (c - 112)).toNat
    e.get 0 c 1 t = w c.toNat ∧ e.get 0 c 2 t = w c.toNat + 2 ^ 32 * w (c.toNat + 1) ∧
      e.get 1 c 1 t = (e.st.sreg c.toNat).toNat ∧ e.get 1 c 2 t = (e.st.sreg c.toNat).toNat + 2 ^ 32 * (e.st.sreg (c.toNat + 1)).toNat

/-- IADD, ISUB, IMUL, MIN, MAX, AND, OR, XOR and ANDN, in 32 and 64 bits, uniform or for each active thread: the result, and nothing
else changes (08 R183, R185). -/
def Sys2Proof.Machine.WideIntegerResultsPart : Prop :=
  ∀ (i : Instr) (x : BitVec 1) (d a b : BitVec 7) (f : Bool → (n : Nat) → BitVec n → BitVec n → BitVec n),
    wideBinary i = some (x, d, a, b, f) → ∀ (s : State) (e : Env) (r : Run), Issues i s e r →
      Computes i s e r e.p.nfr fun st st' => SameAccs st st' ∧
        Writes x st st' e.act d.toNat e.w fun t => (f e.h.sat e.n (e.operand x a t) (e.operand x b t)).toNat

/-- IMULH, IMAD, LEA, IABS, CLZ, POPC, BREV, MOV, BFX, BFI, SEL, SHL, SHR and SAR (08 R183 to R185, R188). -/
def Sys2Proof.Machine.IntegerResultsPart : Prop :=
  ∀ (i : Instr) (s : State) (e : Env) (r : Run) (x : BitVec 1) (d : BitVec 7) (n : Nat) (f : Nat → Nat),
    Issues i s e r → integerValue e i = some (x, d, n, f) →
      Computes i s e r e.p.nfr fun st st' => SameAccs st st' ∧ Writes x st st' e.act d.toNat n f

/-- The sixteen I-format instructions, vector and uniform, in 32 and 64 bits (08 R186). -/
def Sys2Proof.Machine.ImmediateResultsPart : Prop :=
  ∀ (i : Instr) (x : BitVec 1) (d : BitVec 7) (a : Option (BitVec 7)) (m : BitVec 8) (f : (n : Nat) → BitVec n → Int → BitVec n),
    immediateOp i = some (x, d, a, m, f) → ∀ (s : State) (e : Env) (r : Run), Issues i s e r →
      Computes i s e r e.p.nfr fun st st' => SameAccs st st' ∧
        Writes x st st' e.act d.toNat e.w fun t => (f e.n (e.operand x (a.getD 0) t) (e.immediateOf m)).toNat

/-- The integer instructions of 08: results in 32 and 64 bits, of register and immediate forms, and nothing else changes (08 R183 to R188). -/
def Obligations.IntegerResults : Prop := WideIntegerResultsPart ∧ IntegerResultsPart ∧ ImmediateResultsPart

/-- ICMP writes its predicate for the active threads, each with the condition of its own operands; p0 discards the write (08 R187, 05
R97). -/
def Sys2Proof.Machine.IcmpResultsPart : Prop :=
  ∀ (z : BitVec 1) (c : BitVec 3) (d a b : BitVec 7) (x : BitVec 1) (s : State) (e : Env) (r : Run),
    Issues (.icmp z c d a b x) s e r →
      Computes (.icmp z c d a b x) s e r e.p.nfr fun st st' => SameAccs st st' ∧
        WritesPred st st' e.act d.toNat fun t => icmpCondition c (e.operand x a t) (e.operand x b t)

/-- An instruction that raises flags of which none is enabled to trap: it writes its results, and its flags stick in the path's NFR (05 R104, R105; 08
R189 to R196, R204; 09 R207 to R210, R218, R219). The model's own: log 8, DEDUCED (how the values of built-in functions are found); log 24, DEDUCED (a
value is rounded before its range check); log 25, DEDUCED (tininess is judged after rounding); log 39, DEDUCED (what FZ32 does not flush); log 54,
DEDUCED (a widening conversion extends by the signedness of its target); log 106, DESIGN CHOICE (uncorrectable bytes of tables, images and region
records). -/
def Obligations.FlaggedResults : Prop :=
  ∀ (i : Instr) (s : State) (e : Env) (r : Run) (x : BitVec 1) (m : Mask) (d : BitVec 7) (n : Nat) (f : Nat → Nat × Nat),
    Issues i s e r → flaggedValue s e i = some (x, m, d, n, f) →
    (∀ t, trapped e.p.nfr (if x = 1 then (f (lowest e.act)).2 else if has m t then (f t).2 else 0) = 0) →
      Computes i s e r (e.p.nfr ||| BitVec.ofNat 32 (flagsOf x e m f) <<< 4) fun st st' => SameAccs st st' ∧
        Writes x st st' m d.toNat n fun t => (if x = 1 then f (lowest e.act) else f t).1

/-- Flags that meet an enable, of the instructions of flaggedValue (05 R105, 14 R344, 08 R180). -/
def Sys2Proof.Machine.NumericTrapsPart : Prop :=
  ∀ (i : Instr) (s : State) (e : Env) (r : Run) (x : BitVec 1) (m : Mask) (d : BitVec 7) (n : Nat) (f : Nat → Nat × Nat),
    Issues i s e r → flaggedValue s e i = some (x, m, d, n, f) →
    let caught (t : Nat) : Nat := trapped e.p.nfr (f t).2
    let bad : List Nat := (active m).filter fun t => caught t != 0
    let good : Mask := maskOf ((active m).filter fun t => caught t == 0)
    (x = 1 → caught (lowest e.act) ≠ 0 → ∃ t st', exec i s = .next t ∧
      Stops (paid i e s) t e { cause := numericCause (caught (lowest e.act)), emask := e.p.act, whole := true, pc := e.chain } e.after false e.st st') ∧
    (x = 0 → bad ≠ [] → ∃ u v t st1 st2 st3, exec i s = .next t ∧ OnlyStrand (paid i e s) u e.k st1 ∧
      OnlyRegs e.st st1 e.pi (e.p.nfr ||| BitVec.ofNat 32 (flagsOf x e good f) <<< 4) ∧ SameAccs e.st st1 ∧
      WritesVector e.st st1 good d.toNat n (fun t => (f t).1) ∧ Retires u v e r none false st1 st2 ∧
      Stops v t e { cause := numericCause (unionFlags (bad.map caught)), emask := maskOf bad, pc := e.chain } e.after false st2 st3)

/-- SFE on a user table: an empty bank raises 0xA2 with no effect; threads whose lookup meets an error that ECC cannot correct raise 0xB2 beside those whose
result is trapped, and the others have theirs (09 R211, R214; 01 R22; log 106, DESIGN CHOICE). -/
def Sys2Proof.Machine.TableLookupsPart : Prop :=
  ∀ (z : BitVec 1) (d a : BitVec 7) (f : BitVec 5) (l u : BitVec 4) (s : State) (e : Env) (r : Run),
    let i : Instr := .sfe z d a f l u
    Issues i s e r → 16 ≤ f.toNat →
      (tableImage s e.ctx e.p.run (f.toNat - 16) = none → StopsWhole i s e 0xA2 0 0) ∧
      ∀ tab, tableImage s e.ctx e.p.run (f.toNat - 16) = some tab →
        let x (t : Nat) : Nat := e.get 0 a 1 t
        let lost (t : Nat) : Bool := tableFails s e.die e.ctx e.p.run (f.toNat - 16) (tab.touches e.fz32 (x t))
        let good : List Nat := e.ts.filter fun t => !lost t && trapped e.p.nfr (tab.eval e.fz32 (x t)).2 == 0
        (∃ t ∈ e.ts, lost t = true) → ∃ u v t st1 st2 st3, exec i s = .next t ∧ OnlyStrand (paid i e s) u e.k st1 ∧
          OnlyRegs e.st st1 e.pi (e.p.nfr ||| BitVec.ofNat 32 (unionFlags (good.map fun t => (tab.eval e.fz32 (x t)).2)) <<< 4) ∧ SameAccs e.st st1 ∧
          WritesVector e.st st1 (maskOf good) d.toNat 1 (fun t => (tab.eval e.fz32 (x t)).1) ∧ Retires u v e r none false st1 st2 ∧
          Stops v t e { cause := 0xB2, emask := e.act &&& ~~~(maskOf good), pc := e.chain } e.after false st2 st3

/-- A thread whose flags meet an enable has no effect; the others have theirs; the path stops after the instruction with the numeric cause of the
lowest enabled flag and the trapping threads in EMASK. The uniform form has no effect and stops for the whole strand (05 R105, 14 R344, 08 R180). The
model's own: log 8, DEDUCED (how the values of built-in functions are found); log 24, DEDUCED (a value is rounded before its range check); log 25,
DEDUCED (tininess is judged after rounding); log 26, DEDUCED (the record has the lowest enabled code of all threads and names them all); log 39,
DEDUCED (what FZ32 does not flush); log 54, DEDUCED (a widening conversion extends by the signedness of its target); log 106, DESIGN CHOICE
(uncorrectable bytes of tables, images and region records). -/
def Obligations.NumericTraps : Prop := NumericTrapsPart ∧ TableLookupsPart

/-- FCLS, PACK, UNPK, SHFL, VOTE to a register, RDFL, PRFX, REBAL and MASK (08 R191, R197 to R202, R205, R206). -/
def Sys2Proof.Machine.LaneResultsPart : Prop :=
  ∀ (i : Instr) (s : State) (e : Env) (r : Run) (x : BitVec 1) (d : BitVec 7) (n : Nat) (f : Nat → Nat),
    Issues i s e r → laneValue e i = some (x, d, n, f) →
      Computes i s e r e.p.nfr fun st st' => SameAccs st st' ∧ Writes x st st' e.act d.toNat n f

/-- VOTE to a predicate: all, any, or equal values; CONF: the earlier active threads of the key, and whether there is none; RDFL with no
active thread writes nothing (08 R200, R201, R203). -/
def Sys2Proof.Machine.LanePredicatesPart : Prop :=
  (∀ (z : BitVec 1) (m : BitVec 3) (d a : BitVec 7) (s : State) (e : Env) (r : Run), Issues (.vote z m d a) s e r → m = 0 ∨ m = 1 ∨ m = 3 →
    Computes (.vote z m d a) s e r e.p.nfr fun st st' => SameAccs st st' ∧ WritesPred st st' e.act d.toNat fun _ =>
      if m = 0 then e.ts.all fun t => e.st.pred a.toNat t
      else if m = 1 then e.ts.any fun t => e.st.pred a.toNat t
      else e.ts.all fun t => e.ts.all fun u => e.get 0 a 1 t == e.get 0 a 1 u) ∧
  (∀ (z : BitVec 1) (d a b : BitVec 7) (s : State) (e : Env) (r : Run), Issues (.conf z d a b) s e r →
    Computes (.conf z d a b) s e r e.p.nfr fun st st' => SameAccs st st' ∧ (∀ c, st'.sreg c = st.sreg c) ∧
      (∀ c t, t < 32 → st'.vreg c t = if has e.act t ∧ c = d.toNat then maskOf (e.sameKey (e.get 0 a e.w) t) else st.vreg c t) ∧
      ∀ q t, t < 32 → st'.pred q t = if q = b.toNat ∧ b ≠ 0 ∧ has e.act t then (e.sameKey (e.get 0 a e.w) t).isEmpty else st.pred q t) ∧
  ∀ (z : BitVec 1) (d a b : BitVec 7) (s : State) (e : Env) (r : Run), Issues (.rdfl z d a b) s e r → e.act = 0 →
    Computes (.rdfl z d a b) s e r e.p.nfr fun st st' => SameAccs st st' ∧ SameRegs st st'

/-- What the threads of a strand tell one another, in registers and in predicates (08 R191, R197 to R206). -/
def Obligations.LaneResults : Prop := LaneResultsPart ∧ LanePredicatesPart

/-- FCMP: the condition of its operands, with the invalid flag of a signalling NaN, or of any NaN under the ordered conditions (08 R192). -/
def Sys2Proof.Machine.FcmpResultsPart : Prop :=
  ∀ (z : BitVec 1) (c : BitVec 3) (d a b : BitVec 7) (x : BitVec 1) (s : State) (e : Env) (r : Run),
    Issues (.fcmp z c d a b x) s e r →
    let f (t : Nat) : Bool × Nat := floatCompare c (e.fp32In x a e.h.nega t) (e.fp32In x b e.h.negb t)
    let flags := flagsOf x e e.act fun t => (0, (f t).2)
    (∀ t, trapped e.p.nfr (if x = 1 then (f (lowest e.act)).2 else if has e.act t then (f t).2 else 0) = 0) →
      Computes (.fcmp z c d a b x) s e r (e.p.nfr ||| BitVec.ofNat 32 flags <<< 4) fun st st' => SameAccs st st' ∧
        WritesPred st st' e.act d.toNat fun t => (if x = 1 then f (lowest e.act) else f t).1

/-- FCMP of a thread whose flag is enabled to trap: that thread's predicate is as it was, and the path stops after the instruction; the uniform form has
no effect and stops for the whole strand (05 R105, 08 R180, R192; 14 R344). -/
def Sys2Proof.Machine.FcmpTrapsPart : Prop :=
  ∀ (z : BitVec 1) (c : BitVec 3) (d a b : BitVec 7) (x : BitVec 1) (s : State) (e : Env) (r : Run),
    let i : Instr := .fcmp z c d a b x
    let f (t : Nat) : Bool × Nat := floatCompare c (e.fp32In x a e.h.nega t) (e.fp32In x b e.h.negb t)
    let caught := trapped e.p.nfr (f (lowest e.act)).2
    Issues i s e r →
      (x = 1 → caught ≠ 0 → StopsWhole i s e (numericCause caught) 0 0) ∧
      (x = 0 → TrapsThreads i s (paid i e s) e r (fun t => (f t).2) fun good st1 => WritesPred e.st st1 good d.toNat fun t => (f t).1)

/-- ICMP and FCMP write one predicate for the active threads, and FCMP's flags may trap (08 R187, R192; 05 R97, R105). The model's own: log 26,
DEDUCED (the record has the lowest enabled code of all threads and names them all). -/
def Obligations.Comparisons : Prop := IcmpResultsPart ∧ FcmpResultsPart ∧ FcmpTrapsPart

/-- LZ clears a long accumulator and its state; LADD adds the value, or the square, of each active thread's register to it in thread
order (09 R216, 05 R128). -/
def Sys2Proof.Machine.LongAccumulatorsPart : Prop :=
  ∀ (s : State) (e : Env) (r : Run),
    (∀ z l : BitVec 1, Issues (.lz z l) s e r → Computes (.lz z l) s e r e.p.nfr fun st st' => SameRegs st st' ∧
      st'.acc l = (0, 0) ∧ st'.acc (1 - l) = st.acc (1 - l)) ∧
    ∀ (z : BitVec 1) (a : BitVec 7) (l q : BitVec 1), Issues (.ladd z a l q) s e r →
      Computes (.ladd z a l q) s e r e.p.nfr fun st st' => SameRegs st st' ∧ st'.acc (1 - l) = st.acc (1 - l) ∧
        st'.acc l = e.ts.foldl (fun c t => c.term (e.fp32In 0 a false t) (q == 1)) (st.acc l)

/-- LD and ST of objects, ATOM and RED: where every active thread's address translates, one operation starts with each thread's part, registers and
memory as yet unchanged; with no active thread nothing happens (07 R155, R160, R163). The model's own: log 99, DESIGN CHOICE (how translations in
flight are counted); log 117, DESIGN CHOICE (the bytes of an object record); log 118, DESIGN CHOICE (padding of elements that are not four bytes
wide). -/
def Obligations.ObjectAccesses : Prop :=
  ∀ (i : Instr) (s : State) (e : Env) (r : Run) (x : ObjectAccess) (loc : Nat → Located),
    Issues i s e r → objectAccess e i = some x →
    (∀ t ∈ e.ts, translate (paid i e s) e.die e.ctx (x.addr t) x.bytes x.kind = .ok (loc t)) →
    let ps : Places := e.ts.map fun t => (t, x.addr t, loc t)
    (e.act ≠ 0 → Launches i s (x.base ps (paid i e s)) e r (x.op ps)) ∧
    (e.act = 0 → Computes i s e r e.p.nfr fun st st' => SameAccs st st' ∧ SameRegs st st')

/-- Where some threads' addresses fail, the others' part starts all the same, and the path then stops after the instruction: the cause of the earliest
check of translation that failed, the failing threads in EMASK, the address of the lowest of them (01 R28; 14 R344, R347). The model's own: log 99,
DESIGN CHOICE (how translations in flight are counted); log 117, DESIGN CHOICE (the bytes of an object record); log 118, DESIGN CHOICE (padding of
elements that are not four bytes wide). -/
def Obligations.ObjectAccessFaults : Prop :=
  ∀ (i : Instr) (s : State) (e : Env) (r : Run) (x : ObjectAccess), Issues i s e r → objectAccess e i = some x →
    let tr (t : Nat) : Except Failed Located := translate (paid i e s) e.die e.ctx (x.addr t) x.bytes x.kind
    let ps : Places := e.ts.filterMap fun t => match tr t with | .ok l => some (t, x.addr t, l) | .error _ => none
    let fs : List (Nat × Failed) := e.ts.filterMap fun t => match tr t with | .ok _ => none | .error f => some (t, f)
    ∀ low f, fs.head? = some low → (fs.find? fun y => fs.all fun z => y.2.rank ≤ z.2.rank) = some f →
      ∃ u v t st1 st2 st3, exec i s = .next t ∧
        (ps ≠ [] → StartsOp (x.base ps (paid i e s)) u e (x.op ps) st1) ∧ (ps = [] → u = paid i e s ∧ st1 = e.st) ∧
        Retires u v e r none false st1 st2 ∧
        Stops v t e { cause := f.2.cause, qual := f.2.qual, emask := maskOf (fs.map (·.1)), pc := e.chain, addr := x.addr low.1 } e.after false st2 st3

/-- LD from the scratchpad: each active thread's registers take the bytes at its address, extended; memory is unchanged (07 R160, 04 R79). -/
def Sys2Proof.Machine.ScratchLoadsPart : Prop :=
  ∀ (i : Instr) (s : State) (e : Env) (r : Run) (d a : BitVec 7) (n : Nat) (off : Int) (sx : Bool) (keys : Nat → List Nat),
    Issues i s e r → scratchLoad e i = some (d, a, n, off, sx) →
    (∀ t ∈ e.ts, scratch e.g (e.scratchAt a off t) n = .ok (keys t) ∧ ∀ k ∈ keys t, k ∉ s.phys.bad) →
      ∃ u t st1 st', exec i s = .next t ∧ OnlyStrand ((paid i e s).charge e.core e.ctx 5 (occupancy (e.ts.flatMap keys))) u e.k st1 ∧
        OnlyRegs e.st st1 e.pi e.p.nfr ∧ SameAccs e.st st1 ∧ Retires u t e r none false st1 st' ∧ t.mem = s.mem ∧
        WritesVector e.st st1 e.act d.toNat (regsOf n) fun t => extended n sx (leNat ((keys t).map (readByte s.mem)))

/-- ST to the scratchpad: a byte that several threads store takes the value of the highest of them; every byte at no thread's address
is unchanged; no register changes (07 R160, 04 R79). -/
def Sys2Proof.Machine.ScratchStoresPart : Prop :=
  ∀ (i : Instr) (s : State) (e : Env) (r : Run) (d a : BitVec 7) (n : Nat) (off : Int) (keys : Nat → List Nat),
    Issues i s e r → scratchStore e i = some (d, a, n, off) → noWatch s e.core →
    (∀ t ∈ e.ts, scratch e.g (e.scratchAt a off t) n = .ok (keys t)) →
      ∃ t m st', exec i s = .next t ∧
        Retires { ((paid i e s).charge e.core e.ctx 5 (occupancy (e.ts.flatMap keys))) with mem := m } t e r none false e.st st' ∧
        (∀ q j k, q ∈ e.ts → (keys q)[j]? = some k → (∀ q' ∈ e.ts, q < q' → k ∉ keys q') →
          readByte t.mem k = BitVec.ofNat 8 (e.get 0 d (regsOf n) q / 2 ^ (8 * j))) ∧
        ∀ k, (∀ q ∈ e.ts, k ∉ keys q) → readByte t.mem k = readByte s.mem k

/-- Loads and stores of scratchpad memory (07 R158, R159). The model's own: log 29, DESIGN CHOICE (scratchpad accesses act as they issue). -/
def Obligations.ScratchAccesses : Prop := ScratchLoadsPart ∧ ScratchStoresPart

/-- LDU reads once for the strand, and LMRG and LST in their object form access 64 bytes once for it: the operation that starts. Where the address
fails, the strand stops with no effect (07 R161, 09 R217, 14 R344). The model's own: log 99, DESIGN CHOICE (how translations in flight are counted).
-/
def Obligations.UniformAccesses : Prop :=
  ∀ (s : State) (e : Env) (r : Run) (i : Instr) (n : Nat) (kind : Kind) (addr : Nat) (op : Located → Op),
    Issues i s e r →
    (match i with
     | .lduB32 _ d a k _ => some (4, Kind.read, e.uniformAt k a, e.uniformLoad d a k 4)
     | .lduB64 _ d a k _ => some (8, Kind.read, e.uniformAt k a, e.uniformLoad d a k 8)
     | .lmrg _ a l q _ => if q = 1 then some (64, Kind.read, e.st.upair a.toNat, fun x =>
          { kind := .lmrg l.toNat, acc := some 0, gens := [x.gen], items := [uniformItem e (e.st.upair a.toNat) x] }) else none
     | .lst _ a l q _ => if q = 1 then some (64, Kind.write, e.st.upair a.toNat, fun x =>
          { kind := .store false, acc := some 0, gens := [x.gen]
            items := [{ t := lowest e.act, addr := e.st.upair a.toNat, dst := memKeys x.bytes, val := (e.st.acc l).spill.toNat, rol := x.rol }] })
        else none
     | _ => none) = some (n, kind, addr, op) →
    (∀ l, translate (paid i e s) e.die e.ctx addr n kind = .ok l → Launches i s (paid i e s) e r (op l)) ∧
    ∀ f, translate (paid i e s) e.die e.ctx addr n kind = .error f → ∃ t st', exec i s = .next t ∧
      Stops (paid i e s) t e { cause := f.cause, qual := f.qual, emask := e.p.act, whole := true, pc := e.chain, addr } e.after false e.st st'

/-- LMRG and LST in the scratchpad form: the accumulator merges the 64 bytes at the address, or they take its spilled form; a failing
address stops the strand with no effect (09 R217, 05 R129, 04 R79). -/
def Sys2Proof.Machine.LongAccumulatorScratchPart : Prop :=
  ∀ (z : BitVec 1) (a : BitVec 7) (l : BitVec 1) (n : BitVec 4) (s : State) (e : Env) (r : Run),
    let addr := (e.st.sreg a.toNat).toNat
    let lm : Instr := .lmrg z a l 0 n
    let ls : Instr := .lst z a l 0 n
    (Issues lm s e r → (∀ ks, scratch e.g addr 64 = .ok ks → (∀ k ∈ ks, k ∉ s.phys.bad) → ∃ u t st1 st', exec lm s = .next t ∧
        OnlyStrand ((paid lm e s).charge e.core e.ctx 5 (occupancy ks)) u e.k st1 ∧ OnlyRegs e.st st1 e.pi e.p.nfr ∧ SameRegs e.st st1 ∧
        st1.acc l = (e.st.acc l).merge (BitVec.ofNat 512 (leNat (ks.map (readByte s.mem)))) ∧ st1.acc (1 - l) = e.st.acc (1 - l) ∧
        Retires u t e r none false st1 st') ∧
      ∀ f, scratch e.g addr 64 = .error f → StopsWhole lm s e f.cause f.qual addr) ∧
    (Issues ls s e r → (∀ ks, scratch e.g addr 64 = .ok ks → ∃ t m st', exec ls s = .next t ∧
        Retires { ((paid ls e s).charge e.core e.ctx 5 (occupancy ks)) with mem := m } t e r none false e.st st' ∧
        (∀ j k, ks[j]? = some k → readByte t.mem k = BitVec.ofNat 8 ((e.st.acc l).spill.toNat / 2 ^ (8 * j))) ∧
        ∀ k, k ∉ ks → readByte t.mem k = readByte s.mem k) ∧
      ∀ f, scratch e.g addr 64 = .error f → StopsWhole ls s e f.cause f.qual addr)

/-- The long accumulators, in registers and in scratchpad memory (05 R128; 09 R216 to R219). The model's own: log 29, DESIGN CHOICE (scratchpad
accesses act as they issue). -/
def Obligations.LongAccumulators : Prop := LongAccumulatorsPart ∧ LongAccumulatorScratchPart

/-- PREF asks for lines of stacks, and never faults; under the bypass policy its lines are not to stay in the core's L1 (07 R162). -/
def Sys2Proof.Machine.PrefetchesPart : Prop :=
  ∀ (z : BitVec 1) (a : BitVec 7) (k : BitVec 2) (s : State) (e : Env) (r : Run),
    let i : Instr := .pref z a k
    let u := paid i e s
    let ps : Places := e.ts.filterMap fun t => match translate u e.die e.ctx (e.objectAt k.toNat a e.wideOff t) 1 .read with
      | .ok l => some (t, e.objectAt k.toNat a e.wideOff t, l)
      | .error _ => none
    let its : List Item := (ps.map fun p => ({ t := p.1, addr := p.2.1, src := p.2.2.bytes, rol := p.2.2.rol } : Item)).filter fun j =>
      j.lines ≠ [] && j.lines.all fun l => isStack (l * 128)
    Issues i s e r →
      (its = [] → Computes i s e r e.p.nfr fun st st' => SameAccs st st' ∧ SameRegs st st') ∧
      (its ≠ [] → Launches i s u e r {
        kind := .prefetch (e.h.cache != 2), items := its, gens := ps.map (·.2.2.gen), outstanding := false, cache := e.h.cache })

/-- AOADD sends one request for the strand with its rank, the sum of its active threads and each one's exclusive prefix, whatever the guard;
a divided strand and a recovery strand raise 0x60, and a failing address its cause (07 R165, R166, R168). -/
def Sys2Proof.Machine.OrderedAddsPart : Prop :=
  ∀ (i : Instr) (wide : Bool) (d a : BitVec 7) (s : State) (e : Env) (r : Run),
    (∃ z l, (wide = false ∧ i = .aoaddB32 z d a l) ∨ (wide = true ∧ i = .aoaddB64 z d a l)) → Issues i s e r →
    let n := if wide then 2 else 1
    let addr := e.pairAt a e.wideOff 0
    (e.st.divided = true → StopsWhole i s e 0x60 0x17 0) ∧
    (e.st.divided = false → e.st.recov.isSome = true → StopsWhole i s e 0x60 0 0) ∧
    (e.st.divided = false → e.st.recov = none → ∀ f, translate (paid i e s) e.die e.ctx addr 16 .atomic = .error f → StopsWhole i s e f.cause f.qual addr) ∧
    (e.st.divided = false → e.st.recov = none → ∀ l, translate (paid i e s) e.die e.ctx addr 16 .atomic = .ok l →
      Launches i s ((paid i e s).invalidate e.core ((memKeys l.bytes).map lineOf).contains false) e r
        { kind := .aoadd wide d.toNat (BitVec.ofNat 32 (e.g.index * e.g.hdr.nstr + e.st.index)) ((e.ts.map (e.get 0 d n)).sum % 2 ^ (32 * n)) 0 0
          acc := some 0, gens := [l.gen], lines := [.waiting], vregs := if e.act = 0 then [] else keysFrom d.toNat n
          items := { t := lowest e.act, addr, src := l.bytes, dst := memKeys l.bytes } ::
            e.ts.map fun t => { t, addr, val := ((e.ts.filter (· < t)).map (e.get 0 d n)).sum % 2 ^ (32 * n) } })

/-- LDSUM needs a pod; where every active thread's element translates in an object of a usable replica set, one operation starts and
its result and predicate registers wait for it (07 R169, 02 R51, R53). -/
def Sys2Proof.Machine.PodLoadsPart : Prop :=
  ∀ (i : Instr) (f n : Nat) (d a : BitVec 7) (q : BitVec 2) (s : State) (e : Env) (r : Run) (loc : Nat → Located) (rec : Nat → ObjRec),
    (∃ z l, (f = 0 ∧ n = 4 ∧ i = .ldsumB32 z d a q l) ∨ (f = 1 ∧ n = 8 ∧ i = .ldsumB64 z d a q l) ∨
      (f = 2 ∧ n = 16 ∧ i = .ldsumG z d a q l) ∨ (f = 3 ∧ n = 4 ∧ i = .ldsumF32 z d a q l)) → Issues i s e r →
    let u := paid i e s
    let addr := e.pairAt a e.wideOff
    let ps : Places := e.ts.map fun t => (t, addr t, loc t)
    (s.wilmo = false → StopsWhole i s e 0x05 0 0) ∧
    (s.wilmo = true → e.act ≠ 0 →
      (∀ t ∈ e.ts, translate u e.die e.ctx (addr t) n .read = .ok (loc t) ∧ record u e.die e.ctx (addr t / 2 ^ 40 % 2 ^ 24) = some (rec t) ∧
        (rec t).repl = true ∧ (replicaSet u (rec t).rset).isSome = true) →
      Launches i s u e r { (loadOp e n false d ps) with
        kind := .ldsum f d.toNat (4 + q.toNat) none (rec (lowest e.act)).rset (addr (lowest e.act) / 2 ^ 40 % 2 ^ 24) none
        lines := [.waiting], vregs := keysFrom d.toNat (n / 4), preds := [4 + q.toNat], cache := 0 }) ∧
    (s.wilmo = true → e.act = 0 → Computes i s e r e.p.nfr fun st st' => SameAccs st st' ∧ SameRegs st st')

/-- PREF, AOADD and LDSUM as they start (02 R51 to R55; 04 R76; 07 R165 to R168). The model's own: log 38, DEDUCED (a reduction takes the object of
the lowest thread); log 99, DESIGN CHOICE (how translations in flight are counted); log 120, DESIGN CHOICE (the bytes of a descriptor). -/
def Obligations.FillsAndOrderedAdds : Prop := PrefetchesPart ∧ OrderedAddsPart ∧ PodLoadsPart

/-- CPY and CPYV: where source and destination of every active thread pass their checks, one operation starts
with its line operations waiting; a credit that names no slot of the kernel, or stands beside an object destination, raises 0x60 (03
R57 to R61, R70; 07 R170, R171). -/
def Sys2Proof.Machine.CopiesStartPart : Prop :=
  ∀ (i : Instr) (s : State) (e : Env) (r : Run) (src dst : Side) (object : Bool) (mask : Option (BitVec 7))
    (x y : Nat → List Src × List Nat × List GenRef), Issues i s e r → copySides e i = some (src, dst, object, mask) →
    (¬ creditFits e object → StopsWhole i s e 0x60 0 0) ∧
    (creditFits e object → e.act ≠ 0 →
      (∀ t ∈ e.ts, src.lies (paid i e s) e t = .ok (x t) ∧ dst.lies (paid i e s) e t = .ok (y t)) →
      let op := copyOp e mask (copyItems e src (fun t => (x t).1) (fun t => (y t).2.1) mask) (e.ts.map fun t => (x t).2.2 ++ (y t).2.2)
      Launches i s (if mask.isSome then (paid i e s).invalidate e.core (e.ts.flatMap fun t => (y t).2.1.map lineOf).contains false else paid i e s)
        e r op) ∧
    (creditFits e object → e.act = 0 → Computes i s e r e.p.nfr fun st st' => SameAccs st st' ∧ SameRegs st st')

/-- GATH: where every active thread's element, or index, and destination pass, one operation starts with a part for each thread; without a
gather unit 0x05, with a credit that fits no slot 0x60, and GATH.x wants its index object on one stack (01 R39 to R41, 07 R172). -/
def Sys2Proof.Machine.GathersStartPart : Prop :=
  ∀ (i : Instr) (s : State) (e : Env) (r : Run) (d : BitVec 7) (n w : Nat) (addr : Nat → Nat) (values : Option (Nat × Nat))
    (loc : Nat → Located) (ks : Nat → List Nat), Issues i s e r → gatherForm e i = some (d, n, w, addr, values) →
    (s.gather = false → StopsWhole i s e 0x05 0 0) ∧
    (s.gather = true → ¬ creditFits e false → StopsWhole i s e 0x60 0 0) ∧
    (s.gather = true → creditFits e false → e.act ≠ 0 →
      (∀ b v, values = some (b, v) → ∃ rec, record (paid i e s) e.die e.ctx (b / 2 ^ 40 % 2 ^ 24) = some rec ∧
        (recordBad (paid i e s) e.die e.ctx rec rec.current = none → rec.current.place = 2)) →
      (∀ t ∈ e.ts, translate (paid i e s) e.die e.ctx (addr t) w .read = .ok (loc t)) →
      (∀ t ∈ e.ts, match e.h.third with | some c => scratch e.g (e.scratchAt c 0 t) n = .ok (ks t) | none => ks t = []) →
      let sent : List Byte := match values with | some (_, v) => sentRecord (paid i e s) e.die e.ctx (v / 2 ^ 40 % 2 ^ 24) | none => []
      Launches i s (paid i e s) e r {
        kind := .gather n d.toNat e.h.third.isNone (e.h.credit.map (·.toNat)), acc := some 3, outstanding := e.h.third.isNone
        vregs := if e.h.third.isNone then keysFrom d.toNat (regsOf n) else [], lines := List.replicate e.ts.length .waiting
        carried := sent
        gens := (match values with
          | some (_, v) => if sent = [] then [] else
            [{ die := e.die, ctx := e.ctx, obj := v / 2 ^ 40 % 2 ^ 24, gen := (parseRecord sent).current.gen }]
          | none => []) ++ e.ts.mapIdx fun j t => { (loc t).gen with line := some j }
        items := e.ts.mapIdx fun j t => {
          t, addr := addr t, src := (loc t).bytes, dst := ks t, line := j
          cmp := match values with | some (_, v) => v + 2 ^ 64 | none => 0 } })

/-- CPY, CPYV and GATH as they start (01 R39 to R41; 03 R56 to R62; 07 R169 to R172). The model's own: log 37, DEDUCED (the index object of a gather
is that of its base pair); log 87, DEDUCED (the line operation a move belongs to); log 88, DESIGN CHOICE (a copy's check when both sides fail); log
99, DESIGN CHOICE (how translations in flight are counted). -/
def Obligations.CopiesAndGathersStart : Prop := CopiesStartPart ∧ GathersStartPart

/-- SEAL makes the open set of an access path its next batch, which is finished at once where it is empty; WAIT that has nothing to wait for only goes
on; PUB of an object it may publish starts its publish (07 R173, R174; 03 R64, R65; 01 R31). -/
def Obligations.BatchesAndPublishes : Prop :=
  ∀ (s : State) (e : Env) (r : Run),
    (∀ (z : BitVec 1) (p : BitVec 2), Issues (.seal z p) s e r → ∃ u t st1 st', exec (.seal z p) s = .next t ∧ Retires u t e r none false st1 st' ∧
      rd 0 st1.sealedB p.toNat = rd 0 e.st.sealedB p.toNat + 1 ∧ (∀ a, a ≠ p.toNat → rd 0 st1.sealedB a = rd 0 e.st.sealedB a ∧
        rd 0 st1.finishedB a = rd 0 e.st.finishedB a) ∧
      ((∀ q ∈ s.ops, q.2.strand = e.k → q.2.acc ≠ some p.toNat) → rd 0 st1.finishedB p.toNat = rd 0 st1.sealedB p.toNat) ∧
      st1 = { e.st with sealedB := st1.sealedB, finishedB := st1.finishedB, deferred := st1.deferred } ∧
      u.ops = s.ops.map (fun (q : Nat × Op) => (q.1, if q.2.strand = e.k ∧ q.2.acc = some p.toNat ∧ q.2.batch = none
        then { q.2 with batch := some (rd 0 e.st.sealedB p.toNat + 1) } else q.2)) ∧
      u = { paid (.seal z p) e s with strands := u.strands, ops := u.ops }) ∧
    (∀ (z : BitVec 1) (w : BitVec 7) (p : BitVec 2), Issues (.wait z w p) s e r →
      Computes (.wait z w p) s e r e.p.nfr fun st st' => SameAccs st st' ∧ SameRegs st st') ∧
    ∀ (z : BitVec 1) (d : BitVec 7) (c : BitVec 3) (k : BitVec 2) (l : BitVec 4), Issues (.pub z d c k l) s e r →
      let i : Instr := .pub z d c k l
      let id := e.st.upair (2 * k.toNat) / 2 ^ 40 % 2 ^ 24
      (∀ f, pubFault (paid i e s) e.die e.ctx c id = some f → StopsWhole i s e f.1 f.2 (id * 2 ^ 40)) ∧
      (pubFault (paid i e s) e.die e.ctx c id = none → ∃ v u t st1 st', exec i s = .next t ∧
        StartsOp (paid i e s) v e { kind := .pub d.toNat id, sregs := [d.toNat] } st1 ∧
        look u.pkg.pubs (s.nextId + 1) = some { ctx := e.ctx, obj := id, op := some s.nextId } ∧
        u = { v with pkg := u.pkg, nextId := s.nextId + 2 } ∧ u.pkg = { s.pkg with pubs := u.pkg.pubs } ∧
        (∀ j, j ≠ s.nextId + 1 → look u.pkg.pubs j = look s.pkg.pubs j) ∧ Retires u t e r none false st1 st')

/-- TLOOK finds the lowest way of its set that holds the line of its address, else reads all ones; TSET and TINV write the tag table of the core at
the slots of their threads, in thread order; a slot outside the table, or for TSET outside the address's set, raises 0x83 (04 R84, 07 R175). -/
def Obligations.TagTable : Prop :=
  ∀ (z : BitVec 1) (d a b : BitVec 7) (s : State) (e : Env) (r : Run),
    let code := e.g.hdr.carve
    let sets := tagSets code
    let hash (x : Nat) : Nat := (x / 2 ^ 8 % 2 ^ 32 ^^^ x / 2 ^ 40 % 2 ^ 24) % sets
    let slot (t : Nat) : Nat := (e.st.src b.toNat t).toNat
    let addr (t : Nat) : Nat := e.pairAt a 0 t
    let fits (t : Nat) : Bool := decide (slot t < tagEntries code) && slot t / 4 == hash (addr t)
    let inside (t : Nat) : Bool := decide (slot t < tagEntries code)
    let writes (i : Instr) (ok : Nat → Bool) (tagged : State → Prop) : Prop := ∃ u v t st1 st', exec i s = .next t ∧
      u = { paid i e s with cores := u.cores } ∧ Retires u v e r none false e.st st1 ∧ (∀ c, c ≠ e.core → v.core c = s.core c) ∧
      v.core e.core = { (paid i e s).core e.core with tags := (v.core e.core).tags, evc0 := (v.core e.core).evc0 } ∧ tagged v ∧
      ((∀ q ∈ e.ts, ok q = true) → t = v) ∧ ((∃ q ∈ e.ts, ok q = false) →
        Stops v t e { cause := 0x83, emask := maskOf (e.ts.filter fun q => !ok q), pc := e.chain } e.after false st1 st')
    (Issues (.tlook z d a) s e r → Computes (.tlook z d a) s e r e.p.nfr fun st st' => SameAccs st st' ∧
      WritesVector st st' e.act d.toNat 1 fun t =>
        let holds (i : Nat) : Bool := (rd 0 (s.core e.core).tags i).toNat == addr t / 256 * 256 + 1
        if tagEntries code = 0 then 0xFFFFFFFF
        else (((List.range 4).map fun w => hash (addr t) * 4 + w).find? holds).getD 0xFFFFFFFF) ∧
    (Issues (.tset z a b) s e r → writes (.tset z a b) fits fun v =>
      (∀ j, (∀ q ∈ e.ts, fits q = true → slot q ≠ j) → rd 0 (v.core e.core).tags j = rd 0 (s.core e.core).tags j) ∧
      ∀ q ∈ e.ts, fits q = true → (∀ q' ∈ e.ts, fits q' = true → q < q' → slot q' ≠ slot q) →
        rd 0 (v.core e.core).tags (slot q) = BitVec.ofNat 64 (addr q / 256 * 256 + 1)) ∧
    (Issues (.tinv z b) s e r → writes (.tinv z b) inside fun v => ∀ j, rd 0 (v.core e.core).tags j =
      if ∃ q ∈ e.ts, inside q = true ∧ slot q = j then rd 0 (s.core e.core).tags j &&& ~~~1#64 else rd 0 (s.core e.core).tags j)

/-- HINS, HPRB, HDEL and HACC where no thread must append to the spill and none fails: the threads are applied in ascending order, each to what the
one before it left, with the lines of the spill that it touches charged (log 49, DEDUCED); each thread's predicate says whether its key was present,
and where it was, a result pair takes the value (04 R88, R90, R91; 07 R177). The record of the spill object is that of issue (01 R29). A handle of no
table raises 0x81. The model's own: log 49, DEDUCED (what is charged); log 89, DEDUCED (a spill object is checked at each access); log 90, DESIGN
CHOICE (where NSP and the entries stand); log 104, DEDUCED (a spill's faults are precise, whenever they are found). -/
def Obligations.KeyTableResults : Prop :=
  ∀ (i : Instr) (f : Nat) (d a : BitVec 7) (p h : BitVec 3) (s : State) (e : Env) (r : Run), Issues i s e r →
    keyForm i = some (f, d, a, p, h) →
    let handle := (e.st.sreg (56 + h.toNat)).toNat
    (tableOf e.g handle = none → StopsWhole i s e 0x81 0 0) ∧
    ∀ (n : Nat) (desc : KeyDesc) (x : Nat → State) (found : Nat → Bool) (value : Nat → Nat), tableOf e.g handle = some (n, desc) →
      let rec' := carriedRecord (spillRecord (paid i e s) e.core e.ctx desc)
      let key (t : Nat) : Nat := e.get 0 a 2 t
      let own (t : Nat) : Nat := if f = 1 ∨ f = 2 then 0 else e.get 0 d 2 t
      x 0 = (paid i e s).charge e.core e.ctx 5 e.ts.length →
      (∀ (j t : Nat), e.ts[j]? = some t →
        let y := (x j).chargeHomes e.core e.ctx (spillTouched (x j) e.g e.core e.ctx rec' desc f (key t))
        ∃ m, applyKey y e.g e.core e.ctx rec' desc f (key t) (own t) = .done m (found t) (value t) ∧ x (j + 1) = y.setMem m) →
      ∃ u t st1 st', exec i s = .next t ∧ OnlyStrand (x e.ts.length) u e.k st1 ∧
        OnlyRegs e.st st1 e.pi e.p.nfr ∧ SameAccs e.st st1 ∧ Retires u t e r none false st1 st' ∧ (∀ c, st1.sreg c = e.st.sreg c) ∧
        (∀ q t, t < 32 → st1.pred q t = if q = p.toNat ∧ p ≠ 0 ∧ has e.act t then found t else e.st.pred q t) ∧
        ∀ c t, t < 32 → st1.vreg c t = if f ≤ 2 ∧ has e.act t ∧ found t ∧ d.toNat ≤ c ∧ c < d.toNat + 2
          then BitVec.ofNat 32 (value t / 2 ^ (32 * (c - d.toNat))) else e.st.vreg c t

/-- A key that was absent and has been inserted is found by a probe with the value inserted (04 R88, R90). The model's own: log 49, DEDUCED (what is
charged). -/
def Obligations.InsertedKeyIsFound : Prop :=
  ∀ (s : State) (g : Gang) (core ctx : Nat) (r : Option ObjRec) (d : KeyDesc) (key v val val' : Nat) (m : List Host.Cell), d.logu ≤ 5 →
    key < 2 ^ 64 → v < 2 ^ 64 →
    applyKey s g core ctx r d 0 key v = .done m false val →
      applyKey (s.setMem m) g core ctx r d 1 key val' = .done m true v

/-- HCLAIM takes the lowest free run of units and the lowest free descriptor, and the handle is not written until the clearing is done; with no
room it reads all ones; more than 32 units raise 0x81. HREL frees its table (04 R86, R87; 07 R176). -/
def Sys2Proof.Machine.KeyTablesClaimedPart : Prop :=
  ∀ (s : State) (e : Env) (r : Run),
    (∀ (z : BitVec 1) (d : BitVec 7) (x y : BitVec 5) (w : BitVec 3), Issues (.hclaim z d x y w) s e r →
      let i : Instr := .hclaim z d x y w
      let room := freeRun e.g.keys e.g.hdr.keyu (2 ^ w.toNat)
      let slot := (List.range 8).find? fun n => (look e.g.keys n).isNone
      (5 < w.toNat → StopsWhole i s e 0x81 0x15 0) ∧
      (w.toNat ≤ 5 → room = none ∨ slot = none → Computes i s e r e.p.nfr fun st st' => SameAccs st st' ∧ WritesUniform st st' d.toNat 1 0xFFFFFFFF) ∧
      (w.toNat ≤ 5 → ∀ b n, room = some b → slot = some n → ∃ u t st1 st', exec i s = .next t ∧ Retires u t e r none false st1 st' ∧
        (∃ g', u.gang e.st.gang = some g' ∧ g' = { e.g with keys := g'.keys, claims := (e.g.claims + 1) % 65536 } ∧
          look g'.keys n = some { logu := w.toNat, serial := e.g.claims, baseu := b, seed := e.st.upair (2 * x.toNat), spobj := e.st.upair (2 * y.toNat) } ∧
          ∀ m, m ≠ n → look g'.keys m = look e.g.keys m) ∧
        (∃ o, u.op s.nextId = some o ∧ o.kind = .hclaim (2 ^ w.toNat) ∧ o.sregs = [d.toNat] ∧ o.strand = e.k ∧
          o.items = [{ t := n, val := n + 65536 * e.g.claims }]) ∧
        st1 = { e.st with path0 := st1.path0, path1 := st1.path1 } ∧ (∀ m, m ≠ e.st.gang → u.gang m = s.gang m) ∧ (∀ m, m ≠ s.nextId → u.op m = s.op m) ∧
        u = { (paid i e s).charge e.core e.ctx 5 (16 * 2 ^ w.toNat) with
          gangs := u.gangs, ops := u.ops, nextId := s.nextId + 1, strands := u.strands })) ∧
    ∀ (z : BitVec 1) (h : BitVec 3), Issues (.hrel z h) s e r →
      let i : Instr := .hrel z h
      (tableOf e.g (e.st.sreg (56 + h.toNat)).toNat = none → StopsWhole i s e 0x81 0 0) ∧
      ∀ n desc, tableOf e.g (e.st.sreg (56 + h.toNat)).toNat = some (n, desc) → ∃ u t st', exec i s = .next t ∧
        u = { paid i e s with gangs := u.gangs } ∧ Retires u t e r none false e.st st' ∧ (∀ m, m ≠ e.st.gang → u.gang m = s.gang m) ∧
        ∃ g', u.gang e.st.gang = some g' ∧ g' = { e.g with keys := g'.keys } ∧ look g'.keys n = none ∧ ∀ m, m ≠ n → look g'.keys m = look e.g.keys m

/-- HDRN and HDRN.del: the entries taken from the position on, first of the table and then of its spill, one to each thread from 0 up, the predicate on
for those threads alone, and the position to go on from, all ones at the end; HDRN leaves memory as it was. An entry that cannot be read ends it, with what
has been drained kept, and stops the strand (04 R92, 07 R178). The lines of the spill that it touches are charged (log 49, DEDUCED); where NSP cannot be read the
predicate is off for all threads and the position stays (log 105, DESIGN CHOICE). -/
def Sys2Proof.Machine.KeyTableDrainsPart : Prop :=
  ∀ (i : Instr) (del : Bool) (d a : BitVec 7) (p h : BitVec 3) (s : State) (e : Env) (r : Run),
    (∃ z, (del = false ∧ i = .hdrn z d a p h) ∨ (del = true ∧ i = .hdrnDel z d a p h)) → Issues i s e r →
    let handle := (e.st.sreg (56 + h.toNat)).toNat
    (tableOf e.g handle = none → StopsWhole i s e 0x81 0 0) ∧
    ∀ n desc, tableOf e.g handle = some (n, desc) →
      let rec' := carriedRecord (spillRecord (paid i e s) e.core e.ctx desc)
      let count := if desc.spl then spillCount (paid i e s) e.core e.ctx rec' desc .read else .ok 0
      let from' := (e.st.sreg a.toNat).toNat
      let drained (u : State) (st1 : Strand) (x : Drain) (cursor : Word) : Prop :=
        u = { paid i e s with mem := x.mem, cores := u.cores, free := u.free, strands := u.strands } ∧ (desc.spl = false → u.free = s.free) ∧
        (∀ c, u.core c = { s.core c with energy := (u.core c).energy, charges := (u.core c).charges }) ∧ (∀ k, k ≠ e.k → u.strand k = s.strand k) ∧
        (del = false → u.mem = s.mem) ∧ x.taken.length ≤ 32 ∧ OnlyRegs e.st st1 e.pi e.p.nfr ∧ SameAccs e.st st1 ∧
        (∀ c, st1.sreg c = if c = a.toNat then cursor else e.st.sreg c) ∧
        (∀ q t, t < 32 → st1.pred q t = if q = p.toNat ∧ p ≠ 0 then decide (t < x.taken.length) else e.st.pred q t) ∧
        ∀ c t, t < 32 → st1.vreg c t = match x.taken[t]? with
          | some (key, v) => if d.toNat ≤ c ∧ c < d.toNat + 4 then BitVec.ofNat 32 ((key + 2 ^ 64 * v) / 2 ^ (32 * (c - d.toNat))) else e.st.vreg c t
          | none => e.st.vreg c t
      (∀ nsp, count = .ok nsp →
        let last := 4 * desc.buckets + nsp
        let x := drain (paid i e s) e.g e.core e.ctx rec' desc del (last - from') { pos := from', mem := s.mem }
        (x.failed = none → ∃ u t st1 st', exec i s = .next t ∧ Retires u t e r none false st1 st' ∧
          drained u st1 x (if x.pos < last then BitVec.ofNat 32 x.pos else 0xFFFFFFFF)) ∧
        ∀ f addr, x.failed = some (f, addr) → ∃ u t st1 st', exec i s = .next t ∧
          Stops u t e (wholeFault e f.cause f.qual addr) e.after false st1 st' ∧ drained u st1 x (BitVec.ofNat 32 x.pos)) ∧
      ∀ f, count = .error f → ∃ u t st1 st', exec i s = .next t ∧ Stops u t e (wholeFault e f.cause f.qual desc.spobj) e.after false st1 st' ∧
        drained u st1 { pos := from', mem := s.mem } (e.st.sreg a.toNat)

/-- Key tables are claimed and released, and HDRN reads them out (04 R87 to R91; 07 R175 to R178). The model's own: log 67, DEDUCED (the lowest free
address or slot); log 89, DEDUCED (a spill object is checked at each access); log 90, DESIGN CHOICE (where NSP and the entries stand); log 105, DESIGN
CHOICE (an NSP that cannot be read). -/
def Obligations.KeyTableClaims : Prop := KeyTablesClaimedPart ∧ KeyTableDrainsPart

/-- BR, BRC where the predicate of the lowest active thread is on, CALL, RET, and CALLX through a landing pad that allows calls: the run ends
and the path goes on at the target; CALL and CALLX write the offset of the next word to the link register of each active thread (12
R309 to R312, R314). -/
def Sys2Proof.Machine.BranchesPart : Prop :=
  ∀ (s : State) (e : Env) (r : Run),
    let link (k : Nat) (st st' : Strand) : Prop := WritesVector st st' e.act k 1 fun _ => (e.pc + 4).toNat
    let at' (o : BitVec 20) : Word := e.pc + 4 * o.signExtend 32
    (∀ z o, Issues (.br z o) s e r → Jumps (.br z o) s e r (at' o) SameRegs) ∧
    (∀ z p o, Issues (.brc z p o) s e r → e.st.pred p.toNat (lowest e.p.act) = true → Jumps (.brc z p o) s e r (at' o) SameRegs) ∧
    (∀ z k o, Issues (.call z k o) s e r → Jumps (.call z k o) s e r (at' o) (link k.toNat)) ∧
    (∀ z k, Issues (.ret z k) s e r →
      let x := e.st.src k.toNat (lowest e.p.act)
      if x.toNat % 4 = 0 then Jumps (.ret z k) s e r x SameRegs else StopsHere (.ret z k) s e 0x24 0 (codeAddr e.g x)) ∧
    ∀ z k t, Issues (.callx z k t) s e r →
      let i : Instr := .callx z k t
      let x := e.st.src t.toNat (lowest e.p.act)
      match fetchWord (paid i e s) e.core e.g x with
      | .error f => StopsHere i s e f.cause f.qual (codeAddr e.g x)
      | .ok w => match decode e.g.hdr.version w with
        | .ok (.lpad _ c _) => if c = 1 then Jumps i s e r x (link k.toNat) else StopsHere i s e 0x06 0 0
        | _ => StopsHere i s e 0x06 0 0

/-- BRX: the word at its offset holds the table's label and count; a word that cannot be read, a reserved bit, an index beyond the table and a
target without a landing pad of that label stop the path at the instruction; else it goes on at the entry's target (12 R313, R314). -/
def Sys2Proof.Machine.IndexedBranchesPart : Prop :=
  ∀ (z : BitVec 1) (j : BitVec 6) (o : BitVec 14) (s : State) (e : Env) (r : Run),
    let i : Instr := .brx z j o
    let u := paid i e s
    let tbl := e.pc + 4 * o.setWidth 32
    let n := e.st.sreg j.toNat
    let entry := tbl + 4 + 4 * n
    Issues i s e r → match fetchWord u e.core e.g tbl with
      | .error f => StopsHere i s e f.cause f.qual (codeAddr e.g tbl)
      | .ok h =>
        if h.toNat / 2 ^ 24 ≠ 0 then StopsHere i s e 0x07 0x1E 0
        else if h.toNat / 2 ^ 12 ≤ n.toNat then StopsHere i s e 0x07 0 0
        else match fetchWord u e.core e.g entry with
          | .error f => StopsHere i s e f.cause f.qual (codeAddr e.g entry)
          | .ok w => match fetchWord u e.core e.g (tbl + 4 * w) with
            | .error f => StopsHere i s e f.cause f.qual (codeAddr e.g (tbl + 4 * w))
            | .ok pad => match decode e.g.hdr.version pad with
              | .ok (.lpad _ _ l) => if l.toNat = h.toNat % 2 ^ 12 then Jumps i s e r (tbl + 4 * w) SameRegs else StopsHere i s e 0x06 0 0
              | _ => StopsHere i s e 0x06 0 0

/-- Branches, calls and returns, by offset and through registers (12 R309 to R313). The model's own: log 28, DEDUCED (the record of a branch fault is
not WHOLE, and the path resumes at the instruction). -/
def Obligations.Branches : Prop := BranchesPart ∧ IndexedBranchesPart

/-- NOP, LPAD and BRC not taken only go on; YLD ends the run and gives up the path's place (12 R310, R314, R316). -/
def Sys2Proof.Machine.PathGoesOnPart : Prop :=
  ∀ (s : State) (e : Env) (r : Run),
    (∀ z, Issues (.nop z) s e r → Computes (.nop z) s e r e.p.nfr fun st st' => SameAccs st st' ∧ SameRegs st st') ∧
    (∀ z c l, Issues (.lpad z c l) s e r → ∃ t st', exec (.lpad z c l) s = .next t ∧
      Retires (paid (.lpad z c l) e s) t e r (some (e.pc + 4)) false e.st st') ∧
    (∀ z p o, Issues (.brc z p o) s e r → e.st.pred p.toNat (lowest e.p.act) = false → ∃ t st', exec (.brc z p o) s = .next t ∧
      Retires (paid (.brc z p o) e s) t e r (some (e.pc + 4)) false e.st st') ∧
    ∀ z, Issues (.yld z) s e r → ∃ u t st' st2, exec (.yld z) s = .next t ∧ Retires (paid (.yld z) e s) u e r none true e.st st' ∧
      OnlyStrand u t e.k st2 ∧ st2 = st'.setPath e.pi { st'.path e.pi with age := s.now + 1 }

/-- BRD: threads whose predicate is on go to the target, the others on. An undivided strand with both kinds divides into two paths, its stack frozen;
a path of a divided strand pushes a level with the other side pending; with one kind alone a level with nothing pending is pushed, as the latest entry
of the strand (14 R353). A full stack raises 0x0E (12 R292 to R294). The model's own: log 27, DEDUCED (the record of a divergence fault is not WHOLE);
log 34, DEDUCED (a record of a split, or of both paths, names path 0 and a path that unwinds has one of kind 1). -/
def Obligations.Divergence : Prop :=
  ∀ (z : BitVec 1) (q : BitVec 3) (o : BitVec 20) (s : State) (e : Env) (r : Run),
    let i : Instr := .brd z q o
    let x := e.pc + 4 * o.signExtend 32
    let on := e.act &&& e.st.pmask q.toNat
    let off := e.p.act &&& ~~~on
    let deep := (if e.st.role = 3 then 16 else 24) ≤ e.st.frozen.length + e.st.path0.stack.length + e.st.path1.stack.length
    let after (v : State) (st' : Strand) : Prop := v.strand e.k = some st' ∧ Local (paid i e s) v e ∧ Diverged e.st st'
    Issues i s e r → e.pi = 0 ∨ (e.pi = 1 ∧ e.st.divided = true) →
      (e.st.divided = false → on ≠ 0 → off ≠ 0 → ∃ v st', exec i s = .next (v.trace e.k 0 2 (e.pc + 4) off on) ∧ after v st' ∧ st'.divided = true ∧
        st'.frozen = e.p.stack ∧ st'.nfrs = e.p.nfr ∧ v.cur = none ∧
        st'.path0 = { e.pathAfter r (some (e.pc + 4)) true e.p with act := off, stack := [] } ∧
        st'.path1 = { e.pathAfter r (some x) true e.p with act := on, stack := [], isReady := false }) ∧
      (¬ (e.st.divided = false ∧ on ≠ 0 ∧ off ≠ 0) → deep → ∃ t st', exec i s = .next t ∧
        Stops (paid i e s) t e { cause := 0x0E, emask := e.p.act, pc := e.chain } e.after false e.st st') ∧
      (e.st.divided = true → on ≠ 0 → off ≠ 0 → ¬ deep → ∃ v st', exec i s = .next (v.trace e.k e.pi 1 x e.p.act e.pc) ∧ after v st' ∧
        st'.path e.pi = { e.pathAfter r (some x) true e.p with
          act := on, stack := { fmask := on, pmask := off, ppc := e.pc + 4, nfrs := e.p.nfr, pushed := e.st.nextPush } :: e.p.stack }) ∧
      (on ≠ 0 → off = 0 → ¬ deep → ∃ v st', exec i s = .next (v.trace e.k e.pi 1 x e.p.act e.pc) ∧ after v st' ∧
        st'.path e.pi = { e.pathAfter r (some x) true e.p with stack := { fmask := on, nfrs := e.p.nfr, pushed := e.st.nextPush } :: e.p.stack }) ∧
      (on = 0 → ¬ deep → ∃ v st', exec i s = .next v ∧ after v st' ∧
        st'.path e.pi = { e.pathAfter r (some (e.pc + 4)) false e.p with stack := { fmask := off, nfrs := e.p.nfr, pushed := e.st.nextPush } :: e.p.stack })

/-- JOIN of a level: the pending side runs next, with the side done noted; when both are done the threads of both go on after the JOIN with the
level's control bits and the path's flags. The first path of a split to arrive waits; the second joins both into one undivided strand, to which what
either has in flight belongs, and whose run goes on where the next word is the path's own. A JOIN that does not go on at its next word is a taken
branch. A JOIN of nothing raises 0x0F (12 R284, R295, R296). The model's own: log 27, DEDUCED (the record of a divergence fault is not WHOLE); log 34,
DEDUCED (a record of a split, or of both paths, names path 0 and a path that unwinds has one of kind 1); log 100, DESIGN CHOICE (the lookahead counts
that a rejoined path keeps). -/
def Obligations.Rejoins : Prop :=
  ∀ (z : BitVec 1) (s : State) (e : Env) (r : Run),
    let i : Instr := .join z
    let after (v : State) (st' : Strand) : Prop := v.strand e.k = some st' ∧ Local (paid i e s) v e ∧ Diverged e.st st'
    Issues i s e r → e.pi = 0 ∨ (e.pi = 1 ∧ e.st.divided = true) →
      (∀ en es, e.p.stack = en :: es → en.side = false → en.pmask ≠ 0 → ∃ v st',
        exec i s = .next (v.trace e.k e.pi 1 en.ppc en.pmask e.pc) ∧ after v st' ∧ st'.path e.pi = { e.pathAfter r (some en.ppc) true e.p with
          act := en.pmask, nfr := nfrOf en.nfrs e.p.nfr, stack := { en with fmask := e.p.act, side := true, ppc := e.pc } :: es }) ∧
      (∀ en es, e.p.stack = en :: es → (en.side = true ∨ en.pmask = 0) → ∃ v st', exec i s = .next v ∧ after v st' ∧
        st'.path e.pi = { e.pathAfter r (some (e.pc + 4)) false e.p with act := en.fmask ||| e.p.act, nfr := nfrOf en.nfrs e.p.nfr, stack := es }) ∧
      (e.p.stack = [] → e.st.divided = false → ∃ t st', exec i s = .next t ∧
        Stops (paid i e s) t e { cause := 0x0F, emask := e.p.act, pc := e.chain } e.after false e.st st') ∧
      (e.p.stack = [] → e.st.divided = true →
        let q := e.st.path (1 - e.pi)
        (q.arrived = false → q.ended = false → ∃ v st', exec i s = .next v ∧ after v st' ∧ v.cur = none ∧ st'.divided = true ∧
          st'.path (1 - e.pi) = q ∧ st'.path e.pi = { e.pathAfter r (some e.pc) true e.p with arrived := true }) ∧
        (q.arrived = true ∨ q.ended = true → e.p.act ≠ 0 → ∃ u v st', u.strand e.k = some st' ∧ Local (paid i e s) u e ∧
          Diverged { e.st with deferred := e.st.deferred.map fun d => { d with path := 2 } } st' ∧ st'.divided = false ∧
          v = { u with ops := u.ops.map fun (x : Nat × Op) => if x.2.strand = e.k then (x.1, { x.2 with path := 2 }) else x } ∧
          let w := v.trace e.k 0 3 st'.path0.pc st'.path0.act 0
          (st'.path0.pc = e.pc + 4 → exec i s = .next w ∧
            u.cur = (if e.runEnds r false then none else some (e.k, 0)) ∧
            st'.path0.run = if e.runEnds r false then none else some { r with words := r.words + e.len }) ∧
          (st'.path0.pc ≠ e.pc + 4 → exec i s = .next (w.trace e.k 0 1 st'.path0.pc st'.path0.act e.pc) ∧ u.cur = none ∧ st'.path0.run = none) ∧
          st'.frozen = [] ∧ st'.path0.act = e.p.act ||| q.act ∧ st'.path0.stack = e.st.frozen ∧ st'.path0.arrived = false ∧
          st'.path0.nfr = nfrOf e.st.nfrs ((e.p.nfr ||| q.nfr) &&& 0x1F0) ∧ st'.path1 = {} ∧
          (q.act = 0 ∨ lowest e.p.act < lowest q.act → st'.path0.pc = e.pc + 4) ∧
          (q.act ≠ 0 → lowest q.act < lowest e.p.act → st'.path0.pc = q.pc + 4)))

/-- EXIT: the threads its guard qualifies leave every mask of the strand, and those of the path that stay go on after it. A path without threads takes a
branch to the side of a level of its stack that still holds some, pending or done; without such a level it ends. Of a divided strand the other path then goes
on, alone where it has arrived at the rejoin already; where it has ended too, the strand goes on, undivided, at the side of a level under the split that
still holds threads. Without one, or in an undivided strand, no thread is live: the strand seals its open batches, drains and ends (12 R284, R295, R297, R315; 03 R68). That such a branch writes a trace record, and a rejoin one of path 0, is log 34 (DEDUCED), and
that a handler's strand seals nothing log 32 (DEDUCED). -/
def Sys2Proof.Machine.ExitsPart : Prop :=
  ∀ (z : BitVec 1) (s : State) (e : Env) (r : Run),
    let i : Instr := .exit z
    let left := e.p.act &&& ~~~e.act
    let less (en : StackEntry) : StackEntry := { en with fmask := en.fmask &&& ~~~e.act, pmask := en.pmask &&& ~~~e.act }
    let o := e.st.path (1 - e.pi)
    let q : Path := { o with
      stack := o.stack.map less, reissue := o.reissue.map fun (x : Reissue) => { x with live := x.live &&& ~~~e.act } }
    let endPath := e.pathAfter r (some (e.pc + 4)) true e.p
    let bare := unwind endPath (e.p.stack.map less) = none
    let goesOn (v : State) (st' : Strand) : Prop := Local (paid i e s) v e ∧ v.strand e.k = some st' ∧ st'.mode = e.st.mode ∧
      st'.divided = e.st.divided ∧ Diverged e.st st' ∧ st'.path (1 - e.pi) = q
    let branches (pc : Word) (act : Mask) (en : StackEntry) (stack : List StackEntry) : Prop := ∃ v st',
      exec i s = .next (v.trace e.k e.pi 1 pc act e.pc) ∧ goesOn v st' ∧ v.cur = none ∧
      st'.path e.pi = { endPath with act, pc, nfr := nfrOf en.nfrs e.p.nfr, stack }
    Issues i s e r → e.pi = 0 ∨ (e.pi = 1 ∧ e.st.divided = true) → o.act &&& e.act = 0 → (o.act = 0 → o.reissue = none) →
    e.p.reissue = none → e.p.ended = false → e.p.arrived = false → e.st.mode ≠ .exiting →
      (left ≠ 0 → ∃ t st', exec i s = .next t ∧ goesOn t st' ∧
        st'.path e.pi = { e.pathAfter r (some (e.pc + 4)) false e.p with act := left, stack := e.p.stack.map less }) ∧
      (left = 0 → ∀ en es, e.p.stack = en :: es →
        (en.side = false → en.pmask &&& ~~~e.act ≠ 0 → branches en.ppc (en.pmask &&& ~~~e.act) en ({ less en with side := true } :: es.map less)) ∧
        (en.side = true → en.fmask &&& ~~~e.act ≠ 0 → branches (en.ppc + 4) (en.fmask &&& ~~~e.act) en (es.map less))) ∧
      (left = 0 → bare → e.st.divided = true → q.ended = false →
        (q.arrived = false → ∃ t st', exec i s = .next t ∧ goesOn t st' ∧ t.cur = none ∧
          st'.path e.pi = { endPath with act := 0, stack := [], ended := true }) ∧
        (q.arrived = true → q.act ≠ 0 → ∃ u st', exec i s = .next (({ u with
            ops := u.ops.map fun (x : Nat × Op) => if x.2.strand = e.k then (x.1, { x.2 with path := 2 }) else x } : State).trace
              e.k 0 3 (q.pc + 4) q.act 0) ∧ Local (paid i e s) u e ∧ u.strand e.k = some st' ∧ u.cur = none ∧
          Diverged { e.st with deferred := e.st.deferred.map fun d => { d with path := 2 } } st' ∧ st'.divided = false ∧ st'.frozen = [] ∧
          st'.path0.act = q.act ∧ st'.path0.pc = q.pc + 4 ∧ st'.path0.stack = e.st.frozen.map less ∧ st'.path0.run = none ∧
          st'.path0.nfr = nfrOf e.st.nfrs ((e.p.nfr ||| q.nfr) &&& 0x1F0) ∧ st'.path1 = {})) ∧
      (left = 0 → bare → e.st.divided = true → q.ended = true → ∀ on, unwind endPath (e.st.frozen.map less) = some on → ∃ v st',
        exec i s = .next (({ v.trace e.k e.pi 1 on.pc on.act e.pc with
          ops := v.ops.map fun (x : Nat × Op) => if x.2.strand = e.k then (x.1, { x.2 with path := 2 }) else x } : State).trace e.k 0 3 on.pc on.act 0) ∧
        Local (paid i e s) v e ∧ v.strand e.k = some st' ∧ v.cur = none ∧
        Diverged { e.st with deferred := e.st.deferred.map fun d => { d with path := 2 } } st' ∧ st'.divided = false ∧ st'.frozen = [] ∧
        st'.path0.act = on.act ∧ st'.path0.pc = on.pc ∧ st'.path0.stack = on.stack ∧ st'.path0.run = none ∧ st'.path0.ended = false ∧
        st'.path0.nfr = nfrOf on.nfr ((e.p.nfr ||| q.nfr) &&& 0x1F0) ∧ st'.path1 = {}) ∧
      (left = 0 → bare → (e.st.divided = true → q.ended = true ∧ unwind endPath (e.st.frozen.map less) = none) → ∃ u t st1 st', exec i s = .next t ∧
        Local (paid i e s) u e ∧ u.strand e.k = some st1 ∧ (st1.path e.pi).act = 0 ∧ (st1.path e.pi).stack = [] ∧ (st1.path e.pi).ended = true ∧
        st1.path (1 - e.pi) = q ∧ u.cur = none ∧
        (e.st.mode = .handler → t = u ∧ st' = st1 ∧ st1.mode = .handler) ∧
        (e.st.mode ≠ .handler → st1.mode = .exiting ∧ t.strand e.k = some st' ∧ (∀ k, k ≠ e.k → t.strand k = u.strand k) ∧
          (∀ a, a < 4 → rd 0 st'.sealedB a = rd 0 st1.sealedB a + if st1.unfinished a < 16 then 1 else 0) ∧
          st' = { st1 with sealedB := st'.sealedB, finishedB := st'.finishedB, deferred := st'.deferred } ∧
          t = { u with strands := t.strands, ops := u.ops.map fun x => (x.1, match x.2.acc with
            | some a => if x.2.strand = e.k ∧ x.2.batch = none ∧ a < 4 ∧ st1.unfinished a < 16
              then { x.2 with batch := some (rd 0 st1.sealedB a + 1) } else x.2
            | none => x.2) }))

/-- A chain that waits at issue has no effect: its run ends before it, and it issues again (12 R285); one that the scoreboard or the lookahead holds
leaves its path the lane (06 R137, 12 R286). An MRD or an MZ of a tile that is busy notes what it waits for, and an MRD counts an early read (10 R257, 15
R379; that its path keeps its lane, and when the count is made, is log 108, DEDUCED). All let another path issue. -/
def Sys2Proof.Machine.PathsWaitPart : Prop :=
  ∀ (i : Instr) (s : State) (e : Env) (r : Run), (encode i).isSome = true → hinted {} i = none → envOf i s = some (e, r) →
    r.words + e.len ≤ runLimit e.g.hdr.version →
    let stays : Prop := ∃ t st', exec i s = .next t ∧ OnlyStrand { begun s e with cur := none } t e.k st' ∧
      st' = e.st.setPath e.pi { e.p with pc := e.chain, hints := {}, chainLen := 0 }
    (lookaheadHeld (begun s e) e.p e.len = true → stays) ∧
    (lookaheadHeld (begun s e) e.p e.len = false → breakpoints (begun s e) e = [] →
      (guardHeld (begun s e) e = true → stays) ∧
      (guardHeld (begun s e) e = false → deferredStop (begun s e) e = none → decodeFault e = none →
        (dependHeld (begun s e) e = true → stays) ∧
        (dependHeld (begun s e) e = false → e.skips = false → (waits (begun s e) e = .stall → stays) ∧
          (waits (begun s e) e = .hold → ∃ t st', exec i s = .next t ∧ Waits (begun s e) t e e.st st') ∧
          (waits (begun s e) e = .await → ∃ t st', exec i s = .next t ∧ t.strand e.k = some st' ∧ (∀ k, k ≠ e.k → t.strand k = s.strand k) ∧
            st' = e.st.setPath e.pi { e.p with pc := e.chain, hints := {}, chainLen := 0, awaits := e.toAwait s } ∧
            (∀ c, t.core c = { s.core c with evc1 := (t.core c).evc1 }) ∧ t = { s with strands := t.strands, cores := t.cores, cur := none } ∧
            (∀ c, c ≠ e.core → (t.core c).evc1 = (s.core c).evc1) ∧ (t.core e.core).evc1.toNat % 2 ^ 32 = (match i with
              | .mrd .. => min ((s.core e.core).evc1.toNat % 2 ^ 32 + 1) (2 ^ 32 - 1)
              | _ => (s.core e.core).evc1.toNat % 2 ^ 32)))))

/-- Where a path goes on after a word, where it waits, and where EXIT ends it (06 R137; 12 R284 to R286, R297, R315). The model's own: log 32, DEDUCED
(EXIT in a handler, and what ends a split whose paths have both lost their threads); log 34, DEDUCED (a record of a split, or of both paths, names
path 0 and a path that unwinds has one of kind 1); log 82, DEDUCED (a path's age is dated in steps); log 108, DEDUCED (how an MRD or an MZ waits). -/
def Obligations.PathEnds : Prop := PathGoesOnPart ∧ PathsWaitPart ∧ ExitsPart

/-- A trace record: none where the core sends none, or the die's unit takes none of the kind or the context; else its 32 bytes join those the unit
holds in flight, or where it holds 256, or does not wrap and its buffer is full, a drop is counted. A record in flight is written at the head, and
the head goes on (15 R380, R381). -/
def Sys2Proof.Machine.TraceRecordsPart : Prop :=
  ∀ (s : State),
    let cap (d : Nat) : Nat := (s.die d).trlen.toNat % 2 ^ 32
    let full (d : Nat) : Bool := !(s.die d).trctl.getLsbD 1 && (s.die d).trhead.toNat == cap d
    let dropped (t : State) (d : Nat) : Prop := t = { s with dies := t.dies } ∧ (∀ d', d' ≠ d → t.die d' = s.die d') ∧
      t.die d = { s.die d with trlen := (t.die d).trlen } ∧ (t.die d).trlen.toNat % 2 ^ 32 = cap d ∧
      (t.die d).trlen.toNat / 2 ^ 32 = min ((s.die d).trlen.toNat / 2 ^ 32 + 1) (2 ^ 32 - 1)
    (∀ (k pi kind : Nat) (pc mask aux : Word) (st : Strand) (g : Gang), s.strand k = some st → s.gang st.gang = some g →
      let d := coreDie (coreOf k)
      let c := (s.die d).trctl
      let wanted := (s.core (coreOf k)).dbgctl.getLsbD 2 && c.getLsbD 0 && c.getLsbD (2 + kind) && (c.getLsbD 16 || c.toNat / 2 ^ 10 % 2 ^ 6 == g.task.ctx)
      let held := (s.die d).traced
      let t := s.trace k pi kind pc mask aux
      (wanted = false ∨ cap d = 0 → t = s) ∧
      (wanted = true → cap d ≠ 0 → full d = false → held.length < 256 → ∃ bs : List Byte, bs.length = 32 ∧
        fieldAt bs 0 4 = (kind + d * 2 ^ 4 + coreIn (coreOf k) * 2 ^ 6 + coreQuad (coreOf k) * 2 ^ 8 + slotOf k * 2 ^ 14 + pi * 2 ^ 23 + g.task.ctx * 2 ^ 24) % 2 ^ 32 ∧
        fieldAt bs 4 4 = pc.toNat ∧ fieldAt bs 8 4 = mask.toNat ∧ fieldAt bs 12 4 = aux.toNat ∧ fieldAt bs 16 8 = dieCycle d s.now % 2 ^ 64 ∧
        fieldAt bs 24 4 = g.index % 2 ^ 32 ∧ fieldAt bs 28 4 = g.gslot % 2 ^ 32 ∧
        t.die d = { s.die d with traced := held ++ [bs] } ∧ (∀ d', d' ≠ d → t.die d' = s.die d') ∧ t = { s with dies := t.dies }) ∧
      (wanted = true → cap d ≠ 0 → full d = true ∨ 256 ≤ held.length → dropped t d)) ∧
    ∀ (d : Nat) (bs : List Byte), bs.length = 32 →
      let head := (s.die d).trhead.toNat
      let place := (s.die d).trbase.toNat + 32 * (head % cap d)
      let t := s.writeTrace d bs
      (cap d = 0 → t = s) ∧
      (cap d ≠ 0 → full d = true → dropped t d) ∧
      (cap d ≠ 0 → full d = false → t.die d = { s.die d with trhead := BitVec.ofNat 64 (head + 1) } ∧ (∀ d', d' ≠ d → t.die d' = s.die d') ∧
        t = { s with mem := t.mem, dies := t.dies } ∧ (spread s place 32 → ∀ j, j < 32 → readByte t.mem (s.sysKey (place + j)) = bs.getD j 0) ∧
        OnlyBytes s t (sysKeys s place 32))

/-- A hint word joins its chain: the path goes on to the next word with the payload noted, nothing else changes; a second hint of a kind in one chain
raises 0x03, with no effect, unless the chain is held or stopped before (06 R139, R140, R142, R146). -/
def Obligations.HintWords : Prop :=
  ∀ (i : Instr) (s : State) (e : Env) (r : Run) (h : Hints) (twice : Bool) (st : Strand), envOf i s = some (e, r) → s.strand e.k = some st →
    i.wf = true → hinted e.h i = some (h, twice) →
    (twice = false → ∃ t st', exec i s = .next t ∧ OnlyStrand s t e.k st' ∧
      st' = st.setPath e.pi { st.path e.pi with pc := e.pc + 4, hints := h, chainPc := e.chain, chainLen := e.len }) ∧
    (twice = true → r.words + e.len ≤ runLimit e.g.hdr.version → lookaheadHeld s e.p e.len = false → breakpoints s e = [] →
      ∃ t st', exec i s = .next t ∧ Stops (s.charge e.core e.ctx 2 e.len) t e (wholeFault e 0x03 0 0) e.after false st st')

/-- PLN writes the plane block of the active threads' elements; UPLN unpacks one; an address that fails a check stops the strand, and so does a block
that breaks a rule of its form. A flag that is enabled to trap leaves PLN without effect, and of UPLN the threads that raise it (10 R261, R262; 05
R105, R119 to R124; 14 R344). The model's own: log 26, DEDUCED (the record has the lowest enabled code of all threads and names them all); log 29,
DESIGN CHOICE (scratchpad accesses act as they issue); log 39, DEDUCED (what FZ32 does not flush); log 113, DESIGN CHOICE (the clamped scale of a TS8
block); log 121, DESIGN CHOICE (a stored zero in a block of one plane). -/
def Obligations.PlaneBlocks : Prop :=
  ∀ (s : State) (e : Env) (r : Run),
    (∀ (z : BitVec 1) (a : BitVec 7) (u : BitVec 6) (p : BitVec 4) (d : BitVec 1) (c : BitVec 2), Issues (.pln z a u p d c) s e r →
      let i : Instr := .pln z a u p d c
      let addr := (e.st.sreg u.toNat).toNat
      let block := e.planes a p d c
      (∀ f, scratchRange e.g addr block.1.length 16 = .error f → StopsWhole i s e f.cause f.qual addr) ∧
      (∀ k, scratchRange e.g addr block.1.length 16 = .ok k → trapped e.p.nfr block.2 ≠ 0 →
        StopsWhole i s e (numericCause (trapped e.p.nfr block.2)) 0 0) ∧
      ∀ k, scratchRange e.g addr block.1.length 16 = .ok k → trapped e.p.nfr block.2 = 0 → Effects i s e r fun v st1 =>
        st1 = e.st.setPath e.pi { e.p with nfr := e.p.nfr ||| BitVec.ofNat 32 block.2 <<< 4 } ∧
        v = { (paid i e s).charge e.core e.ctx 5 (occupancy (keysFrom k block.1.length)) with mem := v.mem, strands := v.strands } ∧
        (∀ j b, block.1[j]? = some b → readByte v.mem (k + j) = b) ∧
        ∀ a', a' < k ∨ k + block.1.length ≤ a' → readByte v.mem a' = readByte s.mem a') ∧
    ∀ (z : BitVec 1) (d : BitVec 7) (u : BitVec 6) (t : BitVec 2), Issues (.upln z d u t) s e r →
      let i : Instr := .upln z d u t
      let addr := (e.st.sreg u.toNat).toNat
      (∀ f, scratchRange e.g addr 16 16 = .error f → StopsWhole i s e f.cause f.qual addr) ∧
      ∀ k, scratchRange e.g addr 16 16 = .ok k →
        let b := parseBlock (readAt s.mem k 16)
        let n := if b.sfmt = 0x15 then 48 else 16 + 4 * b.p
        (b.ok = false → StopsWhole i s e 0x27 0 addr) ∧
        (b.ok = true → ∀ f, scratchRange e.g addr n 16 = .error f → StopsWhole i s e f.cause f.qual addr) ∧
        (b.ok = true → scratchRange e.g addr n 16 = .ok k → (∃ a', k ≤ a' ∧ a' < k + n ∧ a' ∈ s.phys.bad) → StopsWhole i s e 0xB2 0 addr) ∧
        (b.ok = true → scratchRange e.g addr n 16 = .ok k → (∀ a', k ≤ a' → a' < k + n → a' ∉ s.phys.bad) →
          let x := parseBlock (readAt s.mem k n)
          let f (q : Nat) : Nat × Nat := blockElement e.p.nfr e.rm x (if t = 0 then x.sfmt else 0x0F + t.toNat) q
          let v := (paid i e s).charge e.core e.ctx 5 (occupancy (keysFrom k n))
          ((∀ q ∈ e.ts, trapped e.p.nfr (f q).2 = 0) →
            ComputesFrom i s v e r (e.p.nfr ||| BitVec.ofNat 32 (unionFlags (e.ts.map fun q => (f q).2)) <<< 4) fun st st1 =>
              SameAccs st st1 ∧ WritesVector st st1 e.act d.toNat 1 fun q => (f q).1) ∧
          TrapsThreads i s v e r (fun q => (f q).2) fun good st1 => WritesVector e.st st1 good d.toNat 1 fun q => (f q).1)

/-- MZ clears an accumulator tile and gives it a window; MRD reads rows of one into the threads' registers, each element rounded once; MLD enters the
core's matrix queue. All three raise 0x0C outside a team gang, where MRD runs no beat, and the threads of MRD that raise an enabled flag have no
effect (10 R246, R263, R264, R266; 05 R105; 14 R344, R364). The model's own: log 26, DEDUCED (the record has the lowest enabled code of all threads
and names them all); log 40, DESIGN CHOICE (when a matrix operation reads its sources); log 49, DEDUCED (what is charged); log 108, DEDUCED (how an
MRD or an MZ waits). -/
def Obligations.AccumulatorTiles : Prop :=
  ∀ (s : State) (e : Env) (r : Run),
    (∀ i, Issues i s e r → e.team = false →
      ((∃ z n w, i = .mz z n w) ∨ (∃ z n u g l, i = .mld z n u g l) → StopsWhole i s e 0x0C 0 0) ∧
      ((∃ z d n q l h f, i = .mrd z d n q l h f) → StopsFrom i s (spent e s) e 0x0C 0 0)) ∧
    (∀ (z : BitVec 1) (n : BitVec 3) (w : BitVec 9), Issues (.mz z n w) s e r → e.team = true → Effects (.mz z n w) s e r fun u st1 =>
      st1 = e.st ∧ u = { paid (.mz z n w) e s with gangs := u.gangs } ∧ ∃ g', OnlyGang s u e.st.gang g' ∧
      g' = { e.g with tiles := g'.tiles, windows := g'.windows } ∧
      (∀ m j q, j < 16 → q < 64 → g'.elem m j q = if m = n.toNat then {} else e.g.elem m j q) ∧
      ∀ m, g'.window m = if m = n.toNat then w.toInt else e.g.window m) ∧
    (∀ (z : BitVec 1) (d : BitVec 7) (n : BitVec 3) (q : BitVec 4) (l : BitVec 3) (h f : BitVec 1),
      Issues (.mrd z d n q l h f) s e r → e.team = true →
      let w := e.g.window n.toNat
      let one (t j : Nat) : Nat × Nat :=
        if f = 0 then readElem fp32 e.rm e.fz32 (e.g.elem n.toNat (q.toNat + j) (32 * h.toNat + t)) w
        else
          let lo := readElem bf16 e.rm e.fz16 (e.g.elem n.toNat (q.toNat + j) t) w
          let hi := readElem bf16 e.rm e.fz16 (e.g.elem n.toNat (q.toNat + j) (32 + t)) w
          (lo.1 + 2 ^ 16 * hi.1, orFlags lo.2 hi.2)
      let flags (t : Nat) : Nat := unionFlags ((List.range (2 ^ l.toNat)).map fun j => (one t j).2)
      let i : Instr := .mrd z d n q l h f
      let rows (t : Nat) : Nat := ((List.range (2 ^ l.toNat)).map fun j => (one t j).1 * 2 ^ (32 * j)).sum
      ((∀ t ∈ e.ts, trapped e.p.nfr (flags t) = 0) →
        ComputesFrom i s (paid i e s) e r (e.p.nfr ||| BitVec.ofNat 32 (unionFlags (e.ts.map flags)) <<< 4) fun st st1 =>
          SameAccs st st1 ∧ WritesVector st st1 e.act d.toNat (2 ^ l.toNat) rows) ∧
      TrapsThreads i s (paid i e s) e r flags fun good st1 => WritesVector e.st st1 good d.toNat (2 ^ l.toNat) rows) ∧
    ∀ (z : BitVec 1) (n : BitVec 3) (u : BitVec 6) (g : BitVec 1) (l : BitVec 4), Issues (.mld z n u g l) s e r → e.team = true →
      let i : Instr := .mld z n u g l
      let size := if g = 1 then 16384 else 4096
      let addr := (e.st.sreg u.toNat).toNat
      (∀ f, scratchRange e.g addr size 128 = .error f → StopsWhole i s e f.cause f.qual addr) ∧
      ∀ k, scratchRange e.g addr size 128 = .ok k → ∃ v t st1 st', exec i s = .next t ∧
        StartsOp (paid i e s) v e { kind := .mld n.toNat k (g == 1) e.rm, acc := some 2, outstanding := false } st1 ∧
        Retires (((v.onCore e.core fun c => { c with queue := c.queue ++ [s.nextId] }).charge e.core e.ctx 4 16).charge e.core e.ctx 5 (size / 1024))
          t e r none false st1 st'

/-- MMA and MMT: the entry joins its core's match list and the path waits while another core of the quad has none, or while an entry that reuses a
buffer follows an operation of its core that is not committed; when the four first entries agree and their operands pass, all four are accepted: they
join their cores' queues, and the path goes on in its run. An entry that waits in a gang marked for swap leaves its list at once (12 R307). Outside a
team gang 0x0C (10 R247, R248, R252 to R254, R265; 12 R285). The wait for a buffer is the model's reading (log 93, DEDUCED). The model's own: log 40,
DESIGN CHOICE (when a matrix operation reads its sources); log 93, DEDUCED (an entry that reuses a buffer waits for the operation before it); log 122,
DESIGN CHOICE (the address of a quarter from the buffer); log 123, DESIGN CHOICE (an error in a block header). -/
def Obligations.JointOperations : Prop :=
  ∀ (i : Instr) (mmt : Bool) (n : BitVec 3) (u : BitVec 5) (ra rb : BitVec 1) (p : BitVec 4) (s : State) (e : Env) (r : Run),
    jointForm i = some (mmt, n, u, ra, rb, p) → Issues i s e r →
    let mine := e.entry mmt n u ra rb p s.now
    let v := e.joined mine s
    let w := e.hold (if e.withdrawn then v.withdraw s.nextId else v)
    let core (c : Nat) : Nat := quadCore (quadOf e.core) c
    let heads (h : Nat → Nat) (o : Nat → Op) (a b : Nat → Nat) (qa qb : Nat → Bool) (pb tag : Nat) : Prop := ∀ c, c < 4 →
      (v.core (core c)).matchList.head? = some (h c) ∧ v.op (h c) = some (o c) ∧ (o c).core = core c ∧
      (o c).kind = .mma n.toNat mmt (a c) (b c) (qa c) (qb c) pb tag false
    let waits (c : Nat) (qa qb : Nat → Bool) : Prop := (qa c = true ∨ qb c = true) ∧ uncommitted v (core c)
    (e.team = false → StopsWhole i s e 0x0C 0 0) ∧
    (e.team = true → (∃ c, c < 4 ∧ core c ≠ e.core ∧ (s.core (core c)).matchList = []) → exec i s = .next w ∧
      (e.withdrawn = false → w.op s.nextId = some mine ∧ (w.core e.core).matchList = (s.core e.core).matchList ++ [s.nextId]) ∧
      (e.withdrawn = true → w.op s.nextId = none ∧ (w.core e.core).matchList = (s.core e.core).matchList.filter (· != s.nextId)) ∧ w.cur = none ∧ (∀ k, k ≠ e.k → w.strand k = s.strand k) ∧
      w.strand e.k = some (e.st.setPath e.pi { e.p with pc := e.chain, hints := {}, chainLen := 0, run := none }) ∧
      (∀ j, j ≠ s.nextId → w.op j = s.op j) ∧ w.mem = s.mem ∧ w.gangs = s.gangs) ∧
    (e.team = true → ∀ (h : Nat → Nat) (o : Nat → Op) (a b : Nat → Nat) (qa qb : Nat → Bool) (pb tag : Nat), heads h o a b qa qb pb tag →
      (∃ c, c < 4 ∧ waits c qa qb) → exec i s = .next w) ∧
    (e.team = true → e.pi = 0 ∨ (e.pi = 1 ∧ e.st.divided = true) → ∀ (h : Nat → Nat) (o : Nat → Op) (g : Nat → Gang) (a b : Nat → Nat)
        (qa qb : Nat → Bool) (pb tag : Nat) (m : Nat → Member4),
      heads h o a b qa qb pb tag → (∀ c, c < 4 → v.gang (o c).gang = some (g c) ∧ (core c ≠ e.core → (o c).strand ≠ e.k) ∧ ¬ waits c qa qb ∧
        memberCheck v (core c) (g c) mmt (a c) (b c) (qa c) (qb c) pb = .ok (m c)) →
      (∀ c c', c < 4 → c' < 4 → h c = h c' → c = c') → (∃ c, c < 4 ∧ core c = e.core ∧ h c = s.nextId) →
      peek v e.core e.g 8 e.p = (some i, e.p) →
      ∃ t st', exec i s = .next t ∧ t.strand e.k = some st' ∧ st'.path e.pi = e.pathAfter r none false e.p ∧
        t.cur = (if e.runEnds r false then none else some (e.k, e.pi)) ∧
        (∀ c, c < 4 → t.op (h c) = some { o c with
            kind := .mma n.toNat mmt (a c) (b c) (qa c) (qb c) pb tag true, acc := some 2, outstanding := false
            data := [(m c).bufA.data, (m c).bufB.data], items := if (m c).bad then [{ t := 0, bad := 0xB2 }] else [] } ∧
          (t.core (core c)).queue = (v.core (core c)).queue ++ [h c] ∧ (t.core (core c)).matchList = (v.core (core c)).matchList.filter (· != h c)) ∧
        (∀ j, (∀ c, c < 4 → j ≠ h c) → t.op j = v.op j) ∧ t.mem = s.mem ∧ t.gangs = s.gangs)

/-- The arrival of BAR.arrive and BAR.arrive-wait: a legal count joins the slot, completes the phase with the last one, and the strand's target is the phase it
met; every other arrival raises its cause. BAR.wait goes on once the target phase has completed, acquiring at QUAD scope and wider;
without a target it takes the phase that stands and waits (13 R338 to R342). -/
def Sys2Proof.Machine.BarrierWaitsPart : Prop :=
  ∀ (s : State) (e : Env) (r : Run) (z : BitVec 1) (n : BitVec 7) (d : BitVec 1) (c : BitVec 3) (q : BitVec 6),
    let scope := c.toNat
    let key := barKey scope (barOwner e.g e.st.gang scope) q.toNat
    let bit := targetBit scope q.toNat
    let b := s.bar key
    let x := if d = 1 then (if scope = 1 then e.g.hdr.nstr else 4 * e.g.hdr.nstr) else (e.st.sreg n.toNat).toNat
    let lone : Instr := .barArrive z n d c q
    let wait : Instr := .barWait z c q
    let both : Instr := .barArriveWait z n d c q
    let done (i : Instr) (st1 : Strand) (b' : BarSlot) : Prop := Effects i s e r fun u st2 => OnlySlot s u key b' ∧ OnlyTarget e.st st2 bit none ∧
      st2 = { st1 with targets := st2.targets } ∧ ∃ w, w = { paid i e s with bars := w.bars, strands := w.strands } ∧ u = if 2 ≤ scope then w.acquire e.core else w
    (∀ i, i = lone ∨ i = wait ∨ (i = both ∧ e.p.half = false) → Issues i s e r → ∀ f, e.slotFault s scope q.toNat = some f → StopsWhole i s e f.1 f.2 0) ∧
    (∀ i, i = lone ∨ (i = both ∧ e.p.half = false) → Issues i s e r → e.slotFault s scope q.toNat = none →
      (x < 1 ∨ countLimit scope < x ∨ b.err = true → StopsWhole i s e 0x60 0 0) ∧
      (1 ≤ x → x ≤ countLimit scope → b.err = false → 0 < b.arr →
        (x ≠ b.exp → StopsWhole i s e 0x60 0x19 0) ∧ (x = b.exp → b.arr = b.exp → StopsWhole i s e 0x60 0x1A 0))) ∧
    (Issues lone s e r → e.slotFault s scope q.toNat = none → mayArrive b scope x → Effects lone s e r fun u st1 =>
      OnlySlot s u key (arrived b scope x) ∧ OnlyTarget e.st st1 bit (some b.phase) ∧ st1 = { e.st with targets := st1.targets } ∧
      u = { paid lone e s with bars := u.bars, strands := u.strands }) ∧
    (Issues wait s e r → e.slotFault s scope q.toNat = none → b.err = true → StopsWhole wait s e 0x60 0 0) ∧
    (Issues wait s e r → e.slotFault s scope q.toNat = none → b.err = false → ∀ ph, look e.st.targets bit = some ph → ph ≠ b.phase → done wait e.st b) ∧
    (Issues wait s e r → e.slotFault s scope q.toNat = none → b.err = false → look e.st.targets bit = none → ∃ u t st1 st', exec wait s = .next t ∧
      Waits u t e st1 st' ∧ OnlyStrand (begun s e) u e.k st1 ∧ OnlyTarget e.st st1 bit (some b.phase) ∧ st1 = { e.st with targets := st1.targets }) ∧
    (Issues both s e r → e.slotFault s scope q.toNat = none → e.p.half = false → mayArrive b scope x →
      ((arrived b scope x).phase ≠ b.phase → done both (e.st.setPath e.pi { e.p with half := true }) (arrived b scope x)) ∧
      ((arrived b scope x).phase = b.phase → ∃ u t st1 st', exec both s = .next t ∧ Waits u t e st1 st' ∧ OnlySlot s u key (arrived b scope x) ∧
        OnlyTarget e.st st1 bit (some b.phase) ∧ st1 = ({ e.st with targets := st1.targets } : Strand).setPath e.pi { e.p with half := true } ∧
        (∀ k, k ≠ e.k → u.strand k = s.strand k) ∧ u = { begun s e with bars := u.bars, strands := u.strands })) ∧
    (Issues both s e r → e.slotFault s scope q.toNat = none → e.p.half = true → b.err = false → ∀ ph, look e.st.targets bit = some ph → ph ≠ b.phase →
      done both e.st b)

/-- BART sets or adds to the pending bytes of a CORE slot, which enters its error state beyond the range of 32 bits; FENCE goes on once what it waits for
has come, acquiring at QUAD scope and wider where it covers loads; POD scope needs a pod (03 R69, R70; 11 R277, R278; 13 R341). -/
def Sys2Proof.Machine.PendingBytesAndFencesPart : Prop :=
  ∀ (s : State) (e : Env) (r : Run),
    (∀ (z : BitVec 1) (v : BitVec 7) (m : BitVec 1) (c : BitVec 5), Issues (.bart z v m c) s e r →
      let i : Instr := .bart z v m c
      let key := barKey 1 e.st.gang c.toNat
      let b := s.bar key
      let x := (e.st.sreg v.toNat).toInt
      let sum := b.pend + x
      let full (b : BarSlot) : BarSlot := if b.exp ≠ 0 ∧ b.arr = b.exp ∧ b.pend = 0 then { b with phase := b.phase + 1, arr := 0 } else b
      (16 ≤ c.toNat ∨ e.g.hdr.nbcore ≤ c.toNat → StopsWhole i s e 0x60 0 0) ∧
      (c.toNat < 16 → c.toNat < e.g.hdr.nbcore → Effects i s e r fun u st1 => st1 = e.st ∧ u = { paid i e s with bars := u.bars } ∧
        OnlySlot s u key (if m = 1 then full { b with pend := x, arr := 0, err := false }
          else if -2 ^ 31 ≤ sum ∧ sum < 2 ^ 31 then full { b with pend := sum } else { b with err := true }))) ∧
    ∀ (z : BitVec 1) (c : BitVec 3) (k : BitVec 2), Issues (.fence z c k) s e r →
      let i : Instr := .fence z c k
      (c = 5 → s.wilmo = false → StopsWhole i s e 0x05 0 0) ∧
      (c ≠ 5 ∨ s.wilmo = true → Effects i s e r fun u st1 => st1 = e.st ∧
        u = if k ≠ 1 ∧ 2 ≤ c.toNat then (paid i e s).acquire e.core else paid i e s)

/-- Barrier slots, pending bytes and FENCE (03 R69, R70; 11 R277, R278; 13 R339 to R342). The model's own: log 14, DEDUCED (a phase completes only
where EXP is not zero); log 80, DEDUCED (a release holds the word). -/
def Obligations.BarriersAndFences : Prop := BarrierWaitsPart ∧ PendingBytesAndFencesPart

/-- SPWN submits one record for each active thread, in order, with half the weight that is left each time, 2^32 borrowed from the domain first where 1 is
left, to the queue of a quad with room or else to the spill, and is outstanding until all are accepted; TAKE takes the oldest record that
matches, its weight and its bytes, and reads 0 where there is none; a returned holding raises 0x62, a recovery strand 0x60 (13 R329, R333,
R334). -/
def Sys2Proof.Machine.TaskRecordsPart : Prop :=
  ∀ (s : State) (e : Env) (r : Run),
    (∀ (z : BitVec 1) (a : BitVec 7) (h c : BitVec 1) (l : BitVec 4), Issues (.spwn z a h c l) s e r →
      let i : Instr := .spwn z a h c l
      let hold := if h = 1 then e.g.sec else some e.g.prim
      (e.st.recov.isSome = true → StopsWhole i s e 0x60 0 0) ∧
      (e.st.recov = none → ∀ (ks : Nat → List Nat) (x : Holding), hold = some x →
        (∀ t ∈ e.ts, scratch e.g (e.st.src a.toNat t).toNat 64 = .ok (ks t) ∧ ∀ k ∈ ks t, k ∉ s.phys.bad) →
        (x.returned = true ∨ e.ts = [] → ∃ u v st1 st2, Retires u v e r none false st1 st2 ∧ Unsent ((paid i e s).charge e.core e.ctx 5 1) u e st1 ∧
          (e.ts = [] → exec i s = .next v) ∧
          (e.ts ≠ [] → ∃ t st', exec i s = .next t ∧
            Stops v t e { cause := 0x62, emask := e.act, pc := e.chain, addr := (e.st.src a.toNat (lowest e.act)).toNat } e.after false st2 st')) ∧
        (x.returned = false → e.ts ≠ [] → let lent : Bool := decide (x.domain ≠ noDomain ∧ x.weight = 1)
          (x.domain = noDomain ∨ (domainBroken s x.domain = false ∧ (2 ^ 32 ≤ x.weight ∨ (x.weight = 1 ∧ domainValid s x.domain e.ctx = true)))) → ∀ (recs : List TakeReq),
          recs.length = e.ts.length →
          let b : State := if lent then s.domainIssue x.domain (2 ^ 32) else s
          let w := if lent then 1 + 2 ^ 32 else x.weight
          (∀ j t q, e.ts[j]? = some t → recs[j]? = some q →
            let s' : State := { (if j = 0 then s else b) with pkg := { s.pkg with port := s.pkg.port ++ recs.take j } }
            q.task = { parseTask ((ks t).map (readByte s'.mem)) with
              weight := if x.domain = noDomain then 0 else halved j w / 2, domain := x.domain, ctx := e.ctx } ∧
            q.origin = 1 ∧ q.addr = 0 ∧ q.pinned = false ∧ q.op = some s.nextId ∧
            let quad := if c = 1 then some (quadOf e.core) else s'.chooseQuad none 1
            (q.spill = false ∧ q.quad = quad ∧ ∃ p, quad = some p ∧ 0 < s'.room p) ∨
              (q.spill = true ∧ q.quad = none ∧ (∀ p, quad = some p → s'.room p = 0) ∧ spillRoom s' e.ctx = true)) →
          ∃ v u t st1 st', exec i s = .next t ∧ StartsOp (paid i e s) v e { kind := .spwn e.ts.length } st1 ∧ Retires u t e r none false st1 st' ∧
            u = { v.charge e.core e.ctx 5 (occupancy (e.ts.flatMap ks)) with mem := b.mem, pkg := { s.pkg with port := s.pkg.port ++ recs }, gangs := u.gangs } ∧
            (lent = true → domainNat s x.domain 0 12 < 2 ^ 96 - 2 ^ 32 → domainNat b x.domain 0 12 = domainNat s x.domain 0 12 + 2 ^ 32 ∧ OnlyDomain s b x.domain) ∧
            let x' := if x.domain = noDomain then x else { x with weight := halved e.ts.length w }
            OnlyGang s u e.st.gang (if h = 1 then { e.g with sec := some x' } else { e.g with prim := x' })))) ∧
    ∀ (z : BitVec 1) (d a : BitVec 7) (l : BitVec 4), Issues (.take z d a l) s e r →
      let i : Instr := .take z d a l
      let addr := (e.st.sreg a.toNat).toNat
      (e.st.recov.isSome = true → StopsWhole i s e 0x60 0 0) ∧
      (e.st.recov = none → e.g.prim.returned = true → StopsWhole i s e 0x62 0 0) ∧
      (e.st.recov = none → e.g.prim.returned = false →
        (∀ f, scratch e.g addr 64 = .error f → StopsWhole i s e f.cause f.qual addr) ∧
        ∀ ks, scratch e.g addr 64 = .ok ks →
          (takeable (paid i e s) e.g (quadOf e.core) = none → Computes i s e r e.p.nfr fun st st' => SameAccs st st' ∧ WritesUniform st st' d.toNat 1 0) ∧
          ∀ q, takeable (paid i e s) e.g (quadOf e.core) = some q → Effects i s e r fun u st1 => WritesUniform e.st st1 d.toNat 1 1 ∧
            st1 = { e.st with s := st1.s } ∧ ∃ w : State, OnlyStrand (w.acquire e.core) u e.k st1 ∧
            w = { ((paid i e s).launchEnded q.launch).charge e.core e.ctx 5 (occupancy ks) with quads := w.quads, gangs := w.gangs, mem := w.mem } ∧
            (∀ n, w.quad n = if n = quadOf e.core then { s.quad n with queue := (s.quad n).queue.filter fun x => x.id != q.id } else s.quad n) ∧
            OnlyGang s w e.st.gang { e.g with prim := { e.g.prim with weight := e.g.prim.weight + q.task.weight } } ∧
            (∀ (j k : Nat), ks[j]? = some k → (∀ (j' k' : Nat), j < j' → ks[j']? = some k' → k' ≠ k) →
              some (readByte w.mem k) = ({ q.task with weight := 0 } : Task).bytes[j]?) ∧ ∀ k, k ∉ ks → readByte w.mem k = readByte s.mem k)

/-- DONE returns the gang's weight, or half of it, to the successor counter it names or to its domain; QDOM forms a domain record of the lowest free
index with weight 2^63, or reads all ones; WAITQ returns the secondary's weight, waits for the domain, then frees it and reads how it ended (13 R327,
R335 to R337). -/
def Obligations.Domains : Prop :=
  ∀ (s : State) (e : Env) (r : Run),
    (∀ i, Issues i s e r → e.st.recov.isSome = true → (∃ z a c, i = .done z a c) ∨ (∃ z d, i = .waitq z d) ∨ (∃ z d, i = .qdom z d) → StopsWhole i s e 0x60 0 0) ∧
    (∀ (z : BitVec 1) (a : BitVec 7), Issues (.done z a 0) s e r → e.st.recov = none →
      let i : Instr := .done z a 0
      let t := e.g.task
      (e.g.prim.returned = true → StopsWhole i s e 0x62 0 0) ∧
      (e.g.prim.returned = false → (t.succ ≠ 0 → ∃ l, checkCounter (paid i e s) e.die e.ctx t.succ (if t.graph then some t.gen else none) = .ok l) →
        let g' : Gang := { e.g with prim := { e.g.prim with returned := true } }
        (t.succ = 0 → e.g.prim.weight = 0 ∨ e.g.prim.domain = noDomain → Effects i s e r fun u st1 => st1 = e.st ∧
          OnlyGang s u e.st.gang g' ∧ u = { paid i e s with gangs := u.gangs }) ∧
        ∀ m, ((t.succ ≠ 0 ∧ m = .dec t.succ e.g.prim.weight e.g.prim.domain t.ctx t.gen t.graph e.die) ∨
            (t.succ = 0 ∧ 0 < e.g.prim.weight ∧ e.g.prim.domain ≠ noDomain ∧ m = .ret e.g.prim.domain e.g.prim.weight)) →
          ∃ v u w st1 st', exec i s = .next w ∧ Sent s v m ∧ OnlyGang s v e.st.gang g' ∧ StartsOp v u e { kind := .done s.nextId } st1 ∧
            v = { paid i e s with gangs := v.gangs, pkg := v.pkg, nextId := s.nextId + 1 } ∧ v.pkg = { s.pkg with msgs := v.pkg.msgs, pins := v.pkg.pins } ∧
            (t.succ = 0 ∨ t.graph = false → v.pkg.pins = s.pkg.pins) ∧ Retires u w e r none false st1 st')) ∧
    (∀ (z : BitVec 1) (a : BitVec 7) (ks : List Nat), Issues (.done z a 1) s e r → e.st.recov = none → e.g.prim.returned = false →
      scratch e.g (e.st.sreg a.toNat).toNat 64 = .ok ks → (∀ k ∈ ks, k ∉ s.phys.bad) →
      let i : Instr := .done z a 1
      let succ := (parseTask (ks.map (readByte s.mem))).succ
      let x := e.g.prim.weight
      (succ ≠ 0 → ∃ l, checkCounter (paid i e s) e.die e.ctx succ none = .ok l) → e.g.prim.domain ≠ noDomain → 2 ≤ x →
        ∃ v u w st1 st', exec i s = .next w ∧ OnlyGang s v e.st.gang { e.g with prim := { e.g.prim with weight := x - x / 2 } } ∧
          Sent s v (if succ ≠ 0 then .dec succ (x / 2) e.g.prim.domain e.g.task.ctx e.g.task.gen false e.die else .ret e.g.prim.domain (x / 2)) ∧
          StartsOp v u e { kind := .done s.nextId } st1 ∧ v = { (paid i e s).charge e.core e.ctx 5 (occupancy ks) with
            gangs := v.gangs, pkg := v.pkg, nextId := s.nextId + 1 } ∧ v.pkg = { s.pkg with msgs := v.pkg.msgs } ∧ Retires u w e r none false st1 st') ∧
    (∀ (z : BitVec 1) (d : BitVec 7), Issues (.waitq z d) s e r → e.st.recov = none →
      let i : Instr := .waitq z d
      (e.g.sec = none → StopsWhole i s e 0x62 0x29 0) ∧
      ∀ h, e.g.sec = some h →
        (e.st.divided = true → StopsWhole i s e 0x60 0x18 0) ∧
        (e.st.divided = false → h.returned = true ∨ domainUnk s h.domain = true → Effects i s e r fun u st1 =>
          WritesUniform e.st st1 d.toNat 1 (if domainUnk s h.domain then 2 else if domainBroken s h.domain then 1 else 0) ∧ st1 = { e.st with s := st1.s } ∧
          ∃ w : State, OnlyStrand (w.acquire e.core) u e.k st1 ∧ w = { paid i e s with mem := w.mem, gangs := w.gangs } ∧
            domainNat w h.domain 24 4 = Nat.land (domainNat s h.domain 24 4) 0xFFFFFFF6 ∧ OnlyDomain s w h.domain ∧ OnlyGang s w e.st.gang { e.g with sec := none }) ∧
        (e.st.divided = false → h.returned = false → domainUnk s h.domain = false → ∃ u t st1 st', exec i s = .next t ∧ Waits u t e st1 st' ∧ st1 = e.st ∧
          Sent s u (.ret h.domain h.weight) ∧ OnlyGang s u e.st.gang { e.g with sec := some { h with returned := true } } ∧
          u = { begun s e with mem := u.mem, gangs := u.gangs, pkg := u.pkg, nextId := u.nextId } ∧ OnlyDomain s u h.domain)) ∧
    ∀ (z : BitVec 1) (d : BitVec 7), Issues (.qdom z d) s e r → e.st.recov = none →
      let i : Instr := .qdom z d
      let free (j : Nat) : Prop := domainNat s (j + e.die * 4096) 24 4 % 2 = 0
      (e.g.sec.isSome = true → StopsWhole i s e 0x62 0x28 0) ∧
      (e.g.sec = none → (∀ j, j < 4096 → ¬ free j) → Computes i s e r e.p.nfr fun st st' => SameAccs st st' ∧ WritesUniform st st' d.toNat 1 0xFFFFFFFF) ∧
      (e.g.sec = none → ∀ j, j < 4096 → free j → (∀ j', j' < j → ¬ free j') →
        e.die < 4 →
        let base := j + e.die * 4096
        let serial := (domainNat s base 28 4 + 1) % 2 ^ 18
        Effects i s e r fun u st1 => WritesUniform e.st st1 d.toNat 1 (base + serial * 2 ^ 14) ∧ st1 = { e.st with s := st1.s } ∧
          domainNat u base 0 12 = 2 ^ 63 ∧ domainNat u base 12 12 = 0 ∧ domainNat u base 24 4 = 9 + 16 * (e.ctx % 64) ∧ domainNat u base 28 4 = serial ∧
          OnlyGang s u e.st.gang { e.g with sec := some { domain := base + serial * 2 ^ 14, weight := 2 ^ 63 } } ∧ OnlyDomain s u base ∧
          u = { paid i e s with mem := u.mem, gangs := u.gangs, strands := u.strands })

/-- GIVE takes the highest registers of the strand's allotment away, which keeps at least eight; CLAIM adds blocks to it at once where its lane has none
waiting and the blocks are free, else the request joins the lane's queue and the path waits; in a gang marked for swap the path waits and joins no
queue (12 R300, R301, R307). -/
def Sys2Proof.Machine.RegisterLoansPart : Prop :=
  ∀ (z : BitVec 1) (n : BitVec 4) (s : State) (e : Env) (r : Run),
    let give : Instr := .give z n
    let claim : Instr := .claim z n
    let others := (s.core e.core).claims.filter fun x => x.1 == e.st.lane
    (∀ i, i = give ∨ i = claim → Issues i s e r → (e.st.recov.isSome = true → StopsWhole i s e 0x60 0 0) ∧
      (e.st.recov = none → e.st.divided = true → StopsWhole i s e 0x60 0x18 0)) ∧
    (Issues give s e r → e.st.recov = none → e.st.divided = false →
      (e.st.allot < 8 * n.toNat + 8 → StopsWhole give s e 0x08 0 0) ∧
      (8 * n.toNat + 8 ≤ e.st.allot → Effects give s e r fun u st1 => OnlyStrand (paid give e s) u e.k st1 ∧ st1.allot = e.st.allot - 8 * n.toNat ∧
        st1 = { e.st with allot := st1.allot, v := st1.v } ∧ ∀ c t, c < st1.allot → t < 32 → st1.vreg c t = e.st.vreg c t)) ∧
    (Issues claim s e r → e.st.recov = none → e.st.divided = false →
      (∀ q, claimFault (paid claim e s) e.k e.st n.toNat = some q → StopsWhole claim s e 0x08 q 0) ∧
      (claimFault (paid claim e s) e.k e.st n.toNat = none → others = [] → s.laneBlocks e.core e.st.lane + n.toNat ≤ lanePool e.st.lane →
        Effects claim s e r fun u st1 => OnlyStrand (paid claim e s) u e.k st1 ∧ st1 = { e.st with allot := e.st.allot + 8 * n.toNat }) ∧
      (claimFault (paid claim e s) e.k e.st n.toNat = none → others ≠ [] ∨ lanePool e.st.lane < s.laneBlocks e.core e.st.lane + n.toNat →
        ∃ u t st', exec claim s = .next t ∧ Waits u t e e.st st' ∧
          u = if e.withdrawn then begun s e else (begun s e).onCore e.core fun c => { c with
            claims := c.claims ++ [(e.st.lane, { strand := e.k, path := e.pi, blocks := n.toNat, head := dieCycle e.die s.now })] }))

/-- SPWN, TAKE and DONE; GIVE and CLAIM (12 R299 to R301; 13 R328 to R335). The model's own: log 46, DESIGN CHOICE (a record of a SPWN stands on the
dispatcher's list in its reserved room); log 49, DEDUCED (what is charged). -/
def Obligations.TasksAndLoans : Prop := TaskRecordsPart ∧ RegisterLoansPart

/-- SRD and SRD.u read a special register, or the high half an earlier reading of its low half holds, and a low code holds its high half; SWR writes
the NFR, its reserved bits zero, or RSEL. A region's record that cannot be read raises 0xB2 (log 106, DESIGN CHOICE) (05 R101 to R103; 14 R361, R362;
01 R22). The model's own: log 106, DESIGN CHOICE (uncorrectable bytes of tables, images and region records). -/
def Obligations.SpecialRegisters : Prop :=
  ∀ (i : Instr) (x : BitVec 1) (z : BitVec 1) (d : BitVec 7) (m : BitVec 8) (s : State) (e : Env) (r : Run), Issues i s e r →
    let lost : Prop := 0x20 ≤ m.toNat ∧ look e.st.latch m.toNat = none ∧ (x = 1 ∨ e.act ≠ 0) ∧
      (paid i e s).regionFails e.die e.ctx e.st.rsel.toNat = true
    (i = (if x = 1 then .srdU z d m else .srd z d m) → lost → ∃ t st', exec i s = .next t ∧
      Stops ((paid i e s).charge e.core e.ctx 2 1) t e (wholeFault e 0xB2 0 0) e.after false e.st st') ∧
    (i = (if x = 1 then .srdU z d m else .srd z d m) → ¬ lost →
      ∃ w t st1 st', exec i s = .next t ∧ OnlyStrand (paid i e s) w e.k st1 ∧ Retires (w.charge e.core e.ctx 2 1) t e r none false st1 st' ∧
        Writes x e.st st1 e.act d.toNat 1 (fun t => match look e.st.latch m.toNat with
          | some h => h.toNat
          | none => e.special (paid i e s) m.toNat t) ∧
        st1 = { e.st with v := st1.v, s := st1.s, latch := st1.latch } ∧
        (x = 1 ∨ e.act ≠ 0 →
          (m = 0x10 ∨ m = 0x12 ∨ m = 0x14 ∨ m = 0x20 ∨ m = 0x22 →
            look st1.latch (m.toNat + 1) = some (BitVec.ofNat 32 (e.special (paid i e s) (m.toNat + 1) 0))) ∧
          (¬ (m = 0x10 ∨ m = 0x12 ∨ m = 0x14 ∨ m = 0x20 ∨ m = 0x22) → look st1.latch m.toNat = none)) ∧
        ∀ c, c ≠ m.toNat → c ≠ m.toNat + 1 → look st1.latch c = look e.st.latch c) ∧
    (i = .swr z d m → Effects i s e r fun u st1 => OnlyStrand (paid i e s) u e.k st1 ∧ st1 =
      if m = 0x18 then e.st.setPath e.pi { e.p with nfr := swrNfr e.p.nfr (e.st.sreg d.toNat) } else { e.st with rsel := (e.st.sreg d.toNat).setWidth 8 })

/-- TRAP raises 0xBF for the threads its guard qualifies, with its immediate in AUX, and goes on where there is none; BKPT raises 0xB0 where
DBGCTL.BKEN is set, for its path alone in a divided strand when DBGCTL.ALLP is 0, and else only ends its run (14 R359; 15 R371, R375). -/
def Obligations.Traps : Prop :=
  ∀ (z : BitVec 1) (m : BitVec 16) (s : State) (e : Env) (r : Run),
    (Issues (.trap z m) s e r → ∃ v st1, Retires (paid (.trap z m) e s) v e r none false e.st st1 ∧
      (e.act = 0 → exec (.trap z m) s = .next v) ∧
      (e.act ≠ 0 → ∃ t st', exec (.trap z m) s = .next t ∧
        Stops v t e { cause := 0xBF, emask := e.act, pc := e.chain, aux := m.toNat } e.after false st1 st')) ∧
    (Issues (.bkpt z) s e r → ∃ t st', exec (.bkpt z) s = .next t ∧
      if (s.core e.core).dbgctl.getLsbD 0 then
        Stops (paid (.bkpt z) e s) t e (wholeFault e 0xB0 0 0) e.after (e.st.divided && !(s.core e.core).dbgctl.getLsbD 1) e.st st'
      else Retires (paid (.bkpt z) e s) t e r none true e.st st')

/-- The ends of a handler, once nothing of its own is in flight: RSM resumes the strand from its image, at the record's chain again when it may
re-execute; KILL resumes it without the record's threads, or ends it; HX leaves it stopped, its records sent to the host. An image that fails a check
is the handler's fault 0x10, with the check's number in AUX (14 R353, R355 to R358). The model's own: log 19, DEDUCED (the live masks, the unnamed
bytes and the reserved bits of an image); log 20, DEDUCED (the PC an image shows of a chain that is to issue again); log 33, DEDUCED (a handler's
recovery entries). -/
def Obligations.HandlerEnds : Prop :=
  ∀ (i : Instr) (z q : BitVec 1) (s : State) (e : Env) (r : Run), Issues i s e r → (∀ x ∈ s.ops, x.2.strand ≠ e.k) →
    let n := imageNo e.k e.st.index
    let bs := (paid i e s).slotRead e.g (imageOff n) 16384
    let sv := (look e.g.saved n).getD {}
    let rec0 := imgRec bs 0
    let again := recMask rec0 &&& imgLive bs 0
    let resumed (what : State → Strand → Prop) : Prop := ∃ t st', exec i s = .next t ∧ t.strand e.k = some st' ∧ what t st' ∧ t.cur = none ∧ t.mem = s.mem ∧
      HandlerGone s t e.k ∧ ∃ g', t.gang e.st.gang = some g' ∧ look g'.saved n = none ∧ g' = { e.g with saved := g'.saved }
    (i = .rsm z q ∨ i = .kill z q → ∀ c, imgCheck bs sv = some c → ∃ t st', exec i s = .next t ∧
      Stops (paid i e s) t e { cause := 0x10, emask := e.p.act, whole := true, pc := e.chain, aux := c * 256 } e.after false e.st st') ∧
    (i = .rsm z q → imgCheck bs sv = none → PlainImage bs sv → e.st.stopReq = false → resumed fun _ st' =>
      Restored bs st' ∧ st'.mode = .running ∧ st'.divided = false ∧
      (q = 1 → reissues rec0 = true → again ≠ 0 → st'.path0.pc = BitVec.ofNat 32 (fieldAt rec0 4 4) ∧ st'.path0.act = again ∧
        st'.path0.reissue = some { cont := imgPc bs 0, live := imgLive bs 0 }) ∧
      (q = 0 ∨ reissues rec0 = false ∨ again = 0 → st'.path0.pc = imgPc bs 0 ∧ st'.path0.act = imgLive bs 0 ∧ st'.path0.reissue = none)) ∧
    (i = .kill z q → imgCheck bs sv = none → PlainImage bs sv → e.st.stopReq = false → e.st.recov = none →
      (q = 1 → resumed fun _ st' => st'.mode = .exiting ∧ st'.killed = true ∧ st'.path0.act = 0) ∧
      (q = 0 → imgLive bs 0 &&& ~~~recMask rec0 ≠ 0 → resumed fun _ st' => Restored bs st' ∧ st'.mode = .running ∧
        st'.path0.act = imgLive bs 0 &&& ~~~recMask rec0 ∧ st'.path0.pc = imgPc bs 0)) ∧
    (i = .hx z → ∃ t st', exec i s = .next t ∧ t.strand e.k = some st' ∧ st'.mode = .stopped ∧ st'.stopReq = false ∧ t.cur = none ∧
      HandlerGone s t e.k ∧ t.pkg = { s.pkg with faultWait := s.pkg.faultWait ++
        (([0, 1].filter fun pi => imgFv bs pi).map fun pi => ({
          ctx := e.ctx % 64, cause := recCause (imgRec bs pi), toHost := true
          record := leBytes 4 (Nat.lor (fieldAt (imgRec bs pi) 0 4) (2 ^ 20)) ++ (imgRec bs pi).drop 4 } : FaultAppend)) })

/-- STBL and SLD read an image from objects and check it, then one operation copies it into the inactive bank; TSWP and SSW exchange the banks, where
the inactive one has been filled, and one operation tells the cores; a bad image or an empty bank raises 0xA1 (09 R209, R211 to R213, R220, R224,
R241). The model's own: log 86, DEDUCED (layers a header does not count); log 114, DESIGN CHOICE (the access size of an image). -/
def Obligations.BankLoads : Prop :=
  ∀ (i : Instr) (model : Bool) (z : BitVec 1) (n p : BitVec 7) (l : BitVec 4) (s : State) (e : Env) (r : Run), Issues i s e r →
    let u := paid i e s
    let a := e.st.upair p.toNat
    let cores := s.dieSet.flatMap fun d => (List.range 136).map (d * 136 + ·)
    let read (k : Nat) : State := u.chargeHomes e.core e.ctx (objectLines u e.die e.ctx a 4 k)
    (i = .stbl z n p l → model = false → ∀ hd, readObject u e.die e.ctx a 4 16 = .ok hd →
      let k := (parseTable hd).nseg
      (k = 0 ∨ 1020 < k → StopsFrom i s (read 16) e 0xA1 0x1F a) ∧
      (1 ≤ k → k ≤ 1020 → ∀ body, readObject u e.die e.ctx (a + 64) 4 (4 * k) = .ok body →
        (tableValid (hd ++ body) = false → StopsFrom i s (read (16 + 4 * k)) e 0xA1 0x1F a) ∧
        (tableValid (hd ++ body) = true → Launches i s (read (16 + 4 * k)) e r { kind := .stbl n.toNat (hd ++ body) }))) ∧
    (i = .sld z n p l → model = true → ∀ hd, readObject u e.die e.ctx a 4 32 = .ok hd →
      let k := (parseModel hd).size / 4
      ((parseModel hd).headerOk = false → StopsFrom i s (read 32) e 0xA1 0 a) ∧
      ((parseModel hd).headerOk = true → ∀ body, readObject u e.die e.ctx (a + 128) 4 (k - 32) = .ok body →
        ((parseModel (hd ++ body)).bodyOk = false → StopsFrom i s (read k) e 0xA1 0 a) ∧
        ((parseModel (hd ++ body)).bodyOk = true → Launches i s (read k) e r { kind := .sld n.toNat (hd ++ body) }))) ∧
    (i = .tswp z n l → model = false → n.toNat < 8 → ∀ c, s.ctx e.ctx = some c →
      (c.tfilled.getLsbD (2 * n.toNat + (1 - (c.tactive.getLsbD n.toNat).toNat)) = false → StopsWhole i s e 0xA1 0x20 0) ∧
      (c.tfilled.getLsbD (2 * n.toNat + (1 - (c.tactive.getLsbD n.toNat).toNat)) = true →
        Launches i s (u.setCtx e.ctx { c with tactive := c.tactive ^^^ (1 <<< n.toNat) }) e r { kind := .bankSwap false n.toNat cores })) ∧
    (i = .ssw z n l → model = true → n.toNat < 64 → ∀ c, s.ctx e.ctx = some c →
      (c.mfilled.getLsbD (2 * n.toNat + (1 - (c.mactive.getLsbD n.toNat).toNat)) = false → StopsWhole i s e 0xA1 0x20 0) ∧
      (c.mfilled.getLsbD (2 * n.toNat + (1 - (c.mactive.getLsbD n.toNat).toNat)) = true →
        Launches i s (u.setCtx e.ctx { c with mactive := c.mactive ^^^ (1 <<< n.toNat) }) e r { kind := .bankSwap true n.toNat cores }))

/-- SRG answers the threads whose prediction is within the bound, queues the others and the sampled ones for recovery, sends its counts and goes on at the
join; told that its region is disabled, or in a recovery strand, it goes on at the next word; a check that fails stops it. QSET checks its record and starts,
SCTR reads or clears the region's counters, SDIS disables it, and both raise 0xB2 where they cannot reach the record; without RTAG all three raise 0xA0 (09
R226 to R231, R235, R236, R242 to R244; 01 R22; 02 R49). The model's own: log 33, DEDUCED; log 41, DESIGN CHOICE; log 39, DEDUCED; log 106, DESIGN CHOICE. -/
def Sys2Proof.Machine.RegionWordsPart : Prop :=
  ∀ (i : Instr) (z : BitVec 1) (l : BitVec 4) (s : State) (e : Env) (r : Run), Issues i s e r →
    let base := (paid i e s).chargeHomes e.core e.ctx (e.srgLines (paid i e s))
    let v := base.charge e.core e.ctx 2 1
    (∀ j : BitVec 16, i = .srg z j l →
      (∀ x, e.srgCheck j base = .error x → ∃ t st', exec i s = .next t ∧ Stops v t e (wholeFault e x.1 x.2.1 x.2.2) e.after false e.st st') ∧
      ∀ id g m, e.srgCheck j base = .ok (id, g, m) →
        let off := (e.ctx, id) ∈ (s.core e.core).disabled ∨ e.st.recov.isSome = true ∨ 64 < e.st.allot
        let q := base.liveq e.ctx id
        let arg (t : Nat) : List Word := g.args.map fun c => e.st.vreg c t
        let ans (t : Nat) : List Nat × Option FV := m.eval base e.ctx e.p.run ((arg t).map (·.toNat))
        let good (t : Nat) : Bool := withinBound q (ans t).1 (ans t).2
        let smp (t : Nat) : Bool := good t && sampled q id e.st.srgCount.toNat t
        let entries : List RecEntry := (e.ts.filter fun t => !good t || smp t).map fun t =>
          { ctx := e.ctx, region := id, header := e.g.task.entry, pc := e.pc, source := e.k, srcSlot := slotOf e.k, srcThread := t
            srcAllot := e.st.allot, sample := good t, args := arg t, ys := (ans t).1.map (BitVec.ofNat 32), argRegs := g.args, resRegs := g.res
            handler := e.st.mode == .handler }
        (off → ∃ t st', exec i s = .next t ∧ Retires v t e r none false e.st st') ∧
        (¬ off → e.srgUnread id g m base = true → ∃ t st', exec i s = .next t ∧ Stops v t e (wholeFault e 0xB2 0 0) e.after false e.st st') ∧
        (¬ off → e.srgUnread id g m base = false → base.regionNat e.ctx id 56 8 % 2 = 1 → g.res.Nodup →
          ∃ (w u t : State) (st1 st' : Strand), exec i s = .next t ∧ Retires u t e r (some (e.pc + 4 * j.setWidth 32)) false st1 st' ∧ u = w.charge e.core e.ctx 3 1 ∧
          w = { base with strands := w.strands, cores := w.cores, pkg := w.pkg, nextId := s.nextId + 1 } ∧
          (∀ c, c ≠ e.core → w.core c = base.core c) ∧
          w.core e.core = { base.core e.core with recq := (s.core e.core).recq ++ entries } ∧
          w.pkg = { s.pkg with updates := w.pkg.updates } ∧ (∀ x, x ≠ s.nextId → look w.pkg.updates x = look s.pkg.updates x) ∧
          look w.pkg.updates s.nextId = some { ctx := e.ctx, region := id, strand := e.k, calls := e.ts.length
                                               fallb := (e.ts.filter fun t => !good t).length, samp := (e.ts.filter smp).length } ∧
          st1 = { e.st with v := st1.v, srgCount := e.st.srgCount + 1, pending := e.st.pending + entries.length } ∧
          (∀ k, k ≠ e.k → w.strand k = s.strand k) ∧
          ∀ c t, t < 32 → st1.vreg c t = match (g.res.zip (ans t).1).find? fun y => y.1 == c with
            | some y => if has e.act t ∧ good t = true then BitVec.ofNat 32 y.2 else e.st.vreg c t
            | none => e.st.vreg c t)) ∧
    ((∃ u, i = .qset z u l) ∨ (∃ u o, i = .sctr z u o l) ∨ i = .sdis z → e.h.rtag = none → StopsWhole i s e 0xA0 0 0) ∧
    ∀ id, e.h.rtag = some id →
      (∀ u : BitVec 7, i = .qset z u l →
        let bs := leBytes 16 (e.st.uniN u.toNat 4)
        let b := fp32.value (fieldAt bs 0 4)
        let good := qualityReserved bs = false ∧ b.isFinite = true ∧ (b.sign = false ∨ b.isZero = true)
        (¬ good → StopsWhole i s e 0xA0 0 0) ∧ (good → Launches i s (paid i e s) e r { kind := .qset id.toNat, data := [bs] })) ∧
      (∀ (u : BitVec 7) (o : BitVec 2), i = .sctr z u o l →
        (o = 2 → (paid i e s).regionCut e.die e.ctx id.toNat 16 40 = true → StopsWhole i s e 0xB2 0 0) ∧
        (o = 2 → (paid i e s).regionCut e.die e.ctx id.toNat 16 40 = false → Effects i s e r fun w st1 => st1 = e.st ∧
          w = ((paid i e s).regionWrite e.ctx id.toNat 16 (leBytes 16 0)).regionWrite e.ctx id.toNat 32 (leBytes 24 0)) ∧
        (o ≠ 2 → (paid i e s).regionFails e.die e.ctx id.toNat = true → StopsWhole i s e 0xB2 0 0) ∧
        (o ≠ 2 → (paid i e s).regionFails e.die e.ctx id.toNat = false → Computes i s e r e.p.nfr fun st st' => SameAccs st st' ∧ WritesUniform st st' u.toNat 4
          (if o = 0 then s.regionNat e.ctx id.toNat 40 16 else s.regionNat e.ctx id.toNat 16 6 + s.regionNat e.ctx id.toNat 24 6 * 2 ^ 64))) ∧
      (i = .sdis z → (paid i e s).regionFails e.die e.ctx id.toNat = true → StopsWhole i s e 0xB2 0 0) ∧
      (i = .sdis z → (paid i e s).regionFails e.die e.ctx id.toNat = false → Effects i s e r fun w st1 => st1 = e.st ∧
        w = (paid i e s).disableRegion e.ctx id.toNat 1)

/-- SRG of a region that is open, whose entries find no room in the core's recovery queue, has no effect: its run ends before it, and it issues again (09
R231, 12 R285). -/
def Sys2Proof.Machine.RegionWaitsPart : Prop :=
  ∀ (z : BitVec 1) (j : BitVec 16) (l : BitVec 4) (s : State) (e : Env) (r : Run) (id : Nat) (g : Region) (m : Model),
    let i : Instr := .srg z j l
    let u := begun s e
    Reaches i s e r → decodeFault e = none → dependHeld u e = false → e.skips = false → e.srgCheck j u = .ok (id, g, m) →
    (e.ctx, id) ∉ (s.core e.core).disabled → e.st.recov = none → e.st.allot ≤ 64 → e.srgUnread id g m u = false → u.regionNat e.ctx id 56 8 % 2 = 1 →
    let q := u.liveq e.ctx id
    let ans (t : Nat) : List Nat × Option FV := m.eval u e.ctx e.p.run (g.args.map fun c => (e.st.vreg c t).toNat)
    let good (t : Nat) : Bool := withinBound q (ans t).1 (ans t).2
    256 < (s.core e.core).recq.length + (e.ts.filter fun t => !good t || sampled q id e.st.srgCount.toNat t).length →
      ∃ t st', exec i s = .next t ∧ Waits u t e e.st st'

/-- SRG, QSET, SCTR and SDIS as they issue, and where SRG waits (09 R226 to R231, R235, R236, R242 to R244; 02 R49). The model's own: log 33, DEDUCED
(a handler's recovery entries); log 39, DEDUCED (what FZ32 does not flush); log 41, DESIGN CHOICE (when SRG, SCTR, SDIS and QSET act); log 42, DEDUCED
(reserved bits of QUAL count); log 43, DEDUCED (a target that is not SJN raises the join mismatch); log 106, DESIGN CHOICE (uncorrectable bytes of
tables, images and region records). -/
def Obligations.Regions : Prop := RegionWordsPart ∧ RegionWaitsPart

/-- SJN goes on in a strand that is no recovery strand; a recovery strand merges the results of its active threads into their sources, releases the
others, and drains to its end (09 R230, R234, R238). The model's own: log 33, DEDUCED (a handler's recovery entries). -/
def Obligations.RecoveryEnds : Prop :=
  ∀ (z : BitVec 1) (s : State) (e : Env) (r : Run), Issues (.sjn z) s e r →
    (e.st.recov = none → ∃ t st', exec (.sjn z) s = .next t ∧ Retires (paid (.sjn z) e s) t e r none false e.st st') ∧
    ∀ es, e.st.recov = some es → (∀ x ∈ s.ops, x.2.strand ≠ e.k) →
      (∀ (n : Nat) (en : RecEntry), es[n]? = some en → en.done = false ∧ en.sample = false ∧ en.source ≠ e.k ∧ en.resRegs.Nodup ∧ en.srcThread < 32 ∧
        en.handler = false ∧ ∃ src, s.strand en.source = some src ∧ src.mode ≠ .stopped ∧ src.mode ≠ .handler ∧ has src.live en.srcThread = true) →
      (∀ (n n' : Nat) (en en' : RecEntry), es[n]? = some en → es[n']? = some en' → en.source = en'.source → en.srcThread = en'.srcThread → n = n') →
      ∃ t st', exec (.sjn z) s = .next t ∧ t.cur = none ∧ t.strand e.k = some st' ∧ st'.mode = .exiting ∧ st'.recov = some [] ∧
        st'.path0.act = 0 ∧ st'.path1.act = 0 ∧ t = { paid (.sjn z) e s with strands := t.strands, cores := t.cores, cur := none } ∧
        ∀ k src, k ≠ e.k → s.strand k = some src → ∃ src', t.strand k = some src' ∧
          src' = { src with v := src'.v, pending := src.pending - (es.filter fun en => en.source == k).length } ∧
          ∀ c q, q < 32 →
            (∀ (n : Nat) (en : RecEntry), es[n]? = some en → en.source = k → en.srcThread = q → has e.act n = true → c ∈ en.resRegs → src'.vreg c q = e.st.vreg c n) ∧
            ((∀ (n : Nat) (en : RecEntry), es[n]? = some en → en.source = k → en.srcThread = q → has e.act n = true → c ∉ en.resRegs) → src'.vreg c q = src.vreg c q)

/-- A chain that breaks a rule of 06 R146 has no effect: the strand stops with the rule's cause, for the whole strand, at the chain, and its path
resumes after it; the causes in the order of the rules (06 R146, 14 R344). A MOD hint of value 0, or beside an instruction without MOD fields, is
among those of 0x03 (log 53, DEDUCED). What such a chain is charged is log 49 (DEDUCED). The model's own: log 49, DEDUCED (what is charged); log 53,
DEDUCED (a MOD before an instruction without MOD fields is not accepted). -/
def Obligations.DecodeFaults : Prop :=
  ∀ (i : Instr) (s : State) (e : Env) (r : Run), (encode i).isSome = true → hinted {} i = none → Reaches i s e r →
    (e.g.hdr.version ≠ 1 → i.wf = false → decodeFault e = some 0x01) ∧
    (e.g.hdr.version ≠ 1 → i.wf = true → codesOk i e.h = true → payloadOk i e.h = true → hintsOk i e.h = false → decodeFault e = some 0x03) ∧
    ∀ c, decodeFault e = some c → ∃ t st', exec i s = .next t ∧ Stops (spent e s) t e (wholeFault e c 0 0) e.after false e.st st'

/-- Loads and stores reach their ends: a load's data is written to its registers, extended, or merged into its accumulator; a fill is installed unless
an invalidation has overtaken it, and serves those that asked; where bytes read as one lie in several lines, the lines come together; a store takes
effect at its home, threads in order, and its acknowledgement updates a present line, unless a fill has brought it since; a host access without
completion fails with 0x28; a soft error drops a line (04 R74 to R76; 07 R160, R161; 09 R217; 11 R267, R269; 14 R346). The model's own: log 6, DESIGN
CHOICE (the sets of the L1, what a fill displaces, and a fill that waits while the core changes the line); log 30, DEDUCED (a host access without
completion is an error found after issue); log 35, DEDUCED (lines that a fill has brought since a store stay). -/
def Obligations.LoadsAndStoresEnd : Prop :=
  ∀ (s : State) (id : Nat) (o : Op) (st : Strand), s.op id = some o → s.strand o.strand = some st →
    (∀ (bs : Item → List Byte), (∀ i ∈ o.items, s.itemBytes o i = some (bs i)) → s.ordered id o = true → s.together o = true → o.quiet →
      (∀ i ∈ o.items, s.readCause (coreDie o.core) ((memKeys i.src).filter fun a => !s.fromL1 o a) = 0) →
      (∀ dst n sx, o.kind = .load dst n sx false → ownThreads o.items → ∃ t st', exec (.loadDataReturn id) s = .next t ∧ Completes s t id o st st' ∧
        t.mem = s.mem ∧ t.bars = s.bars ∧ (∀ c, (t.core c).l1 = (s.core c).l1) ∧
        Gives st st' dst (regsOf n) (valueOf o.items fun i => extended n sx (leNat (bs i)))) ∧
      (∀ dst n sx i, o.kind = .load dst n sx true → o.items = [i] → ∃ t st', exec (.loadDataReturn id) s = .next t ∧ Completes s t id o st st' ∧
        t.mem = s.mem ∧ t.bars = s.bars ∧ (∀ c, (t.core c).l1 = (s.core c).l1) ∧ WritesUniform st st' dst (regsOf n) (leNat (bs i)) ∧ SameAccs st st') ∧
      (∀ (a : BitVec 1) i, o.kind = .lmrg a.toNat → o.items = [i] → ∃ t st', exec (.loadDataReturn id) s = .next t ∧ Completes s t id o st st' ∧
        t.mem = s.mem ∧ t.bars = s.bars ∧ (∀ c, (t.core c).l1 = (s.core c).l1) ∧ SameRegs st st' ∧
        st'.acc a = (st.acc a).merge (BitVec.ofNat 512 (leNat (bs i))) ∧ st'.acc (1 - a) = st.acc (1 - a))) ∧
    (∀ line, (∃ dst n sx uni, o.kind = .load dst n sx uni) → s.asks o.core line (id, o) = true →
      (∀ x ∈ s.ops, s.asks o.core line x = true → x.2.split = false ∧ x.2.tags = []) →
      let old := look (s.core o.core).l1 line
      let stays : Prop := (old = none ∧ ∀ x ∈ s.ops, s.asks o.core line x = true → line ∈ x.2.dead) ∨
        (∃ a, a < 128 ∧ s.readFails (coreDie o.core) (line * 128 + a) = true) ∨ ∃ x ∈ s.ops, x.2.changesLine o.core line = true
      ∃ t, exec (.l1FillReturn o.core line) s = .next t ∧ t.op id = some { o with got := upd o.got line (some (readAt s.mem (line * 128) 128)) } ∧
        t = { s with ops := t.ops, cores := t.cores, free := t.free } ∧
        (∀ c, t.core c = { s.core c with l1 := (t.core c).l1, energy := (t.core c).energy, charges := (t.core c).charges }) ∧
        (∀ c, c ≠ o.core → (t.core c).l1 = (s.core c).l1) ∧
        (∀ l, l ≠ line → look (t.core o.core).l1 l = look (s.core o.core).l1 l ∨ (l1Set l = l1Set line ∧ look (t.core o.core).l1 l = none)) ∧
        (¬ stays → 0 < s.waysOf o.core → ∃ rol first, look (t.core o.core).l1 line = some { data := readAt s.mem (line * 128) 128, rol, first, since := s.now }) ∧
        (stays → look (t.core o.core).l1 line = old) ∧
        ∀ j p, s.op j = some p → p.kind = .store true → p.core = o.core → (stays → t.op j = some p) ∧ (¬ stays → t.op j = some { p with dead := p.dead ++ [line] })) ∧
    (∀ line, (∃ dst n sx uni, o.kind = .load dst n sx uni) → s.asks o.core line (id, o) = true → o.split = true → o.tags = [] →
      (∀ x ∈ s.ops, s.asks o.core line x = true → x = (id, o)) → ∃ t o', exec (.l1FillReturn o.core line) s = .next t ∧ t.op id = some o' ∧
        o' = { o with got := o'.got } ∧ ∀ l ∈ o.cacheLines, look o.got l = none → look o'.got l = some (readAt s.mem (l * 128) 128)) ∧
    (o.kind = .store false → s.ordered id o = true → o.watched = false → (∀ i ∈ o.items, i.dst.Nodup ∧ s.writeCause (coreDie o.core) i.dst = 0) →
      ∃ t, exec (.storeAtHome id) s = .next t ∧ Advances s t id { o with kind := .store true, fired := [], dead := [], homed := s.now } ∧ Lands s t o.items (·.val)) ∧
    (o.kind = .store true → s.ackOrdered id o = true → o.quiet → (∀ i ∈ o.items, i.dst.Nodup) → ∃ t st', exec (.storeAck id) s = .next t ∧ Completes s t id o st st' ∧
      t.mem = s.mem ∧ t.bars = s.bars ∧ SameRegs st st' ∧ SameAccs st st' ∧ (∀ c, c ≠ o.core → (t.core c).l1 = (s.core c).l1) ∧
      ∀ l, (look (s.core o.core).l1 l = none → look (t.core o.core).l1 l = none) ∧
        ∀ e, look (s.core o.core).l1 l = some e → (l ∈ o.dead → look (t.core o.core).l1 l = some e) ∧
          (l ∉ o.dead → ∃ d, look (t.core o.core).l1 l = some { e with data := d } ∧ d.length = e.data.length ∧
            ∀ j b, j < 128 → e.data[j]? = some b → d[j]? = some ((landed o.items (·.val) (128 * l + j)).getD b))) ∧
    (∃ t, exec (.pcieCompletionTimeout id) s = .next t ∧ Advances s t id { o with
      items := o.items.map fun i => if (memKeys i.src).any isHost = true ∧ i.bad = 0 then { i with bad := 0x28 } else i } ∧ t.mem = s.mem) ∧
    ∀ core line, ∃ t, exec (.l1SoftError core line) s = .next t ∧ t = { s with cores := t.cores } ∧
      ∀ c, t.core c = { s.core c with l1 := (t.core c).l1 } ∧ look (t.core c).l1 line = (if c = core then none else look (s.core c).l1 line) ∧
        ∀ l, l ≠ line → look (t.core c).l1 l = look (s.core c).l1 l

/-- At a slice an atomic's element takes its function's result and the old value goes back; an AOADD whose turn has come adds, passes its turn on and
has each thread's prefix, one too early parks, or comes back when 64 are parked, to be sent again; the home slice appends a key and a value to a
spill, by the record the instruction carries, where NSP and the entries stand as log 90 (DESIGN CHOICE) has it; HCLAIM's table is cleared and its
handle written (01 R29; 02 R47; 04 R86, R89; 07 R164, R166, R176). The model's own: log 89, DEDUCED (a spill object is checked at each access); log
90, DESIGN CHOICE (where NSP and the entries stand); log 104, DEDUCED (a spill's faults are precise, whenever they are found). -/
def Obligations.SliceOperations : Prop :=
  ∀ (s : State) (id : Nat) (o : Op) (st : Strand), s.op id = some o → s.strand o.strand = some st →
    (∀ f ret dst w rm line i, o.kind = .atomic f ret dst w rm → o.lines[line]? = some .waiting → s.ordered id o = true → o.watched = false → f < 15 →
      (o.items.filter fun j => j.line == line) = [i] → i.dst.Nodup → i.dst.length = atomBytes f → i.val < 2 ^ (8 * atomBytes f) → i.cmp < 2 ^ (8 * atomBytes f) →
      s.readCause (coreDie o.core) i.dst = 0 → o.tags = [] →
      let old := leNat (i.dst.map (readByte s.mem))
      ∃ t, exec (.sliceAtomicLineOp id line) s = .next t ∧ Lands s t [i] (fun _ => atomicResult f w rm old i.val i.cmp) ∧
        Advances s t id { o.lineDone line with items := o.items.map fun j => if j.line = line then { j with val := old } else j }) ∧
    ((∀ l ∈ o.lines, l = .finished) → o.quiet → ownThreads o.items →
      (∀ f dst w rm, o.kind = .atomic f true dst w rm → ∃ t st', exec (.atomicResultReturn id) s = .next t ∧ Completes s t id o st st' ∧
        t.mem = s.mem ∧ t.bars = s.bars ∧ t.cores = s.cores ∧ Gives st st' dst (if f = 14 then 4 else atomBytes f / 4) (valueOf o.items (·.val))) ∧
      (∀ f dst w rm, o.kind = .atomic f false dst w rm → ∃ t st', exec (.atomicResultReturn id) s = .next t ∧ Completes s t id o st st' ∧
        t.mem = s.mem ∧ t.bars = s.bars ∧ t.cores = s.cores ∧ SameRegs st st' ∧ SameAccs st st') ∧
      (∀ dst, o.kind = .copyv dst → ∃ t st', exec (.atomicResultReturn id) s = .next t ∧ Completes s t id o st st' ∧
        t.mem = s.mem ∧ t.bars = s.bars ∧ t.cores = s.cores ∧ Gives st st' dst 2 (valueOf o.items (·.val)))) ∧
    (∀ wide dst rank sum w since cell parts, o.kind = .aoadd wide dst rank sum w since → o.items = cell :: parts →
      let ks := cell.dst
      let turn := leNat (((ks.drop 8).take 4).map (readByte s.mem))
      let n := if wide then 8 else 4
      let old := leNat ((ks.take n).map (readByte s.mem))
      (w < 2 → s.ordered id o = true → o.watched = false → s.readCause (coreDie o.core) ks = 0 →
        (ks.Nodup → ks.length = 16 → turn = rank.toNat → ∃ t, exec (.aoaddSliceApply id) s = .next t ∧
          Advances s t id { o with kind := .aoadd wide dst rank sum 3 since, lines := [.finished], fired := []
                                   items := cell :: parts.map fun i => { i with val := (old + i.val) % 2 ^ (8 * n) } } ∧
          leNat ((ks.take n).map (readByte t.mem)) = (old + sum) % 2 ^ (8 * n) ∧
          leNat (((ks.drop 8).take 4).map (readByte t.mem)) = (turn + 1) % 2 ^ 32 ∧
          ∀ a, a ∉ ks.take n → a ∉ (ks.drop 8).take 4 → readByte t.mem a = readByte s.mem a) ∧
        (turn ≠ rank.toNat → w = 0 → ∃ t, exec (.aoaddSliceApply id) s = .next t ∧ t.mem = s.mem ∧
          Advances s t id { o with kind := if parkedAt s (sliceOf (ks.headD 0)) < 64 then .aoadd wide dst rank sum 1 since
                                           else .aoadd wide dst rank sum 2 (dieCycle (coreDie o.core) s.now) })) ∧
      (w = 2 → since + 256 ≤ dieCycle (coreDie o.core) s.now → ∃ t, exec (.aoaddResend id) s = .next t ∧ t.mem = s.mem ∧
        Advances s t id { o with kind := .aoadd wide dst rank sum 0 0 }) ∧
      (o.lines = [.finished] → o.quiet → ownThreads parts → ∃ t st', exec (.atomicResultReturn id) s = .next t ∧ Completes s t id o st st' ∧ t.mem = s.mem ∧
        t.bars = s.bars ∧ t.cores = s.cores ∧ Gives st st' dst (if wide then 2 else 1) (valueOf parts (·.val)))) ∧
    (∀ f n pd dst g desc i ks es rc, o.kind = .key f n pd dst → s.gang o.gang = some g → look g.keys n = some desc → o.items = [i] → i.line = 0 → i.t < 32 →
      o.tags = [] → carriedRecord o.carried = some rc → spillKeys s o.core o.ctx (some rc) desc.spobj 0 8 .atomic = .ok ks →
      let count := leNat (ks.map (readByte s.mem))
      desc.spobj % 2 ^ 40 + 16 + 16 * (count + 1) ≤ rc.extent → spillKeys s o.core o.ctx (some rc) desc.spobj (16 + 16 * count) 16 .write = .ok es →
      (ks ++ es).Nodup → ks.length = 8 → es.length = 16 → count + 1 < 2 ^ 64 → i.cmp < 2 ^ 64 → i.val < 2 ^ 64 →
      ∃ t st', exec (.keySpillAppend id) s = .next t ∧ t.op id = none ∧ t.strand o.strand = some st' ∧ OnlyGang s t o.gang { g with keys := upd g.keys n (some { desc with spl := true }) } ∧
        t = { s with mem := t.mem, gangs := t.gangs, strands := t.strands, ops := t.ops, cores := t.cores, free := t.free } ∧
        (∀ c, t.core c = { s.core c with energy := (t.core c).energy, charges := (t.core c).charges }) ∧ (∀ j, j ≠ id → t.op j = s.op j) ∧
        (∀ k, k ≠ o.strand → t.strand k = s.strand k) ∧
        leNat (ks.map (readByte t.mem)) = count + 1 ∧ leNat (es.map (readByte t.mem)) = i.cmp + 2 ^ 64 * i.val ∧
        (∀ a, a ∉ ks → a ∉ es → readByte t.mem a = readByte s.mem a) ∧ (∀ c q, st'.vreg c q = st.vreg c q) ∧ (∀ c, st'.sreg c = st.sreg c) ∧
        ∀ p q, q < 32 → st'.pred p q = if p = pd ∧ p ≠ 0 ∧ q = i.t then false else st.pred p q) ∧
    ∀ u i its g desc d, o.kind = .hclaim u → o.items = i :: its → o.tags = [] → s.gang o.gang = some g → look g.keys i.t = some desc → o.sregs = [d] →
      dieCycle (coreDie o.core) o.born + 16 * u ≤ dieCycle (coreDie o.core) s.now → ∃ t st', exec (.hclaimClearDone id) s = .next t ∧ Completes s t id o st st' ∧
        WritesUniform st st' d 1 i.val ∧ SameAccs st st' ∧ t.bars = s.bars ∧ t.cores = s.cores ∧
        (∀ p, p < 4 * desc.buckets → entryOf t.mem (entryKeys g desc p) = (2 ^ 64 - 1, 0)) ∧
        ∀ a, (∀ p, p < 4 * desc.buckets → a ∉ entryKeys g desc p) → readByte t.mem a = readByte s.mem a

/-- A copy engine with room takes a line operation; finished, its bytes have landed, the highest thread's last, and the credited slot counts them; a
tile operation compares and writes, and has the old value; a gather unit reads a part's element, follows an index in its own stack or forwards it, and
a burst places the elements it brings (01 R39 to R41; 03 R57 to R61, R69; 07 R170 to R172). The model's own: log 14, DEDUCED (a phase completes only
where EXP is not zero); log 22, DEDUCED (a gather to a register credits nothing); log 31, DEDUCED (the second access of GATH.x is checked by the
record as it stood at issue); log 52, DEDUCED (what a burst carries); log 91, DESIGN CHOICE (a copy reads its sources at once); log 92, DESIGN CHOICE
(a copy goes on once every line operation is accepted); log 99, DESIGN CHOICE (how translations in flight are counted); log 103, DESIGN CHOICE (the
address that gives an engine's number). -/
def Obligations.CopiesAndGathersEnd : Prop :=
  ∀ (s : State) (id : Nat) (o : Op) (st : Strand) (line : Nat), s.op id = some o → s.strand o.strand = some st →
    ((∃ c, o.kind = .copy c) ∨ (∃ d, o.kind = .copyv d) → o.lines[line]? = some .waiting → engineLoad s (engineOf o line) < 512 →
      (∀ x ∈ s.ops, x.1 < id → x.2.strand = o.strand → ((∃ c, x.2.kind = .copy c) ∨ ∃ d, x.2.kind = .copyv d) → ∀ l ∈ x.2.lines, l ≠ .waiting) →
      ∃ t, exec (.copyEngineAccept id line) s = .next t ∧ Advances s t id { o with lines := o.lines.set line .accepted } ∧ t.mem = s.mem) ∧
    (∀ slot, o.kind = .copy slot → o.lines = [.accepted] → line = 0 → o.data = [] → s.ordered id o = true → o.quiet →
      (∀ i ∈ o.items, i.line = 0 ∧ i.dst.Nodup ∧ s.readCause (coreDie o.core) (memKeys i.src) = 0 ∧ s.writeCause (coreDie o.core) i.dst = 0) →
      (o.items.map (·.t)).Pairwise (· < ·) → ∃ t st', exec (.copyLineOpComplete id line) s = .next t ∧ Completes s t id o st st' ∧ SameRegs st st' ∧ SameAccs st st' ∧
        Lands s t o.items (fun i => leNat (i.src.map (Src.read s.mem))) ∧ (∀ c, (t.core c).l1 = (s.core c).l1) ∧
        ∀ k, t.bar k = match slot with
          | some c => if k = barKey 1 o.gang c then o.items.foldl (fun (b : BarSlot) (i : Item) => b.addPend (-(i.dst.length : Int))) (s.bar k) else s.bar k
          | none => s.bar k) ∧
    (∀ d i, o.kind = .copyv d → o.lines[line]? = some .accepted → s.ordered id o = true → (o.items.filter fun j => j.line == line) = [i] → i.bad = 0 → o.tags = [] →
      s.readCause (coreDie o.core) (memKeys i.src ++ i.dst) = 0 → i.dst.Nodup → i.src.length = i.dst.length →
      let old := leNat ((i.dst.take 8).map (readByte s.mem))
      ∃ t, exec (.cpyvTileOp id line) s = .next t ∧
        Advances s t id { o.lineDone line with items := o.items.map fun j => if j.line = line then { j with val := old } else j } ∧
        (old = i.cmp → Lands s t [i] fun i => leNat (i.src.map (Src.read s.mem))) ∧ (old ≠ i.cmp → t.mem = s.mem)) ∧
    (∀ n dst toReg slot i, o.kind = .gather n dst toReg slot → ownThreads o.items → (o.items.find? fun j => j.line == line) = some i → (∀ x ∈ o.items, x.bad = 0) →
      let read (j : Item) : Item := { j with val := leNat (j.src.map (Src.read s.mem)), rank := 9 }
      let sound (j : Item) : Prop := s.ordered id { o with items := [j] } = true ∧ s.readCause (j.via.getD (coreDie o.core)) (memKeys j.src) = 0
      let put (j : Item) (x : LineSt) : Op := { o with items := o.items.map (fun k => if k.t = i.t then j else k), lines := o.lines.set line x }
      let index := leNat (i.src.map (Src.read s.mem))
      (o.lines[line]? = some .waiting → i.room s = true → i.via = none → sound i →
        (i.cmp < 2 ^ 64 → ∃ t, exec (.gatherUnitRequest id line) s = .next t ∧ Advances s t id (put (read i) .accepted) ∧ t.mem = s.mem) ∧
        (2 ^ 64 ≤ i.cmp → index = 0xFFFFFFFF → ∃ t, exec (.gatherUnitRequest id line) s = .next t ∧ t.mem = s.mem ∧
          Advances s t id (put { i with src := [], val := 0, cmp := 0 } .accepted)) ∧
        (2 ^ 64 ≤ i.cmp → index ≠ 0xFFFFFFFF → o.carried ≠ [] →
          let base := i.cmp % 2 ^ 64
          ∀ l, translateFrom s (coreDie o.core) o.ctx (some (parseRecord o.carried)) base (index * n) n .read false = .ok l →
          let j : Item := { i with addr := (base + index * n) % 2 ^ 64, src := l.bytes, cmp := 0, via := i.unit.map (· / 4) }
          j.unit ≠ i.unit ∨ sound j → ∃ t, exec (.gatherUnitRequest id line) s = .next t ∧ t.mem = s.mem ∧
            Advances s t id (if j.unit = i.unit then put (read j) .accepted else put j .forwarded))) ∧
      (o.lines[line]? = some .forwarded → i.room s = true → sound i →
        ∃ t, exec (.gatherForward id line) s = .next t ∧ Advances s t id (put (read i) .accepted) ∧ t.mem = s.mem) ∧
      (o.lines = [.accepted] → line = 0 → o.items = [i] → o.quiet → n ≤ 128 → 0 < n → i.dst.Nodup → ∃ t st', exec (.gatherBurstReturn id line) s = .next t ∧
        Completes s t id o st st' ∧ (∀ c, (t.core c).l1 = (s.core c).l1) ∧
        (toReg = true → t.mem = s.mem ∧ t.bars = s.bars ∧ Gives st st' dst (regsOf n) (valueOf o.items (·.val))) ∧
        (toReg = false → i.dst.length = n → Lands s t [i] (·.val) ∧ SameRegs st st' ∧ SameAccs st st' ∧ ∀ k, t.bar k = match slot with
          | some c => if k = barKey 1 o.gang c then (s.bar k).addPend (-(n : Int)) else s.bar k
          | none => s.bar k)))

/-- A publish at its home unit: the request is received in its turn, or the port's is rejected; the slots are swapped once the previous generation is
retired and no shadow write is on its way; each die drops what it holds of the record; then PUB has the new generation, or the port its completion (01
R31, R36). The model's own: log 99, DESIGN CHOICE (how translations in flight are counted). -/
def Obligations.Publishes : Prop :=
  ∀ (s : State) (n : Nat) (p : Pub), look s.pkg.pubs n = some p →
    (p.received = false → (∀ x ∈ s.pkg.pubs, x.1 < n → ¬ (x.2.ctx = p.ctx ∧ x.2.obj = p.obj)) →
      let ok := ∃ q, pubRecord s p = some q ∧ recordBad s (homeDie s p.obj) p.ctx q q.current = none
      (p.op.isSome = true ∨ ok → ∃ t, exec (.publishRequest n) s = .next t ∧ OnlyPub s t n (some { p with received := true })) ∧
      (p.op = none → ¬ ok → ∃ u t, exec (.publishRequest n) s = .next t ∧ OnlyPub s u n none ∧
        t = { u with pkg := { u.pkg with win := { s.win with opstat := (s.win.opstat &&& ~~~0xE9#64) ||| 0x68#64 } } })) ∧
    (∀ q c, p.received = true → p.swapped = false → pubRecord s p = some q → s.ctx p.ctx = some c →
      (∀ u ∈ s.pkg.unretired, ¬ (u.ctx = p.ctx ∧ u.obj = p.obj)) → pinnedGen s p.ctx p.obj q.shadow.gen = false → s.pkg.unretired.length < 256 →
      (∀ x ∈ s.ops, ∀ g ∈ x.2.gens, ¬ (g.shadow = true ∧ g.ctx = p.ctx ∧ g.obj = p.obj)) → (p.expGen = none ∨ p.expGen = some q.current.gen) →
      recordBad s (homeDie s p.obj) p.ctx q q.shadow = none → spread s (c.otbase + p.obj * 128) 128 →
      let rec0 := c.otbase + p.obj * 128
      let gen := (q.current.gen + 1) % 2 ^ 32
      let field := rec0 + (if q.cur then 64 else 96) + 16
      ∃ t, exec (.publishSwap n) s = .next t ∧ t.sysNat field 4 = gen ∧ t.sysNat rec0 4 = Nat.xor (s.sysNat rec0 4) (2 ^ 24) ∧
        OnlyBytes s t (sysKeys s field 4 ++ sysKeys s rec0 4) ∧ t = { s with mem := t.mem, pkg := t.pkg } ∧
        t.pkg = { s.pkg with
          pubs := t.pkg.pubs
          unretired := (if p.op = none then s.pkg.unretired.map fun u => { u with port := false } else s.pkg.unretired) ++
            [{ ctx := p.ctx, obj := p.obj, gen := q.current.gen, port := p.op.isNone }] } ∧
        look t.pkg.pubs n = some { p with swapped := true, waiting := s.dieSet, oldRecord := s.sysRead rec0 128, newGen := gen } ∧
        ∀ j, j ≠ n → look t.pkg.pubs j = look s.pkg.pubs j) ∧
    (∀ die, p.swapped = true → die ∈ p.waiting → ∃ t, exec (.publishInvalidateDie n die) s = .next t ∧
      look t.pkg.pubs n = some { p with waiting := p.waiting.filter (· != die) } ∧ (∀ j, j ≠ n → look t.pkg.pubs j = look s.pkg.pubs j) ∧
      t = { s with pkg := { s.pkg with pubs := t.pkg.pubs }, cores := t.cores, ops := t.ops } ∧
      ∀ c, t.core c = { s.core c with l1 := (t.core c).l1 } ∧ ∀ l, look (t.core c).l1 l =
        if (parseRecord p.oldRecord).rol = true ∧ c / 136 = die ∧
            (lineInSlot s (parseRecord p.oldRecord).slotA l = true ∨ lineInSlot s (parseRecord p.oldRecord).slotB l = true) then none
        else look (s.core c).l1 l) ∧
    (p.swapped = true → p.waiting = [] →
      (∀ id o d st, p.op = some id → s.op id = some o → o.sregs = [d] → o.tags = [] → s.strand o.strand = some st → ∃ u t st', exec (.publishComplete n) s = .next t ∧
        OnlyPub s u n none ∧ Completes u t id o st st' ∧ WritesUniform st st' d 1 p.newGen ∧ t.mem = s.mem ∧ t.cores = s.cores ∧ t.bars = s.bars) ∧
      (p.op = none → ∃ u, OnlyPub s u n none ∧ exec (.publishComplete n) s =
        .next (({ u with pkg := { u.pkg with win := { s.win with opstat := (s.win.opstat &&& ~~~3#64) ||| 2#64 } } } : State).postInterrupt 3 p.ctx
          (p.obj % 65536) p.newGen)))

/-- The publish port takes a request when it is free and notes another while it is busy; a generation without pins or accesses in flight is retired; a
pin goes; links, ports and units that fail leave the package, past the threshold of their window alone, and a new window begins from 0 (01 R33, R34,
R36; 02 R49, R50; 14 R369). The model's own: log 16, PRESUMED (the numbers of links, ports and ways as units); log 56, DEDUCED (OPSTAT's generation
and OPLIVE are read as they stand); log 97, DESIGN CHOICE (how spare rows are counted); log 99, DESIGN CHOICE (how translations in flight are
counted); log 111, DESIGN CHOICE (REJWHY at an accepted request). -/
def Obligations.PortsPinsAndErrors : Prop :=
  ∀ (s : State),
    (∀ v, s.booted = true →
      (s.win.opstat.getLsbD 0 = true → exec (.publishPortRequest v) s = .next { s with pkg := { s.pkg with win := { s.win with opstat := s.win.opstat ||| 16#64 } } }) ∧
      (s.win.opstat.getLsbD 0 = false → ∃ t, exec (.publishPortRequest v) s = .next t ∧
        let p : Pub := { ctx := v / 2 ^ 24 % 2 ^ 6, obj := v % 2 ^ 24, expGen := some (v / 2 ^ 32 % 2 ^ 32) }
        look t.pkg.pubs s.nextId = some p ∧ (∀ j, j ≠ s.nextId → look t.pkg.pubs j = look s.pkg.pubs j) ∧ t = { s with nextId := s.nextId + 1, pkg := t.pkg } ∧
        t.pkg = { s.pkg with pubs := t.pkg.pubs, portLast := some (p.ctx, p.obj)
                             win := { s.win with opstat := (s.win.opstat &&& ~~~0xE0#64) ||| 1#64 } })) ∧
    (∀ ctx obj u, (s.pkg.unretired.find? fun x => x.ctx == ctx && x.obj == obj) = some u → pinnedGen s ctx obj u.gen = false →
      (∀ x ∈ s.ops, ∀ g ∈ x.2.gens, ¬ (g.ctx = ctx ∧ g.obj = obj ∧ g.gen = u.gen ∧ g.shadow = false)) →
      (∀ x ∈ s.pkg.pubs, ¬ (x.2.swapped = true ∧ x.2.ctx = ctx ∧ x.2.obj = obj)) →
      let t : State := { s with pkg := { s.pkg with unretired := s.pkg.unretired.filter (· != u) } }
      exec (.generationRetired ctx obj) s = .next (if u.port = false then t
        else ({ t with pkg := { t.pkg with win := { s.win with opstat := s.win.opstat ||| 4#64 } } } : State).postInterrupt 4 ctx (obj % 65536) (curGen t))) ∧
    (∀ ctx obj gen, ∃ t, exec (.pinRelease ctx obj gen) s = .next t ∧ t = { s with pkg := { s.pkg with pins := t.pkg.pins } } ∧
      ∀ p, p ∈ t.pkg.pins ↔ p ∈ s.pkg.pins ∧ ¬ (p.ctx = ctx ∧ p.obj = obj ∧ p.gen = gen ∧ p.count = 0)) ∧
    (∀ l, l < 4 → ∃ t, exec (.dieLinkFailure l) s = .next t ∧ l ∈ t.pkg.badLinks ∧ t = { s with pkg := { s.pkg with badLinks := t.pkg.badLinks } } ∧
      ∀ j, j ≠ l → (j ∈ t.pkg.badLinks ↔ j ∈ s.pkg.badLinks)) ∧
    (∀ p, p < 18 → p ∉ s.pkg.badPorts → 0 < s.caps / 2 ^ 26 % 2 ^ 5 → ∃ t, exec (.wilmoPortFailure p) s = .next t ∧
      t.pkg = { s.pkg with badPorts := s.pkg.badPorts ++ [p], win := { s.win with caps := BitVec.ofNat 64 s.caps - (1#64 <<< 26) } } ∧ t = { s with pkg := t.pkg }) ∧
    (∀ die cls unit, unit < 2 ^ 32 → cls < 7 → die ∈ s.dieSet → rising none (s.die die).errors = true →
      let key := cls * 2 ^ 32 + unit
      let n := rd 0 (s.die die).errors key + 1
      let limit := s.win.rascfg.toNat % 2 ^ 16
      let act := s.win.rascfg.getLsbD 16
      let entry := BitVec.ofNat 128 (8 + cls * 2 ^ 8 + 2 ^ 16 + s.pkg.boots % 2 ^ 32 * 2 ^ 32 + unit * 2 ^ 64)
      let counted (t : State) (fails : List Nat) : Prop := (∀ d, d ≠ die → t.die d = s.die d) ∧
        t.die die = { s.die die with errors := (t.die die).errors, failed := (s.die die).failed ++ fails } ∧
        ∀ k, rd 0 (t.die die).errors k = if k = key then n else rd 0 (s.die die).errors k
      (∀ d e, d ∈ s.dieSet → e ∈ (s.die d).errors → (d = die ∧ e.1 = key) ∨ e.2 ≤ limit ∨ e.1 ∈ (s.die d).failed) →
      (n ≤ limit ∨ key ∈ (s.die die).failed → ∃ t, exec (.correctedError die cls unit) s = .next t ∧ t = { s with dies := t.dies } ∧ counted t []) ∧
      (limit < n → key ∉ (s.die die).failed →
        (act = false → ∃ t, exec (.correctedError die cls unit) s = .next (t.postInterrupt 6 0 cls unit) ∧ t = { s with dies := t.dies } ∧ counted t [key]) ∧
        (act = true → (∀ x ∈ s.gangs, s.onUnit cls unit x.1 x.2 = false) → (cls, unit) ∉ s.pkg.excluded →
          let acted (t : State) : Prop := exec (.correctedError die cls unit) s = .next (t.postInterrupt 6 0 cls unit) ∧ counted t [key]
          let out : Pkg := { s.pkg with excluded := s.pkg.excluded ++ [(cls, unit)], bootLog := logAppend s.pkg.bootLog entry }
          (cls < 2 ∨ cls = 4 → ∃ t, acted t ∧ t = { s with dies := t.dies, pkg := out }) ∧
          (cls = 2 → ∃ t, acted t ∧ t = { s with dies := t.dies, cores := t.cores, pkg := out } ∧
            ∀ c, t.core c = if c = unit / 12 then { s.core c with l1 := trimL1 (t.waysOf c) (s.core c).l1 } else s.core c) ∧
          (cls = 3 ∨ cls = 5 →
            let owner := if cls = 5 then unit / 64 else unit
            let spares := cls * 2 ^ 32 + owner
            let used := rd 0 s.pkg.spared spares
            let rows := Config.spareRows cls owner
            ∃ t, acted t ∧ t = { s with dies := t.dies, pkg := { (if used + 1 = rows then out else s.pkg) with spared := t.pkg.spared } } ∧
              ∀ k, rd 0 t.pkg.spared k = rd 0 s.pkg.spared k + (if k = spares ∧ used < rows then 1 else 0)) ∧
          (cls = 6 → unit < 4 → ∃ t, acted t ∧ t = { s with dies := t.dies }) ∧
          (cls = 6 → 4 ≤ unit → unit < 22 → unit - 4 ∉ s.pkg.badPorts → 0 < s.caps / 2 ^ 26 % 2 ^ 5 → ∃ t, acted t ∧ t = { s with dies := t.dies, pkg := { out with
            badPorts := s.pkg.badPorts ++ [unit - 4], win := { s.win with caps := BitVec.ofNat 64 s.caps - (1#64 <<< 26) } } })) ∧
        ∀ m g, act = true → s.gangs = [(m, g)] → s.onUnit cls unit m g = true → rising none s.strands = true → noneUnmatched s → ∃ t,
          exec (.correctedError die cls unit) s = .next t ∧ counted t [key] ∧ Withdraws s t (· == m) ∧
          t = { s with dies := t.dies, cores := t.cores, gangs := [(m, { g with swap := true })], pkg := { s.pkg with failing := s.pkg.failing ++ [(cls, unit)] } })) ∧
    ∀ die, ∃ t, exec (.softErrorWindow die) s = .next t ∧ t = { s with dies := t.dies } ∧ (t.die die).errors = [] ∧ (t.die die).failed = [] ∧
      t.die die = { s.die die with errors := (t.die die).errors, failed := (t.die die).failed } ∧ ∀ d, d ≠ die → t.die d = s.die d

/-- A reduction: the reduction point takes a request or, full, fails it; a member reads its elements and waits for its children; partials are added in
order, and the root's sum goes to the requester, whose registers and predicate it writes; a failed one, and one that takes too long, leaves the
predicate false; a link that is down on the way to the reduction point is a fault found after issue (02 R49, R52 to R55; 07 R159). The model's own:
log 7, DESIGN CHOICE (what other packages send is free); log 95, DEDUCED (one pool of 256 reductions); log 96, DESIGN CHOICE (which failure of a
reduction goes on). -/
def Obligations.Reductions : Prop :=
  ∀ (s : State),
    (∀ id o st f dst q since rset obj res, s.op id = some o → o.kind = .ldsum f dst q since rset obj res → s.strand o.strand = some st → o.tags = [] →
      let threads := o.items.map (·.t)
      let cut (i : Instr) : Prop := o.quiet → maskOf threads ≠ 0 → ∃ a t st', exec i s = .next t ∧
        let st1 : Strand := { st with deferred := st.deferred ++ [{
          fault := { cause := 0xB2, emask := maskOf threads, defer := true, pc := o.pc, addr := a }, path := if st.divided then o.path else 2, acc := o.acc
          batch := o.batch, vregs := o.vregs, sregs := o.sregs, preds := o.preds, drain := st.draining }] }
        Completes (s.setStrand o.strand st1) t id o st1 st' ∧ SameRegs st1 st' ∧ SameAccs st1 st' ∧ t.mem = s.mem
      (s.pointCut o = true → (since = none → res = none → s.ordered id o = true → cut (.ldsumRequest id)) ∧ (since.isSome = true → cut (.ldsumResult id))) ∧
      (s.pointCut o = false → since = none → res = none → s.ordered id o = true →
        (heldReductions s < 256 → ∃ t, exec (.ldsumRequest id) s = .next t ∧ t.op id = some { o with kind := .ldsum f dst q (some (dieCycle 0 s.now)) rset obj none } ∧
          (∀ j, j ≠ id → t.op j = s.op j) ∧ t = { s with ops := t.ops }) ∧
        (256 ≤ heldReductions s → ∃ t st', exec (.ldsumRequest id) s = .next t ∧ Completes (withRpstat s 0 1) t id o st st' ∧
          GivesPred st st' q threads false ∧ t.mem = s.mem)) ∧
      (∀ c, s.pointCut o = false → since = some c → redLate s c = false → res = some 0 → o.quiet → ownThreads o.items → f < 4 → ∃ t st', exec (.ldsumResult id) s = .next t ∧
        Completes s t id o st st' ∧ t.mem = s.mem ∧ (∀ c, st'.sreg c = st.sreg c) ∧
        (∀ p t', t' < 32 → st'.pred p t' = if p = q ∧ p ≠ 0 ∧ t' ∈ threads then true else st.pred p t') ∧
        ∀ c' t', t' < 32 → st'.vreg c' t' = match valueOf o.items (·.val) t' with
          | some v => if dst ≤ c' ∧ c' < dst + (if f = 1 then 2 else if f = 2 then 4 else 1) then BitVec.ofNat 32 (v / 2 ^ (32 * (c' - dst))) else st.vreg c' t'
          | none => st.vreg c' t') ∧
      (∀ c, s.pointCut o = false → since = some c → redLate s c = false → res = some 1 → ∃ t st', exec (.ldsumResult id) s = .next t ∧ Completes s t id o st st' ∧
        GivesPred st st' q threads false ∧ t.mem = s.mem) ∧
      (∀ c i, since = some c → c + 2 ^ (s.win.rpctl.toNat % 2 ^ 5) ≤ dieCycle 0 s.now → i = .ldsumTimeout id ∨ (i = .ldsumResult id ∧ res.isSome = true ∧ s.pointCut o = false) →
        ∃ t st', exec i s = .next t ∧ Completes (withRpstat s 1 0) t id o st st' ∧ GivesPred st st' q threads false ∧ t.mem = s.mem)) ∧
    (∀ tag h k n vs, redHeader s tag = some h → look s.pkg.members tag = none → h.op.isSome = true ∨ heldReductions s < 256 → redOwn s h = .ok (k, n, vs) → 2 * k + 1 < n →
      ∃ t, exec (.ldsumMemberRequest tag) s = .next t ∧ t = { s with cores := t.cores, free := t.free, pkg := { s.pkg with members := t.pkg.members } } ∧
        (∀ c, t.core c = { s.core c with energy := (t.core c).energy, charges := (t.core c).charges }) ∧
        OnlyMember s t tag (some { f := h.f, rset := h.rset, rank := k, count := n, own := vs, start := dieCycle 0 s.now, op := h.op })) ∧
    (∀ tag m i code, look s.pkg.members tag = some m → redLate s m.start = false → i < kidCount m.rank m.count → i < 2 → (∀ x ∈ m.kids, x.1 ≠ i) →
      let mine := freeElements s m.f m.own.length
      let kids := m.kids ++ [(i, mine)]
      let status := if m.status = 0 then code else m.status
      (kids.length < kidCount m.rank m.count → ∃ t, exec (.ldsumPartial tag (i + 4 * code)) s = .next t ∧ OnlyMember s t tag (some { m with kids, status }) ∧
        t = { s with free := s.free + m.own.length, pkg := { s.pkg with members := t.pkg.members } }) ∧
      (kidCount m.rank m.count ≤ kids.length → m.rank = 0 → ∀ id o f dst q since rset obj res, m.op = some id → s.op id = some o → o.kind = .ldsum f dst q since rset obj res →
        ∃ t, exec (.ldsumPartial tag (i + 4 * code)) s = .next t ∧ OnlyMember s t tag none ∧ (∀ j, j ≠ id → t.op j = s.op j) ∧
          t.op id = some { o with
            kind := .ldsum f dst q since rset obj (some status)
            items := (o.items.zip (([0, 1].filterMap fun j => (kids.find? fun x => x.1 == j).map (·.2)).foldl
              (fun (p : List Nat) (y : List Nat) => (p.zip y).map fun x => redAdd m.f x.1 x.2) m.own)).map fun x => { x.1 with val := x.2 } })) ∧
    ∀ tag m, look s.pkg.members tag = some m → m.start + 2 ^ (s.win.rpctl.toNat % 2 ^ 5) ≤ dieCycle 0 s.now → ∃ t, exec (.ldsumEntryTimeout tag) s = .next t ∧
      OnlyMember s t tag none ∧ t = withRpstat { s with pkg := { s.pkg with members := t.pkg.members } } 1 0

/-- Banks: an image is copied into the inactive bank and fills it, unless a link on the way is down; a core takes the new bit of its table or slot;
the exchange completes when no run uses the old bank. A free recovery slot takes the oldest entry and those like it. A lane grants the CLAIM at its
head, the next one waits there from then, and a starved one marks the gang that holds most (02 R49; 09 R211 to R213, R231 to R233, R241; 12 R301). The
model's own: log 116, DEDUCED (what is written over a link that is down). -/
def Obligations.BanksRecoveryAndClaims : Prop :=
  ∀ (s : State),
    (∀ id o st c, s.op id = some o → s.strand o.strand = some st → s.ctx o.ctx = some c → o.quiet →
      (∀ n img, o.kind = .stbl n img → n < 8 → (∀ a b, a < img.length → b < img.length → s.sysKey (c.ftarea + (2 * n + (1 - (c.tactive.getLsbD n).toNat)) * 16384 + a) =
          s.sysKey (c.ftarea + (2 * n + (1 - (c.tactive.getLsbD n).toNat)) * 16384 + b) → a = b) →
        let bank := 2 * n + (1 - (c.tactive.getLsbD n).toNat)
        let cut := s.sysCut (coreDie o.core) (c.ftarea + bank * 16384) img.length
        (cut = true → Unwritten (.stblCopyDone id) s id o st) ∧ (cut = false → ∃ t st', exec (.stblCopyDone id) s = .next t ∧ Completes (s.setCtx o.ctx { c with tfilled := c.tfilled ||| (1 <<< bank) }) t id o st st' ∧
          t.sysRead (c.ftarea + bank * 16384) img.length = img ∧ OnlyBytes s t (sysKeys s (c.ftarea + bank * 16384) img.length) ∧ SameRegs st st')) ∧
      (∀ n img, o.kind = .sld n img → n < 64 → (∀ a b, a < img.length → b < img.length → s.sysKey (c.mdarea + (2 * n + (1 - (c.mactive.getLsbD n).toNat)) * 98304 + a) =
          s.sysKey (c.mdarea + (2 * n + (1 - (c.mactive.getLsbD n).toNat)) * 98304 + b) → a = b) →
        let bank := 2 * n + (1 - (c.mactive.getLsbD n).toNat)
        let cut := s.sysCut (coreDie o.core) (c.mdarea + bank * 98304) img.length
        (cut = true → Unwritten (.sldCopyDone id) s id o st) ∧ (cut = false → ∃ t st', exec (.sldCopyDone id) s = .next t ∧ Completes (s.setCtx o.ctx { c with mfilled := c.mfilled ||| (1 <<< bank) }) t id o st st' ∧
          t.sysRead (c.mdarea + bank * 98304) img.length = img ∧ OnlyBytes s t (sysKeys s (c.mdarea + bank * 98304) img.length) ∧ SameRegs st st')) ∧
      ∀ model n cores, o.kind = .bankSwap model n cores →
        (∀ core, core ∈ cores → n < (if model then 64 else 8) → ∃ t, exec (.bankSwapNotice id core) s = .next t ∧ t = { s with ops := t.ops, cores := t.cores } ∧
          t.op id = some { o with kind := .bankSwap model n (cores.filter (· != core)) } ∧ (∀ j, j ≠ id → t.op j = s.op j) ∧ (∀ k, k ≠ core → t.core k = s.core k) ∧
          t.core core = { s.core core with tbits := (t.core core).tbits, mbits := (t.core core).mbits } ∧
          (∀ x b, b < 64 → (rd 0 (t.core core).mbits x).getLsbD b = if model = true ∧ x = o.ctx ∧ b = n then c.mactive.getLsbD n else (rd 0 (s.core core).mbits x).getLsbD b) ∧
          ∀ x b, b < 8 → (rd 0 (t.core core).tbits x).getLsbD b = if model = false ∧ x = o.ctx ∧ b = n then c.tactive.getLsbD n else (rd 0 (s.core core).tbits x).getLsbD b) ∧
        (cores = [] → usesOldBank s o.ctx model n (if model then c.mactive.getLsbD n else c.tactive.getLsbD n).toNat = false →
          ∃ t st', exec (.bankSwapComplete id) s = .next t ∧ Completes s t id o st st' ∧ t.mem = s.mem ∧ t.cores = s.cores ∧ t.bars = s.bars ∧ SameRegs st st')) ∧
    (∀ core slot en rest src, (s.core core).recq = en :: rest → s.strand en.source = some src → slot < 8 → s.strand (core * 512 + 384 + slot) = none →
      let like (x : RecEntry) : Bool := x.ctx == en.ctx && x.region == en.region && x.header == en.header && x.pc == en.pc
      let es := ((en :: rest).filter like).take 32
      (∀ x ∈ es, x.argRegs.Nodup ∧ x.argRegs.length = x.args.length) →
      ∃ (u : State) (st : Strand), exec (.recoveryStrandForm core slot) s = .next (u.trace (core * 512 + 384 + slot) 0 7 (en.pc + 4) st.path0.act 0) ∧
        u.strand (core * 512 + 384 + slot) = some st ∧ (∀ k, k ≠ core * 512 + 384 + slot → u.strand k = s.strand k) ∧
        u = { s with strands := u.strands, cores := u.cores } ∧ (∀ k, k ≠ core → u.core k = s.core k) ∧
        u.core core = { s.core core with recq := (en :: rest).filter fun x => !es.contains x } ∧
        st.gang = src.gang ∧ st.role = 3 ∧ st.lane = slot ∧ st.recov = some es ∧ st.path0.pc = en.pc + 4 ∧ st.mode = .running ∧
        (∀ t, t < 32 → has st.path0.act t = decide (t < es.length)) ∧
        ∀ (n : Nat) (x : RecEntry) (j c : Nat) (v : Word), es[n]? = some x → x.argRegs[j]? = some c → x.args[j]? = some v → st.vreg c n = v) ∧
    (∀ core lane q rest st, (s.core core).claims.filter (fun x => x.1 == lane) = q :: rest → s.laneBlocks core lane + q.2.blocks ≤ lanePool lane →
      s.strand q.2.strand = some st → coreOf q.2.strand = core → q.2.path = 0 ∨ (q.2.path = 1 ∧ st.divided = true) → (st.path q.2.path).run = none →
      ∀ i p g, s.gang st.gang = some g → peek s core g 8 (st.path q.2.path) = (some i, p) →
      ∃ t st', exec (.claimGrant core lane) s = .next t ∧ t.strand q.2.strand = some st' ∧ st'.allot = st.allot + 8 * q.2.blocks ∧
        (st'.path q.2.path).pc = (match p.reissue with | some x => x.cont | none => p.pc + 4) ∧ (st'.path q.2.path).run = none ∧
        (∀ k, k ≠ q.2.strand → t.strand k = s.strand k) ∧ t.mem = s.mem ∧
        (t.core core).claims.map claimOf = ((s.core core).claims.filter fun x => x != q).map claimOf ∧
        ∀ y, (t.core core).claims.find? (fun x => x.1 == lane) = some y → y.2.head = dieCycle (coreDie core) s.now) ∧
    ∀ core lane q, (s.core core).claims.find? (fun x => x.1 == lane) = some q → q.2.head + 65536 ≤ dieCycle (coreDie core) s.now →
      lanePool lane < s.laneBlocks core lane + q.2.blocks → ∀ n g, (s.gangs.filter fun x => x.2.core == core && x.2.resident) = [(n, g)] → g.swap = false →
      0 < gangBlocks s core lane n → gangBlocks s core lane n < 1000 → (s.strand q.2.strand).map (·.gang) ≠ some n → (∀ x ∈ s.gangs, x.1 = n → x.2 = g) →
      g.hdr.team = false → rising none s.strands = true → noneUnmatched s → ∃ t, exec (.claimStarvation core lane) s = .next t ∧
        t = { s with gangs := t.gangs, cores := t.cores } ∧ OnlyGang s t n { g with swap := true } ∧ Withdraws s t (· == n)

/-- A region's record takes the counts of an SRG or a merge, and a violation past the limit disables it; cores hear of it and of its return; REGEN
enables it again; QSET's record takes effect, unless a link on the way is down (02 R49; 09 R226, R227, R234 to R237, R242). A joint operation adds its
products to the four tiles and leaves its quarters in the buffers, or aborts at all four; MLD writes a tile (10 R251, R252, R255, R256, R264). The
model's own: log 39, DEDUCED (what FZ32 does not flush); log 40, DESIGN CHOICE (when a matrix operation reads its sources); log 41, DESIGN CHOICE
(when SRG, SCTR, SDIS and QSET act); log 116, DEDUCED (what is written over a link that is down). -/
def Obligations.RegionsAndTiles : Prop :=
  ∀ (s : State),
    (∀ n u c, look s.pkg.updates n = some u → s.ctx u.ctx = some c → spread s (c.regarea + 64 * u.region) 64 → u.viol = 0 → u.err = none →
      let get (v : State) (o k : Nat) : Nat := v.sysNat (c.regarea + 64 * u.region + o) k
      get s 16 6 + u.calls < 2 ^ 48 → get s 24 6 + u.fallb < 2 ^ 48 → get s 32 4 + u.samp < 2 ^ 32 →
      ∃ t, exec (.regionCounterUpdate n) s = .next t ∧ t = { s with mem := t.mem, pkg := { s.pkg with updates := t.pkg.updates } } ∧ look t.pkg.updates n = none ∧
        (∀ j, j ≠ n → look t.pkg.updates j = look s.pkg.updates j) ∧ get t 16 6 = get s 16 6 + u.calls ∧ get t 24 6 = get s 24 6 + u.fallb ∧ get t 32 4 = get s 32 4 + u.samp ∧
        OnlyBytes s t (sysKeys s (c.regarea + 64 * u.region + 16) 20)) ∧
    (∀ n u c e, look s.pkg.updates n = some u → s.ctx u.ctx = some c → spread s (c.regarea + 64 * u.region) 64 → u.err = some e →
      let get (v : State) (o k : Nat) : Nat := v.sysNat (c.regarea + 64 * u.region + o) k
      (s.liveq u.ctx u.region).vlimit = 0 → ∃ t, exec (.regionCounterUpdate n) s = .next t ∧ get t 22 2 = min 65535 (get s 22 2 + u.viol) ∧
        get t 40 16 = gridAdd (get s 40 16) u.sq.toNat % 2 ^ 128 ∧
        get t 36 4 = (if (fp32.value (get s 36 4)).isNan = true then get s 36 4
          else if (fp32.value e.toNat).isNan = true ∨ (fp32.value (get s 36 4)).lt (fp32.value e.toNat) = true then e.toNat else get s 36 4)) ∧
    (∀ n u c, look s.pkg.updates n = some u → s.ctx u.ctx = some c → spread s (c.regarea + 64 * u.region) 64 → u.viol ≠ 0 →
      let get (v : State) (o k : Nat) : Nat := v.sysNat (c.regarea + 64 * u.region + o) k
      let viol := min 65535 (get s 22 2 + u.viol)
      (s.liveq u.ctx u.region).vlimit ≠ 0 → (s.liveq u.ctx u.region).vlimit ≤ viol → get s 56 8 / 2 % 2 = 0 →
        ∃ v : State, exec (.regionCounterUpdate n) s = .next (v.postInterrupt 5 u.ctx u.region viol) ∧ get v 22 2 = viol ∧
          get v 56 8 = get s 56 8 % 2 + 2) ∧
    (∀ core ctx q, let off := s.regionNat ctx q 56 8 / 2 % 2 = 1
      (off → ∃ t, exec (.regionDisableNotice core ctx q) s = .next t ∧ t = { s with cores := t.cores } ∧ (∀ c, c ≠ core → t.core c = s.core c) ∧
        t.core core = { s.core core with disabled := (t.core core).disabled } ∧ (ctx, q) ∈ (t.core core).disabled ∧
        ∀ x, x ≠ (ctx, q) → (x ∈ (t.core core).disabled ↔ x ∈ (s.core core).disabled)) ∧
      (¬ off → ∃ t, exec (.regionEnableNotice core ctx q) s = .next t ∧ t = { s with cores := t.cores } ∧ (∀ c, c ≠ core → t.core c = s.core c) ∧
        t.core core = { s.core core with disabled := (t.core core).disabled } ∧ (ctx, q) ∉ (t.core core).disabled ∧
        ∀ x, x ≠ (ctx, q) → (x ∈ (t.core core).disabled ↔ x ∈ (s.core core).disabled))) ∧
    (∀ v c, s.booted = true → s.ctx (v / 2 ^ 8 % 2 ^ 6) = some c → spread s (c.regarea + 64 * (v % 2 ^ 8)) 64 →
      let at' := c.regarea + 64 * (v % 2 ^ 8)
      ∃ t, exec (.regenWrite v) s = .next t ∧ t = { s with mem := t.mem } ∧ t.sysNat (at' + 56) 8 / 2 % 2 = 0 ∧ t.sysNat (at' + 56) 8 / 4 = s.sysNat (at' + 56) 8 / 4 ∧
        t.sysNat (at' + 56) 8 % 2 = (if v / 2 ^ 15 % 2 = 1 then 0 else s.sysNat (at' + 56) 8 % 2) ∧
        t.sysNat (at' + 22) 2 = (if v / 2 ^ 14 % 2 = 1 then 0 else s.sysNat (at' + 22) 2) ∧ OnlyBytes s t (sysKeys s (at' + 22) 2 ++ sysKeys s (at' + 56) 8)) ∧
    (∀ id o st c q bs, s.op id = some o → s.strand o.strand = some st → s.ctx o.ctx = some c → o.kind = .qset q → o.data = [bs] → bs.length = 16 → o.quiet →
      spread s (c.regarea + 64 * q) 64 → (parseQuality bs).vlimit = 0 →
      let cut := s.sysCut (coreDie o.core) (c.regarea + 64 * q) 64
      (cut = true → Unwritten (.qsetComplete id) s id o st) ∧ (cut = false → ∃ t st', exec (.qsetComplete id) s = .next t ∧ Completes s t id o st st' ∧ t.sysRead (c.regarea + 64 * q) 16 = bs ∧ t.sysNat (c.regarea + 64 * q + 56) 8 % 2 = 1 ∧
        OnlyBytes s t (sysKeys s (c.regarea + 64 * q) 16 ++ sysKeys s (c.regarea + 64 * q + 56) 8) ∧ SameRegs st st' ∧ t.cores = s.cores ∧ t.bars = s.bars)) ∧
    (∀ (id quad : Nat) (h : Nat → Nat) (o : Nat → Op) (g : Nat → Gang) (a b : Nat → Nat) (ra rb : Nat → Bool) (n : Nat) (mmt : Bool) (pb tag : Nat),
      (∀ c, c < 4 → (s.core (quadCore quad c)).queue.head? = some (h c) ∧ s.op (h c) = some (o c) ∧ (o c).core = quadCore quad c ∧ quadOf (quadCore quad c) = quad ∧
        s.gang (o c).gang = some (g c) ∧ (o c).kind = .mma n mmt (a c) (b c) (ra c) (rb c) pb tag true ∧ (s.strand (o c).strand).isSome = true) →
      (∀ c c', c < 4 → c' < 4 → h c = h c' ∨ (o c).gang = (o c').gang → c = c') → (∃ c, c < 4 ∧ h c = id) → n < 8 → (∃ c, c < 4 ∧ (s.core (quadCore quad c)).matchList = []) →
      let quarter (c : Nat) : List Byte := (o c).data.getD 1 []
      ((∀ c, c < 4 → ∀ i ∈ (o c).items, i.bad = 0) → ∃ t, exec (.jointOpCommit id) s = .next t ∧ t.mem = s.mem ∧ ∀ c, c < 4 → t.op (h c) = none ∧
        ∃ g', t.gang (o c).gang = some g' ∧ Tiles (g c) g' n (fun i j =>
            let kb := if mmt then 16 else 8
            jointElem ((g c).window n) (if mmt then 7 else 0) ((List.range kb).map fun k => quarterBlock ((o c).data.getD 0 []) kb (i * kb + k))
              ((List.range kb).map fun k => quarterBlock (quarter (j / 16)) kb (j % 16 * kb + k)) ((g c).elem n i j)) ∧
          g'.bufB = some { ts8 := false, planes := pb, k512 := mmt, data := quarter c } ∧ (g'.bufA.map (·.data)) = some ((o c).data.getD 0 []) ∧
          g' = { g c with tiles := g'.tiles, bufA := g'.bufA, bufB := g'.bufB }) ∧
      ((∃ c, c < 4 ∧ ∃ i ∈ (o c).items, i.bad ≠ 0) → ∃ t, exec (.jointOpCommit id) s = .next t ∧ t.mem = s.mem ∧ ∀ c, c < 4 → t.op (h c) = none ∧
        t.gang (o c).gang = some { g c with bufA := none, bufB := none })) ∧
    ∀ id o st g n addr grid rm, s.op id = some o → s.strand o.strand = some st → s.gang o.gang = some g → o.kind = .mld n addr grid rm → n < 8 → (s.core o.core).queue.head? = some id →
      (∀ a, a < (if grid then 16384 else 4096) → addr + a ∉ s.phys.bad) → ∃ t g', exec (.mldComplete id) s = .next t ∧ t.mem = s.mem ∧ t.op id = none ∧
        (t.core o.core).queue = (s.core o.core).queue.filter (· != id) ∧ OnlyGang s t o.gang g' ∧ g' = { g with tiles := g'.tiles } ∧
        Tiles g g' n fun i j =>
          if grid then
            let v := readNat s.mem (addr + 16 * (64 * i + j)) 16
            clampTile (signed 126 (v % 2 ^ 126)) (v / 2 ^ 127 % 2 == 1) (v / 2 ^ 126 % 2 == 1)
          else
            let x := toGrid rm (fp32.value (readNat s.mem (addr + 4 * (64 * i + j)) 4)) (g.window n) 96
            { t := BitVec.ofInt 96 x.1, ovf := x.2.1, nf := x.2.2 }

/-- A record on its way to a queue: TKPORT takes 64 bytes at its own offset and counts other writes; the dispatcher rejects a record that fails a
check, makes a GANG record a queue entry and a GRID record a launch; a launch's next gang, or a team's next four, goes to a quad with its coordinates
and its share of the weight, and the shares are all of it; a quad with room takes a spill's oldest record, and the overflow buffer's oldest one goes
on (12 R302; 13 R317 to R322). The model's own: log 11, DEDUCED (the lowest free entry of a queue); log 18, DESIGN CHOICE (misaligned bits are stored
as they are written); log 44, DEDUCED (a team's four records stay together); log 45, DEDUCED (a launch with DIE slots keeps one die); log 46, DESIGN
CHOICE (a record of a SPWN stands on the dispatcher's list in its reserved room); log 125, DESIGN CHOICE (a spill address with an offset). -/
def Obligations.RecordsReachQueues : Prop :=
  ∀ (s : State),
    (s.booted = true →
      (∀ data, exec (.tkportWrite 0x40 64 data) s =
        .next { s with pkg := { s.pkg with port := s.pkg.port ++ [{ task := parseTask (leBytes 64 data), origin := 0 }] } }) ∧
      ∀ off size data, 0x40 < off + size → off < 0x80 → ¬ (off = 0x40 ∧ size = 64) → s.win.tkstat.toNat % 2 ^ 16 < 65535 →
        exec (.tkportWrite off size data) s = .next { s with pkg := { s.pkg with win := { s.win with tkstat := s.win.tkstat + 1 } } }) ∧
    (∀ r rest, s.pkg.port = r :: rest → r.pinned = false → r.op = none → r.task.graph = false →
      let u : State := { s with pkg := { s.pkg with port := rest } }
      let n := if r.task.kind = 0 then 1 else r.task.ex0 * r.task.ex1 * r.task.ex2
      (∀ h, takeCheck u r.task r.origin = .ok h → (r.task.kind = 1 → r.task.domain ≠ noDomain → n ≤ r.task.weight) →
        let l : Launch := { task := r.task, hdr := h, n, weight := r.task.weight, origin := r.origin, addr := r.addr }
        (r.task.kind = 1 → exec .dispatcherTake s =
          .next { u with nextId := s.nextId + 1, pkg := { u.pkg with launches := upd u.pkg.launches s.nextId (some l) } }) ∧
        (r.task.kind = 0 → ∀ q, (r.quad = none ∧ r.spill = false ∧ u.chooseQuad none 1 = some q) ∨ (r.quad = some q ∧ 0 < u.room q) → ∃ t, exec .dispatcherTake s = .next t ∧
          t = { u with mem := t.mem, nextId := s.nextId + 2, quads := t.quads
                       pkg := { u.pkg with launches := upd u.pkg.launches s.nextId (some { l with next := 1 }) } } ∧
          let rs : List QRec := [{ task := r.task, launch := s.nextId }]
          OnlyQuad s t q (queuedAfter { s with nextId := s.nextId + 1 } q rs) ∧ Enters s t q rs)) ∧
      (∀ c q, takeCheck u r.task r.origin = .error (c, q) → r.task.domain = noDomain →
        let v := withFault u (lostRecord s c q r.task.ctx 0 (if r.addr = 0 then r.task.entry else 0) r.addr)
        (r.origin ≠ 0 → exec .dispatcherTake s = .next v) ∧
        (r.origin = 0 → s.win.tkstat.toNat / 2 ^ 16 % 2 ^ 16 < 65535 →
          exec .dispatcherTake s = .next { v with pkg := { v.pkg with win := { s.win with tkstat := s.win.tkstat + 0x10000 } } }))) ∧
    (∀ n l, look s.pkg.launches n = some l → l.task.kind = 1 → l.task.graph = false → l.pin = none → l.hdr.nbdie = 0 →
      let k := if l.hdr.team then 4 else 1
      l.next + k ≤ l.n → ∀ q, s.chooseQuad none k = some q → ∃ t, exec (.launchExpand n) s = .next t ∧
        t = { s with mem := t.mem, nextId := s.nextId + k, quads := t.quads, pkg := { s.pkg with launches := t.pkg.launches } } ∧
        OnlyLaunch s t n (some { l with next := l.next + k }) ∧
        let rs : List QRec := (List.range k).map fun i => { task := l.gangTask (l.next + i), launch := n, index := l.next + i }
        OnlyQuad s t q (queuedAfter s q rs) ∧ Enters s t q rs) ∧
    (∀ l : Launch, l.task.kind = 1 →
      (∀ g, (l.gangTask g).kind = 0 ∧ (l.gangTask g).entry = l.task.entry ∧ (l.gangTask g).argp = l.task.argp ∧
        (l.gangTask g).tc0 = (l.task.tc0 + g % l.task.ex0) % 2 ^ 16 ∧ (l.gangTask g).tc1 = (l.task.tc1 + g / l.task.ex0 % l.task.ex1) % 2 ^ 16 ∧
        (l.gangTask g).tc2 = (l.task.tc2 + g / (l.task.ex0 * l.task.ex1)) % 2 ^ 16) ∧
      (l.task.domain ≠ noDomain → 0 < l.n → ((List.range l.n).map fun g => (l.gangTask g).weight).sum = l.weight)) ∧
    (∀ quad ctx obj h tl cap c, ∀ e : Nat × QRec, spillQueue s ctx = some (obj, h, tl, cap) → (s.pkg.spilled.find? fun x => x.1 == ctx) = some e → s.ctx ctx = some c →
      c.stopped = false → quad ∈ s.quadsIn → 512 ≤ s.room quad → s.reading quad < s.ceiling → h < tl → returnsTo s quad e.2 = true →
      let from' := c.tspill % 2 ^ 40 + 64 + 64 * (h % cap)
      (∀ i k, i < 64 → hwKey s 0 ctx obj (from' + i) = some k → s.readFails 0 k = false) → ∃ t, exec (.taskSpillTake quad ctx) s = .next t ∧
        t = { s with mem := t.mem, nextId := s.nextId + 1, quads := t.quads, pkg := { s.pkg with spilled := s.pkg.spilled.erase e, launches := t.pkg.launches } } ∧
        (∀ j, look t.pkg.launches j = (look s.pkg.launches j).map fun l =>
          if j = e.2.launch ∧ l.hdr.nbdie ≠ 0 then { l with die := some (l.die.getD (quad / 34)) } else l) ∧
        let rs : List QRec := [{ e.2 with task := parseTask (hwRead s 0 ctx obj from' 64), src := obj * 2 ^ 40 + from' }]
        OnlyQuad s t quad (queuedAfter s quad rs) ∧
        ∀ ks, ks.length = 8 → HwLies s ctx obj (c.tspill % 2 ^ 40) ks → (∀ k ∈ ks, k ∉ entriesOf s quad 1) →
          leNat (ks.map (readByte t.mem)) = (h + 1) % 2 ^ 64 ∧ Stand s t quad rs ∧ OnlyBytes s t (ks ++ entriesOf s quad 1)) ∧
    ∀ r rest, s.pkg.overflow = r :: rest → ∀ q, s.chooseQuad none 1 = some q → ∃ t, exec .overflowBufferRetry s = .next t ∧
      t = { s with mem := t.mem, nextId := s.nextId + 1, quads := t.quads, pkg := { s.pkg with overflow := rest } } ∧ OnlyQuad s t q (queuedAfter s q [r]) ∧ Enters s t q [r]

/-- Gangs on their cores: a quad places a record that fits, which becomes a gang whose strands start at the kernel's entry, all threads active, with
its argument and header addresses in s0 to s3; a record that has waited one quantum holds younger ones back; a gang whose quantum has ended and whose
place another needs is marked, its waits withdrawn; a marked gang is saved and its record queued again; a hard fault in a quad destroys a queued
record, and its lost weight is reported, with where the record was read (14 R347; 12 R282, R283, R304, R306, R307; 13 R324, R330; 14 R363). The
model's own: log 10, DESIGN CHOICE (which values are free); log 11, DEDUCED (the lowest free entry of a queue); log 50, DEDUCED (a new carve-out keeps
its bytes); log 67, DEDUCED (the lowest free address or slot); log 68, DEDUCED (a bound gang stays in the queue of its quad); log 70, DEDUCED (which
gang is marked); log 73, DESIGN CHOICE (the item a hard fault names). -/
def Obligations.GangsComeAndGo : Prop :=
  ∀ (s : State) (quad : Nat),
    (∀ r h p, quad ∈ s.quadsIn → (s.quad quad).hold = none → (placeable s quad).head? = some r → headerOf s r = .ok h → r.gang = none → h.team = false →
      fitQuad s quad r h (teamOf s quad r) = some [(r, p)] → (p.slots.map fun x => x.2.1).Nodup →
      ∃ t g, exec (.gangPlace quad) s = .next t ∧ OnlyGang s t s.nextId g ∧
        g = { task := r.task, hdr := h, index := r.index, launch := r.launch, src := r.src, core := p.core, gslot := g.gslot, base := p.base, bound := h.carve != 0
              placed := dieCycle (coreDie p.core) s.now, live := h.nstr, prim := { domain := r.task.domain, weight := r.task.weight }
              pinned := if r.task.graph then some (r.task.graphObj, r.task.gen) else none } ∧
        (h.carve = 0 → (s.core p.core).carve = 0 → g.gslot = (freeSlots s r.task.ctx).headD 0) ∧
        (∀ index k lane, (index, k, lane) ∈ p.slots → ∃ st, t.strand k = some st ∧
          st = { gang := s.nextId, index, role := if index < h.nload then 1 else if index < h.nload + h.nstore then 2 else 0, lane, allot := h.allot
                 path0 := { pc := BitVec.ofNat 32 (r.task.entry % 2 ^ 40 + h.entryOff), act := 0xFFFFFFFF }, s := st.s } ∧
          st.sreg 0 = BitVec.ofNat 32 r.task.argp ∧ st.sreg 1 = BitVec.ofNat 32 (r.task.argp / 2 ^ 32) ∧
          st.sreg 2 = BitVec.ofNat 32 r.task.entry ∧ st.sreg 3 = BitVec.ofNat 32 (r.task.entry / 2 ^ 32) ∧ ∀ c, 4 ≤ c → st.sreg c = 0) ∧
        (∀ k, (∀ x ∈ p.slots, x.2.1 ≠ k) → t.strand k = s.strand k) ∧ (h.carve = 0 → t.mem = s.mem) ∧ OnlyQuad s t quad (queueWithout s quad r.id)) ∧
    (∀ r rest, placeable s quad = r :: rest → (s.quad quad).hold = none → r.entered + quantum s r.task.ctx ≤ dieCycle (quad / 34) s.now → ∃ t, exec (.oldestRecordHold quad) s = .next t ∧
      t = { s with quads := t.quads } ∧ OnlyQuad s t quad { s.quad quad with hold := some r.id }) ∧
    (∀ core n g r, (n, g) ∈ s.residents core → s.gang n = some g → g.swap = false → g.hdr.team = false → g.placed + quantum s g.task.ctx ≤ dieCycle (coreDie core) s.now →
      (∀ x ∈ s.residents core, x ≠ (n, g) → g.placed < x.2.placed) → (∀ x ∈ s.gangs, x.1 = n → x.2 = g) → r ∈ unblocked s (quadOf core) →
      placeableAt s (quadOf core) r = false → makesRoom s (quadOf core) n g r = true → rising none s.strands = true → noneUnmatched s →
      ∃ t, exec (.quantumExpiry core) s = .next t ∧ t = { s with gangs := t.gangs, cores := t.cores } ∧ OnlyGang s t n { g with swap := true } ∧ Withdraws s t (· == n)) ∧
    (∀ r rest, placeable s quad = r :: rest → r.entered + quantum s r.task.ctx ≤ dieCycle (quad / 34) s.now → unblocked s quad = [r]) ∧
    (∀ n g r, placeableAt (s.without n) quad r = true → makesRoom s quad n g r = true) ∧
    (∀ n g, s.gang n = some g → g.resident = true → g.swap = true → canSave s n = true → 0 < s.room (quadOf g.core) → s.pkg.failing = [] → ∃ t g' id, exec (.gangSwapSave n) s = .next t ∧
      OnlyGang s t n g' ∧ g' = { g with resident := false, swap := false, stopped := g'.stopped, saved := g'.saved } ∧
      (∀ k st, t.strand k = some st → slotOf k < 384 → st.gang ≠ n) ∧ (∀ k st, s.strand k = some st → st.gang ≠ n → t.strand k = some st) ∧
      OnlyQuad s t (quadOf g.core) { s.quad (quadOf g.core) with queue := (s.quad (quadOf g.core)).queue ++
        [{ task := { g.task with weight := g.prim.weight }, gang := some n, launch := g.launch, index := g.index
           entered := dieCycle (quadOf g.core / 34) s.now, st := .queued, id, slot := (freeEntries s (quadOf g.core)).getD 0 0 }] } ∧
      Stand s t (quadOf g.core) [{ task := { g.task with weight := g.prim.weight } }]) ∧
    ∀ r, (s.quad quad).queue.find? (fun x => x.id == r.id) = some r →
      (r.st ≠ .queued → ∃ t, exec (.hardFault quad r.id) s = .next t ∧ t = { s with quads := t.quads } ∧ OnlyQuad s t quad (queueWithout s quad r.id)) ∧
      (r.st = .queued → r.gang = none → r.task.graph = false → r.task.domain = noDomain → ∃ t w, exec (.hardFault quad r.id) s = .next t ∧
        OnlyQuad s t quad (queueWithout s quad r.id) ∧ (w = r.task.weight ∨ w = 2 ^ 64 - 1) ∧
        t.pkg.faultWait = s.pkg.faultWait ++ [lostRecord s 0x61 0 r.task.ctx 0 w (if r.src ≠ 0 then r.src else ((look s.pkg.launches r.launch).map (·.addr)).getD 0)] ∧ t.gangs = s.gangs ∧ t.strands = s.strands ∧ t.mem = s.mem)

/-- Steals, counters and domains: an idle quad is lent the oldest record it may take of the fullest queue of its die, the lowest quad of equal ones,
or, where STEALCTL allows, of the first other die that has one to give; the copy waits as pending, its ACK frees the entry or, too late, is refused,
and the entry is queued again at the victim's timeout; CONFIRM makes the copy the record and REFUSE drops it. A decrement lowers its counter, and the
last one starts it again and submits the successor with the weight, a graph's by the generation it pins; weight that comes back counts as returned,
and a domain no gang waits on is freed when quiet; an arrival at a POD slot is that of a BAR (13 R323 to R328, R337 to R339). The model's own: log 7,
DESIGN CHOICE (what other packages send is free); log 11, DEDUCED (the lowest free entry of a queue); log 46, DESIGN CHOICE (a record of a SPWN stands
on the dispatcher's list in its reserved room); log 47, DEDUCED (what pins a generation for a decrement); log 71, DEDUCED (the record a thief may
take, and the order of dies); log 107, DEDUCED (a decrement that a link cuts off); log 119, DESIGN CHOICE (the die that reads a successor). -/
def Obligations.StealsAndReturns : Prop :=
  ∀ (s : State),
    (∀ quad v r, quad ∈ s.quadsIn → (s.quad quad).queue = [] → (∃ c, c < 4 ∧ (s.onCoreStrands (quadCore quad c)).length < 384) → s.reading quad < s.ceiling →
      (∀ x ∈ s.pkg.steals, x.2.thief ≠ quad) → v ∈ s.quadsIn → v ≠ quad → 2 ≤ (queued s v).length →
      let far (q : Nat) : Nat := Nat.xor (q / 34) (quad / 34)
      far v = 0 ∨ s.win.stealctl.toNat / 2 ^ 5 % 2 = 1 → (∀ q ∈ s.quadsIn, (queued s q).length ≤ 2048) →
      (∀ q ∈ s.quadsIn, q ≠ quad → q ≠ v → 2 ≤ (queued s q).length → far v < far q ∨
        (far q = far v ∧ ((queued s q).length < (queued s v).length ∨ ((queued s q).length = (queued s v).length ∧ v < q)))) →
      (placeable s v).find? (stealable s quad v) = some r → ∃ t, exec (.stealStart quad) s = .next t ∧
        t = { s with nextId := s.nextId + 1, quads := t.quads, pkg := { s.pkg with steals := t.pkg.steals } } ∧ OnlyQuad s t v (queueMarked s v r.id .lent) ∧
        OnlySteal s t s.nextId (some { item := r, victim := v, thief := quad, start := dieCycle (v / 34) s.now })) ∧
    (∀ n x, look s.pkg.steals n = some x →
      let late : Prop := x.start + 2 ^ (s.win.stealctl.toNat % 2 ^ 5) ≤ dieCycle (x.victim / 34) s.now
      let step (i : Instr) (y : Option Steal) (q : Nat) (z : Quad) : Prop := ∃ t, exec i s = .next t ∧
        t = { s with quads := t.quads, pkg := { s.pkg with steals := t.pkg.steals } } ∧ OnlySteal s t n y ∧ OnlyQuad s t q z
      (x.stage = 0 → (s.quad x.thief).queue.length < 2048 → ∃ t, exec (.stealCopyArrive n) s = .next t ∧
        t = { s with mem := t.mem, quads := t.quads, pkg := { s.pkg with steals := t.pkg.steals } } ∧ OnlySteal s t n (some { x with stage := 1 }) ∧
        Enters s t x.thief [x.item] ∧ OnlyQuad s t x.thief { s.quad x.thief with queue := (s.quad x.thief).queue ++ [{ x.item with
          id := n, st := .pending, slot := (freeEntries s x.thief).getD 0 0 }] }) ∧
      (x.stage = 1 → x.timedOut = true → step (.stealAckArrive n) (some { x with stage := 3 }) x.victim (s.quad x.victim)) ∧
      (x.stage = 1 → x.timedOut = false → late → (∃ y ∈ (s.quad x.victim).queue, y.id = x.item.id) → step (.stealAckArrive n) (some { x with stage := 3, timedOut := true }) x.victim (queueMarked s x.victim x.item.id .queued)) ∧
      (x.stage = 1 → x.timedOut = false → ¬ late → step (.stealAckArrive n) (some { x with stage := 2 }) x.victim (queueWithout s x.victim x.item.id)) ∧
      (x.stage < 2 → x.timedOut = false → late → (∃ y ∈ (s.quad x.victim).queue, y.id = x.item.id) → step (.stealHandoffTimeout n) (some { x with timedOut := true }) x.victim (queueMarked s x.victim x.item.id .queued)) ∧
      (x.stage = 2 → (∃ y ∈ (s.quad x.thief).queue, y.id = n) → step (.stealConfirmArrive n) none x.thief { s.quad x.thief with
        queue := (s.quad x.thief).queue.map fun r => if r.id = n then { r with st := .queued, entered := dieCycle (x.thief / 34) s.now } else r }) ∧
      (x.stage = 3 → step (.stealRefuseArrive n) none x.thief (queueWithout s x.thief n))) ∧
    (∀ m succ w d ctx gen graph die l, look s.pkg.msgs m = some (.dec succ w d ctx gen graph die) → (∀ x ∈ s.ops, x.2.kind ≠ .done m) →
      let u : State := { s with pkg := { s.pkg with msgs := upd s.pkg.msgs m none } }
      let ks := memKeys l.bytes
      let word (v : State) (o n : Nat) : Nat := leNat (((ks.drop o).take n).map (readByte v.mem))
      let pin := if graph then some gen else none
      let released : List Pin := s.pkg.pins.map fun p => if graph = true ∧ p.ctx = ctx ∧ p.obj = succ / 2 ^ 40 ∧ p.gen = gen then { p with count := p.count - 1 } else p
      checkCounter u 0 ctx succ pin = .ok l → ks.length = 16 → ks.Nodup → (∀ k ∈ ks, s.readFails die k = false) → 1 ≤ word s 0 4 →
      (d = noDomain → 2 ≤ word s 0 4 ∨ word s 8 8 = 0 → ∃ t, exec (.successorDecrement m) s = .next t ∧
        t = { u with mem := t.mem, pkg := { u.pkg with pins := released } } ∧ OnlyBytes s t (ks.take 4) ∧
        word t 0 4 = if word s 0 4 = 1 then word s 4 4 else word s 0 4 - 1) ∧
      (word s 0 4 = 1 → word s 8 8 ≠ 0 →
        let v : State := { u with mem := writeBytes s.mem (ks.take 4) (leBytes 4 (word s 4 4)) }
        ∀ c, translateAt (recordDepth v ctx) v 0 ctx (word s 8 8) 64 .read false pin = .ok c → v.readCause 0 (memKeys c.bytes) = 0 →
          let r := parseTask (c.bytes.map (Src.read v.mem))
          let keep := graph && r.graph && decide (r.succ / 2 ^ 40 = succ / 2 ^ 40)
          exec (.successorDecrement m) s = .next { v with pkg := { u.pkg with
            pins := if keep then s.pkg.pins else released
            port := s.pkg.port ++ [{ origin := 2, addr := word s 8 8, pinned := keep
                                     task := { r with weight := w, domain := d, ctx, gen := if r.graph = true ∧ graph = true then gen else r.gen } }] } })) ∧
    (∀ m d w, look s.pkg.msgs m = some (.ret d w) → (∀ x ∈ s.ops, x.2.kind ≠ .done m) → d ≠ noDomain → domainValid s d (domainNat s d 24 4 / 2 ^ 4 % 2 ^ 6) = true → domainNat s d 12 12 + w < 2 ^ 96 →
      let f := domainNat s d 24 4
      ∃ t, exec (.domainReturn m) s = .next t ∧ t = { s with mem := t.mem, pkg := { s.pkg with msgs := upd s.pkg.msgs m none } } ∧ OnlyDomain s t d ∧
        domainNat t d 0 12 = domainNat s d 0 12 ∧ domainNat t d 12 12 = domainNat s d 12 12 + w ∧ domainNat t d 28 4 = domainNat s d 28 4 ∧
        domainNat t d 24 4 = if domainNat s d 0 12 = domainNat s d 12 12 + w ∧ f / 8 % 2 = 0 ∧ secondaryHeld s d = false then f / 2 * 2 else f) ∧
    ∀ ctx slot n c, s.wilmo = true → s.ctx ctx = some c → slot < 16 → c.podmap.getLsbD slot = true → mayArrive (s.bar (barKey 5 0 slot)) 5 n →
      ∃ t, exec (.podBarrierArrival ctx slot n) s = .next t ∧ t = { s with bars := t.bars } ∧ OnlySlot s t (barKey 5 0 slot) (arrived (s.bar (barKey 5 0 slot)) 5 n)

/-- Lanes: with each step a path whose next chain can issue becomes ready, whether it has a run or not, and its age dates from then; a free lane takes the first of its ready paths, promoted ones, then higher classes, then older
ones before the others; the others are passed over once more. A path the scoreboard has held for 512 die cycles gives up its lane (12 R286, R288 to R291). A window's static energy goes to the
contexts that hold strand slots, and its charges to the package sums (14 R368). -/
def Sys2Proof.Machine.LanesAndWindowsPart : Prop :=
  ∀ (s : State) (core lane : Nat),
    (∀ k pi st g, let p := st.path pi
      let now := unblockedPath s k pi st g && canIssue s k pi st g
      let q := Path.aged s k pi st g
      q = { p with age := if now && !p.isReady then s.now else p.age, isReady := now, heldFrom := q.heldFrom } ∧ (p.run = none → q.heldFrom = none) ∧
        (p.run ≠ none → q.heldFrom = if stalled s (comingTo s k pi st g).1 (comingTo s k pi st g).2 then some (p.heldFrom.getD s.now) else none)) ∧
    (∀ k pi st, rising none s.strands = true → (k, pi, st) ∈ lanePaths s core lane → ready s k pi = true →
      (∀ x ∈ lanePaths s core lane, (x.2.2.path x.2.1).run = none) →
      (∀ x ∈ lanePaths s core lane, ready s x.1 x.2.1 = true → (x.1, x.2.1) ≠ (k, pi) → pathBefore (k, pi, st) x = true) →
      ∃ u : State, exec (.laneRunStart core lane) s = .next { u.trace k pi 0 (st.path pi).pc (st.path pi).act 0 with cur := some (k, pi) } ∧ u = { s with strands := u.strands } ∧
        (∀ j, (∀ x ∈ lanePaths s core lane, x.1 ≠ j) → u.strand j = s.strand j) ∧
        ∀ x ∈ lanePaths s core lane, ∃ st', u.strand x.1 = some st' ∧ st' = { x.2.2 with path0 := st'.path0, path1 := st'.path1 } ∧
          (x.2.2.divided = false → st'.path1 = x.2.2.path1) ∧
          let p := x.2.2.path x.2.1
          st'.path x.2.1 = if (x.1, x.2.1) = (k, pi) then { p with passes := 0, run := some {}, heldFrom := none }
            else if ready s x.1 x.2.1 then { p with passes := min 32 (p.passes + 1) } else p) ∧
    (∀ k pi st g r since, s.strand k = some st → s.gang st.gang = some g → (st.path pi).run = some r → (st.path pi).heldFrom = some since →
      let long := dieCycle (coreDie (coreOf k)) since + 512 ≤ dieCycle (coreDie (coreOf k)) s.now
      let held := stalled s (comingTo s k pi st g).1 (comingTo s k pi st g).2 = true
      (¬ long ∨ ¬ held → exec (.stallCapExpiry k pi) s = .next s) ∧
      (long → held → ∃ t, exec (.stallCapExpiry k pi) s = .next t ∧
        t = { s with strands := t.strands, cores := t.cores, cur := if s.cur = some (k, pi) then none else s.cur } ∧
        t.strand k = some (st.setPath pi { (st.path pi).rewind with run := none }) ∧ (∀ j, j ≠ k → t.strand j = s.strand j) ∧
        (∀ c, c ≠ coreOf k → t.core c = s.core c) ∧ t.core (coreOf k) = { s.core (coreOf k) with evc0 := (t.core (coreOf k)).evc0 } ∧
        (t.core (coreOf k)).evc0.toNat = (s.core (coreOf k)).evc0.toNat + if (s.core (coreOf k)).evc0.toNat / 2 ^ 32 = 2 ^ 32 - 1 then 0 else 2 ^ 32)) ∧
    ∀ ctx n m, slotShares s core = [(ctx, n)] → 0 < n → (s.core core).charges = [(ctx, m)] → 0 < m →
      let stat := s.win.enstat.toNat % 2 ^ 24
      let psum := s.win.ctxoff.toNat + 256 * ctx + 80
      ∃ t, exec (.energyWindow core) s = .next t ∧ t = { s with mem := t.mem, cores := t.cores } ∧ (∀ c, c ≠ core → t.core c = s.core c) ∧
        t.core core = { s.core core with energy := (t.core core).energy, charges := [] } ∧
        (0 < stat → rd {} (t.core core).energy ctx = (rd {} (s.core core).energy ctx).add stat) ∧
        (∀ c, c ≠ ctx → rd {} (t.core core).energy c = rd {} (s.core core).energy c) ∧
        t.onyxNat 0 psum 8 = ((parseCounter (s.onyxNat 0 psum 8)).add (m + stat)).word % 2 ^ 64 ∧
        OnlyBytes s t ((List.range 8).map fun i => onyxKey 0 (psum + i))

/-- Lanes choose paths; trace records; windows of energy (12 R284 to R291; 14 R368; 15 R380, R381). The model's own: log 34, DEDUCED (a record of a
split, or of both paths, names path 0 and a path that unwinds has one of kind 1); log 79, DESIGN CHOICE (which cycles are gated); log 82, DEDUCED (a
path's age is dated in steps); log 98, DESIGN CHOICE (what a trace unit writes in a step); log 108, DEDUCED (how an MRD or an MZ waits). -/
def Obligations.LanesAndWindows : Prop := TraceRecordsPart ∧ LanesAndWindowsPart

/-- A stopping strand that has drained writes its image, its record first, into its save slot; its handler takes its slot, with the image's and the
header's addresses in s0 to s3, or, where the kernel has no handler or the cause goes to the host, its record goes there and it stays stopped; a
handler that faults is abandoned; an exiting strand leaves, its gang with the last of them, performing the DONE it has not. The oldest record that
waits for a context's fault queue is appended, or waits there until the host has made room (12 R315; 13 R335; 14 R345 to R350, R352 to R355). The
model's own: log 19, DEDUCED (the live masks, the unnamed bytes and the reserved bits of an image); log 20, DEDUCED (the PC an image shows of a chain
that is to issue again); log 33, DEDUCED (a handler's recovery entries); log 58, DEDUCED (faults found in the drain, and an exiting strand with one);
log 63, DEDUCED (the order of a handler's records, and their WHOLE); log 64, DEDUCED (each try without room while OVF is clear posts one notice); log
65, DEDUCED (the records of a context that is not active). -/
def Obligations.StrandsStop : Prop :=
  ∀ (s : State) (k : Nat) (st : Strand) (g : Gang), s.strand k = some st → s.gang st.gang = some g →
    let n := imageNo k st.index
    let ctx := g.task.ctx
    let alone (t : State) : Prop := ∀ j, j ≠ k → t.strand j = s.strand j
    (st.mode = .stopping → s.drained k = true → st.deferred = [] → st.divided = false → st.path1.fault = none → ∀ f, st.path0.fault = some f →
      let bytes := faultRecord s k st g 0 f false
      let img := ({ st with path0 := st.path0.shown, path1 := st.path1.shown } : Strand).image bytes []
      let u := (s.setStrand k st).trace k 0 4 f.pc st.path0.act (BitVec.ofNat 32 f.cause)
      let place (ks : List Nat) : Prop := HwLies u ctx (s.gsobj ctx) (g.gslot * 2 ^ 21 + imageOff n) ks ∧ ks.length = img.length
      let own (t : State) : Prop := ∃ g', OnlyGang s t st.gang g' ∧ g' = { g with saved := g'.saved } ∧ look g'.saved n = some (s.keepOf k st)
      (g.hdr.handlerOff ≠ 0 → f.toHost = false → ∃ t st', exec (.strandStop k) s = .next t ∧ t.strand k = some st' ∧ alone t ∧ own t ∧
        st' = { gang := st.gang, index := st.index, role := st.role, lane := st.lane, allot := st.allot, rsel := st.rsel
                stopReq := st.stopReq, stepFlag := st.stepFlag, mode := .handler, s := st'.s
                path0 := { pc := BitVec.ofNat 32 (g.task.entry % 2 ^ 40 + g.hdr.handlerOff), act := 0xFFFFFFFF } } ∧
        st'.upair 0 = imageAddr s g n % 2 ^ 64 ∧ st'.upair 2 = g.task.entry % 2 ^ 64 ∧ (∀ c, 4 ≤ c → st'.sreg c = 0) ∧
        t.pkg.faultWait = s.pkg.faultWait ++ (if (s.ctx ctx).any (fun c => c.logall) = true ∨ f.team = true then [{ ctx := ctx % 64, cause := f.cause, record := bytes, toHost := false }] else []) ∧
        ∀ ks, place ks → BytesAre t ks img ∧ OnlyBytes u t ks) ∧
      (g.hdr.handlerOff = 0 ∨ f.toHost = true → ∀ ks, place ks → img.length = 16384 →
        HwLies { u with mem := writeBytes u.mem ks img } ctx (s.gsobj ctx) (g.gslot * 2 ^ 21 + imageOff n) ks → f.cause < 2 ^ 8 → f.qual < 2 ^ 8 → ∃ t st', exec (.strandStop k) s = .next t ∧ t.strand k = some st' ∧ alone t ∧ own t ∧
        st'.mode = .stopped ∧ st'.stopReq = false ∧ BytesAre t (ks.drop 4) (img.drop 4) ∧ OnlyBytes u t ks ∧
        t.pkg.faultWait = s.pkg.faultWait ++ [{
          ctx := ctx % 64, cause := f.cause, toHost := true, record := leBytes 4 (Nat.lor (fieldAt bytes 0 4) (2 ^ 20)) ++ bytes.drop 4 }])) ∧
    (st.mode = .handler → s.drained k = true → st.path1.fault = none → ∀ f, st.path0.fault = some f →
      let own := if f.cause = 0x10 then f else { f with cause := 0x10, qual := 0, aux := f.cause }
      let bs := s.slotRead g (imageOff n) 16384
      ∃ t st', exec (.strandStop k) s = .next t ∧ t.strand k = some st' ∧ HandlerGone s t k ∧ st'.mode = .stopped ∧
        t.pkg.faultWait = s.pkg.faultWait ++ [{ ctx := ctx % 64, cause := 0x10, record := faultRecord s k st g 0 own true, toHost := true }] ++ hostRecords ctx bs) ∧
    (st.mode = .exiting → (∀ x ∈ s.ops, x.2.strand ≠ k) → st.deferred = [] → st.recov = none → st.pending = 0 → (∀ x ∈ s.pkg.updates, x.2.strand ≠ k) →
      (2 ≤ g.live → ∃ t, exec (.strandStop k) s = .next t ∧ t = { s with strands := t.strands, gangs := t.gangs } ∧ t.strand k = none ∧ alone t ∧
        ∃ g', OnlyGang s t st.gang g' ∧ g' = { g with live := g.live - 1, saved := g'.saved } ∧ look g'.saved st.index = none) ∧
      (g.live = 1 → (∀ x ∈ s.strands, x.1 ≠ k → x.2.gang = st.gang → slotOf x.1 < 384) → g.hdr.team = false → g.sec = none → g.pinned = none → st.killed = false → ∃ t, exec (.strandStop k) s = .next t ∧ t.strand k = none ∧ alone t ∧
        t.gang st.gang = none ∧ (∀ m, m ≠ st.gang → t.gang m = s.gang m) ∧
        (g.prim.returned = true → t.pkg.msgs = s.pkg.msgs) ∧
        (g.prim.returned = false → g.task.graph = false → g.task.succ ≠ 0 → Sent s t (.dec g.task.succ g.prim.weight g.prim.domain ctx g.task.gen false (coreDie g.core))) ∧
        (g.prim.returned = false → g.task.succ = 0 → 0 < g.prim.weight → g.prim.domain ≠ noDomain → Sent s t (.ret g.prim.domain g.prim.weight)))) ∧
    ∀ id a, s.pkg.faultWait.find? (fun x => x.ctx == id) = some a →
      let obj := ((s.ctx id).map fun c => c.fqobj).getD 0
      let cap := (((record s 0 id obj).map fun r => r.extent).getD 0 - 128) / 128
      let tail := hwNat s 0 id obj 8 8
      let head := hwNat s 0 id obj 0 8
      let rest : State := { s with pkg := { s.pkg with faultWait := s.pkg.faultWait.erase a } }
      let unwritten : Prop := exec (.faultQueueAppend id) s = .next (if a.toHost then rest.postInterrupt 2 id 0x11 0 else rest)
      let reached := hwReaches s 0 id obj (128 + 128 * (tail % cap)) 128
      (s.ctx id = none ∨ hwReaches s 0 id obj 0 16 = false ∨ cap = 0 → unwritten) ∧
      ((s.ctx id).isSome = true → hwReaches s 0 id obj 0 16 = true → 0 < cap →
        (tail < head + cap → reached = false → unwritten) ∧
        (tail < head + cap → reached = true → ∀ ks kt, ks.length = 128 → kt.length = 8 → a.record.length = 128 → (ks ++ kt).Nodup →
          HwLies s id obj (128 + 128 * (tail % cap)) ks → HwLies s id obj 8 kt → HwLies { s with mem := writeBytes s.mem ks a.record } id obj 8 kt →
          ∃ t, exec (.faultQueueAppend id) s = .next (if a.toHost then t.postInterrupt 1 id a.cause (tail + 1) else t) ∧ t = { rest with mem := t.mem } ∧
            BytesAre t ks a.record ∧ leNat (kt.map (readByte t.mem)) = (tail + 1) % 2 ^ 64 ∧ OnlyBytes s t (ks ++ kt)) ∧
        let byte := onyxKey 0 (s.win.ctxoff.toNat + 256 * id)
        (head + cap ≤ tail → (readByte s.mem byte).getLsbD 2 = true → exec (.faultQueueAppend id) s = .next s) ∧
        (head + cap ≤ tail → (readByte s.mem byte).getLsbD 2 = false → ∃ t, exec (.faultQueueAppend id) s = .next (t.postInterrupt 2 id 0x11 0) ∧
          t = { s with mem := t.mem } ∧ readByte t.mem byte = readByte s.mem byte ||| 4 ∧ OnlyBytes s t [byte]))

/-- The host's requests to strands: HRSM resumes a stopped strand from its image, re-executing or not, kills the threads of its record, or all, or is
refused; DSTOP stops a running strand at its next chain, with cause 0, or sets the step flag of a stopped one; what names a gang that is not resident
waits for its restoration (14 R357, R360; 15 R370, R373, R374). The model's own: log 19, DEDUCED (the live masks, the unnamed bytes and the reserved
bits of an image); log 20, DEDUCED (the PC an image shows of a chain that is to issue again); log 59, DEDUCED (a swap and a strand that is being
stopped or steps); log 60, DEDUCED (held requests are applied at the restart); log 61, DEDUCED (REJ is that of the last write); log 66, DEDUCED (a
restored strand has what the bytes of its slot say). -/
def Obligations.HostStopsAndResumes : Prop :=
  ∀ (s : State) (value : Nat), s.booted = true →
    let gslot := value % 2 ^ 16
    let index := value / 2 ^ 16 % 2 ^ 5
    let ctx := value / 2 ^ 24 % 2 ^ 6
    let step := value / 2 ^ 22 % 2
    (∀ mode i, mode = value / 2 ^ 21 % 2 ^ 2 → HrsmEvent mode value i →
      (gangAt s ctx gslot = none → exec i s = .next (withHrsm s 0x100000000)) ∧
      ∀ n g, gangAt s ctx gslot = some (n, g) → s.gang n = some g → value / 2 ^ 23 % 2 = 0 →
        (g.resident = false → index ∈ g.stopped → imgCheck (s.slotRead g (imageOff index) 16384) ((look g.saved index).getD {}) = none →
          ∃ t, exec i s = .next (withHrsm t 0) ∧ t = { s with gangs := t.gangs } ∧ OnlyGang s t n { g with held := g.held ++ [.resume index mode] }) ∧
        ∀ k st, g.resident = true → strandAt s n index = some (k, st) → s.strand k = some st → slotOf k < 384 →
          let bs := s.slotRead g (imageOff index) 16384
          let sv := (look g.saved index).getD {}
          let rec0 := imgRec bs 0
          let again := recMask rec0 &&& imgLive bs 0
          (st.mode ≠ .stopped → exec i s = .next (withHrsm s 0x100000000)) ∧
          (st.mode = .stopped → (imgCheck bs sv).isSome = true → exec i s = .next (withHrsm s 0x100000000)) ∧
          (st.mode = .stopped → imgCheck bs sv = none → PlainImage bs sv → st.stopReq = false → st.recov = none → ∃ t st', exec i s = .next (withHrsm t 0) ∧
            t.strand k = some st' ∧ (∀ j, j ≠ k → t.strand j = s.strand j) ∧ t.mem = s.mem ∧ OnlyGang s t n { g with saved := upd g.saved index none } ∧
            (mode < 2 → Restored bs st' ∧ st'.mode = .running ∧
              (mode = 1 ∧ reissues rec0 = true ∧ again ≠ 0 → st'.path0.pc = BitVec.ofNat 32 (fieldAt rec0 4 4) ∧ st'.path0.act = again ∧
                st'.path0.reissue = some { cont := imgPc bs 0, live := imgLive bs 0 }) ∧
              (mode = 0 ∨ reissues rec0 = false ∨ again = 0 → st'.path0.pc = imgPc bs 0 ∧ st'.path0.act = imgLive bs 0)) ∧
            (mode = 2 → imgLive bs 0 &&& ~~~recMask rec0 ≠ 0 → Restored bs st' ∧ st'.mode = .running ∧ st'.path0.pc = imgPc bs 0 ∧
              st'.path0.act = imgLive bs 0 &&& ~~~recMask rec0) ∧
            (mode = 3 → st'.mode = .exiting ∧ st'.killed = true ∧ st'.path0.act = 0))) ∧
    (gangAt s ctx gslot = none → exec (if step = 0 then .dstopStop value else .dstopStep value) s = .next (withDstop s 0x100000000)) ∧
    ∀ n g, gangAt s ctx gslot = some (n, g) → s.gang n = some g → value / 2 ^ 21 % 2 = 0 →
      (g.resident = true → (∀ x ∈ gangStrands s n, x.2.index ≠ index) → exec (if step = 0 then .dstopStop value else .dstopStep value) s = .next (withDstop s 0x100000000)) ∧
      (∀ k st, g.resident = true → (gangStrands s n).filter (fun x => x.2.index == index) = [(k, st)] → s.strand k = some st →
        (step = 0 → st.mode = .running → st.divided = false → st.path0.ended = false → st.path0.fault = none → ∃ t st', exec (.dstopStop value) s = .next (withDstop t 0) ∧
          t.strand k = some st' ∧ (∀ j, j ≠ k → t.strand j = s.strand j) ∧ t.mem = s.mem ∧ t.gangs = s.gangs ∧ st' = { st with
            mode := .stopping, stepping := none, path0 := { st.path0.rewind with run := none, fault := some { cause := 0, pc := st.path0.rewind.pc } } } ∧
          t.cur = if s.cur = some (k, 0) ∨ s.cur = some (k, 1) then none else s.cur) ∧
        (step = 1 → st.mode = .stopped → ∃ t, exec (.dstopStep value) s = .next (withDstop t 0) ∧ t = { s with strands := t.strands } ∧
          t.strand k = some { st with stepFlag := true } ∧ ∀ j, j ≠ k → t.strand j = s.strand j) ∧
        (step = 1 → st.mode = .running → exec (.dstopStep value) s = .next (withDstop s 0x100000000))) ∧
      (∀ sv, g.resident = false → (g.saved.filter fun x => x.1 == index) = [(index, sv)] →
        (step = 0 → ∃ t, exec (.dstopStop value) s = .next (withDstop t 0) ∧ t = { s with gangs := t.gangs } ∧ OnlyGang s t n { g with held := g.held ++ [.stop index] }) ∧
        (step = 1 → index ∈ g.stopped → ∃ t, exec (.dstopStep value) s = .next (withDstop t 0) ∧ t = { s with gangs := t.gangs } ∧
          OnlyGang s t n { g with held := g.held ++ [.step index] }))

/-- CTXCTL: a write while BUSY is dropped; a start reads the context record, is refused with VALID = 0, and tells every core the disabled regions; a
stop marks the context's gangs for swap and places none; a kill ends its strands and discards its records; each completes with DONE and interrupt kind
8 (14 R351, R357, R363). The model's own: log 12, DESIGN CHOICE (a start keeps the banks of an earlier one, else none is filled and bank 0 is active);
log 57, DEDUCED (a start tells every core the disabled regions); log 74, DEDUCED (a killed context stays stopped). -/
def Obligations.Contexts : Prop :=
  ∀ (s : State) (value : Nat), s.booted = true →
    let ctx := value % 2 ^ 6
    let base := s.win.ctxctl &&& ~~~(BitVec.ofNat 64 value &&& 0x600)
    let finished (u : State) (refused : Bool) : State := { u with pkg := { u.pkg with ctxOp := none, win := { u.win with ctxctl := ctxctlDone base refused } } }
    let busy (u t : State) (op : Nat) : Prop := t.win = { u.win with ctxctl := base ||| 0x100 } ∧ t.pkg.ctxOp = some (ctx, op) ∧
      (∀ c, u.ctx ctx = some c → t.ctx ctx = some { c with stopped := true }) ∧ ∀ x, x ≠ ctx → t.ctx x = u.ctx x
    (s.win.ctxctl.getLsbD 8 = true →
      exec (.ctxctlNone value) s = .next s ∧ exec (.ctxctlStop value) s = .next s ∧ exec (.ctxctlStart value) s = .next s ∧ exec (.ctxctlKill value) s = .next s) ∧
    (s.win.ctxctl.getLsbD 8 = false →
      (value / 2 ^ 6 % 2 ^ 2 = 0 → exec (.ctxctlNone value) s = .next ((finished s false).postInterrupt 8 ctx 0 0)) ∧
      (value / 2 ^ 6 % 2 ^ 2 = 1 → ∃ t, exec (.ctxctlStop value) s = .next t ∧ busy s t 1 ∧ (noneUnmatched s →
          t = { s with pkg := t.pkg, ctxs := t.ctxs, gangs := t.gangs, cores := t.cores }) ∧
        (noneUnmatched s → rising none s.strands = true → rising none s.gangs = true → (∀ x ∈ s.gangs, x.2.hdr.team = false) →
          Withdraws s t fun n => (s.gang n).any fun g => g.resident && g.task.ctx == ctx) ∧
        (noneUnmatched s → t.pkg = { s.pkg with ctxOp := t.pkg.ctxOp, win := t.pkg.win }) ∧
        (noneUnmatched s → (∀ x ∈ s.gangs, ∀ y ∈ s.gangs, x.2.launch = y.2.launch → x.2.task.ctx = y.2.task.ctx) →
          ∀ n g, s.gang n = some g → t.gang n = some { g with swap := g.swap || (g.resident && g.task.ctx == ctx) })) ∧
      (value / 2 ^ 6 % 2 ^ 2 = 2 →
        let bs := readAt s.mem (onyxKey 0 (s.win.ctxoff.toNat + 256 * ctx)) 256
        let old := (s.ctx ctx).getD {}
        (fieldAt bs 0 8 % 2 = 0 → exec (.ctxctlStart value) s = .next ((finished s true).postInterrupt 8 ctx 2 1)) ∧
        (fieldAt bs 0 8 % 2 = 1 → ∃ t : State, exec (.ctxctlStart value) s = .next (t.postInterrupt 8 ctx 2 0) ∧
          t = { finished s false with ctxs := t.ctxs, cores := t.cores } ∧ (∀ x, x ≠ ctx → t.ctx x = s.ctx x) ∧
          t.ctx ctx = some {
            stopped := false, logall := (fieldAt bs 0 8).testBit 1, otbase := fieldAt bs 8 8, otlen := fieldAt bs 16 8 % 2 ^ 25, ftarea := fieldAt bs 24 8, mdarea := fieldAt bs 32 8
            regarea := fieldAt bs 40 8, tspill := fieldAt bs 48 8, fqobj := fieldAt bs 56 3, gsobj := fieldAt bs 59 3, qstr := fieldAt bs 64 8 % 2 ^ 9
            qvreg := fieldAt bs 64 8 / 2 ^ 9 % 2 ^ 11, qscr := fieldAt bs 64 8 / 2 ^ 20 % 2 ^ 10, qlog := fieldAt bs 64 8 / 2 ^ 30 % 2 ^ 5, enarea := fieldAt bs 72 8
            podmap := BitVec.ofNat 16 (fieldAt bs 88 2), tactive := old.tactive, tfilled := old.tfilled, mactive := old.mactive, mfilled := old.mfilled } ∧
          ∀ c, t.core c = { s.core c with disabled := (t.core c).disabled } ∧ (∀ x, x.1 ≠ ctx → (x ∈ (t.core c).disabled ↔ x ∈ (s.core c).disabled)) ∧
            (c < 544 → ∀ r, (ctx, r) ∈ (t.core c).disabled ↔ r < 256 ∧ t.regionNat ctx r 56 8 / 2 % 2 = 1))) ∧
      (value / 2 ^ 6 % 2 ^ 2 = 3 → ((s.strands.filter fun x => s.ctxOf x.2 == ctx) = [] ∨
          ∃ k st, (s.strands.filter fun x => s.ctxOf x.2 == ctx) = [(k, st)] ∧ s.strand k = some st ∧ st.mode = .running ∧ st.recov = none) →
        (∀ q, ∀ r ∈ (s.quad q).queue, r.task.ctx = ctx → r.gang = none) → (∀ x ∈ s.pkg.spilled, x.2.task.ctx = ctx → x.2.gang = none) →
        ∃ t, exec (.ctxctlKill value) s = .next t ∧ t.pkg.ctxOp = some (ctx, 3) ∧ t.win.ctxctl = base ||| 0x100 ∧ (∀ c, t.ctx ctx = some c → c.stopped = true) ∧
          (∀ q, ∀ r ∈ (t.quad q).queue, r.task.ctx ≠ ctx) ∧ (∀ r ∈ t.pkg.port, r.task.ctx ≠ ctx) ∧ (∀ r ∈ t.pkg.overflow, r.task.ctx ≠ ctx) ∧ (∀ x ∈ t.pkg.spilled, x.1 ≠ ctx) ∧
          ∀ k st, s.strand k = some st → s.ctxOf st = ctx → ∃ st', t.strand k = some st' ∧ st'.mode = .exiting ∧ st'.killed = true ∧ st'.live = 0)) ∧
    ∀ id op, s.pkg.ctxOp = some (id, op) → s.win.ctxctl.getLsbD 8 = true →
      let ended (u : State) (n : Nat) : State := ({ u with pkg := { u.pkg with ctxOp := none, win := { u.win with ctxctl := ctxctlDone u.win.ctxctl false } } } : State).postInterrupt 8 id n 0
      (op = 1 → (∃ x ∈ s.gangs, x.2.task.ctx = id ∧ x.2.resident = true) → exec .ctxctlComplete s = .next s) ∧
      (op = 1 → (∀ x ∈ s.gangs, x.2.task.ctx = id → x.2.resident = false) → exec .ctxctlComplete s = .next (ended s 1)) ∧
      (op = 3 → ∀ u, u = s.discard id → (∀ x ∈ u.strands, u.ctxOf x.2 ≠ id) → (∀ x ∈ u.gangs, x.2.task.ctx ≠ id) → exec .ctxctlComplete s = .next (ended u 3))

/-- The host window: writes of a register by its access type, none before READY, of another size, misaligned or of an absent die; the aperture reads
and writes the system space; an interrupt record is posted when its kind and the ring are enabled, and goes to the ring, oldest first, with INTTAIL
one higher and its MSI-X vector signalled (00 R14; 13 R320; 15 R376, R377, R380; 16 R386 to R390, R395). The model's own: log 18, DESIGN CHOICE
(misaligned bits are stored as they are written); log 77, DEDUCED (what is ignored before READY, and what the sideband port answers); log 78, DEDUCED
(PEAK stores what is written). -/
def Obligations.HostWindow : Prop :=
  ∀ (s : State),
    (∀ off size value, s.booted = false ∨ size ≠ 8 ∨ off % 8 ≠ 0 → exec (.registerWrite off size value) s = .next s) ∧
    (s.booted = true → ∀ value, value < 2 ^ 64 →
      let v : Dword := BitVec.ofNat 64 value
      let w := s.win
      let puts (off : Nat) (w' : Window) : Prop := exec (.registerWrite off 8 value) s = .next (withWin s w')
      (∀ off, off = 0 ∨ off = 8 ∨ off = 0xB8 ∨ off = 0x118 → exec (.registerWrite off 8 value) s = .next s) ∧
      puts 0x10 { w with ctxoff := (w.ctxoff &&& 0xFFFFFFFF00000000) ||| (v &&& 0xFFFFFFFF) } ∧ puts 0x18 { w with plceil := (w.plceil &&& 0xFFFFFFFFFFFFFF00) ||| (v &&& 0xFF) } ∧
      puts 0x20 { w with pwrctl := (w.pwrctl &&& 0xFFFFFFFFFFFFF000) ||| BitVec.ofNat 64 (max 1000 (min 3400 (value % 2 ^ 12))) } ∧
      puts 0x38 { w with stealctl := (w.stealctl &&& 0xFFFFFFFFFFFFFFC0) ||| BitVec.ofNat 64 (max 8 (value % 2 ^ 5) + 32 * (value / 2 ^ 5 % 2)) } ∧
      puts 0xB0 { w with opstat := w.opstat &&& ~~~(v &&& 0x1E) } ∧
      puts 0xC0 { w with rpctl := (w.rpctl &&& 0xFFFFFFFFFC00FFE0) ||| BitVec.ofNat 64 (max 10 (min 30 (value % 2 ^ 5)) + 2 ^ 16 * (value / 2 ^ 16 % 2 ^ 10)) } ∧
      ((∀ d ∈ s.dieSet, (s.die d).errors = []) → puts 0x30 { w with rascfg := (w.rascfg &&& 0xFFFFFFFFFFFE0000) ||| (v &&& 0x1FFFF) }) ∧
      puts 0x80 { w with tkstat := (w.tkstat &&& 0xFFFFFFFF00000000) ||| (v &&& 0xFFFFFFFF) } ∧ puts 0xC8 { w with rstoff := (w.rstoff &&& 0xFFFF000000000000) ||| (v &&& 0xFFFFFFFFFFFF) } ∧
      puts 0xD0 { w with rpstat := (w.rpstat &&& 0xFFFF00000000FFFF) ||| (v &&& 0xFFFFFFFF0000) } ∧
      puts 0xE8 { w with enstat := (w.enstat &&& 0xFFFFFFFFFF000000) ||| (v &&& 0xFFFFFF) } ∧
      puts 0x108 { w with intcfg := (w.intcfg &&& 0xFFFF000000000000) ||| (v &&& 0xFFFFFFFFFFFF) } ∧
      puts 0xD8 { w with enwt0 := v } ∧ puts 0xE0 { w with enwt1 := v } ∧ puts 0x100 { w with intbase := v } ∧ puts 0x110 { w with inthead := v } ∧ puts 0x120 { w with apbase := v } ∧
      (∀ d, d < 4 → s.diePresent d = true →
        let die (off : Nat) (x : Die) : Prop := ∃ t, exec (.registerWrite (0x200 + 64 * d + off) 8 value) s = .next t ∧ t = { s with dies := t.dies } ∧
          t.die d = x ∧ ∀ y, y ≠ d → t.die y = s.die y
        die 0 { s.die d with tqcfg := v } ∧ die 8 { s.die d with trctl := ((s.die d).trctl &&& 0xFFFFFFFFFFFE0000) ||| (v &&& 0x1FFFF) } ∧
        die 16 { s.die d with trbase := v } ∧ die 24 { s.die d with trlen := v } ∧ die 32 { s.die d with trhead := v } ∧
        (∃ t, exec (.registerWrite (0x200 + 64 * d + 40) 8 value) s = .next t ∧ t = { s with dies := t.dies, cores := t.cores } ∧ (∀ y, y ≠ d → t.die y = s.die y) ∧
          t.die d = { s.die d with lantern := ((s.die d).lantern &&& 0xFFF0000000000000) ||| (v &&& 0xFFFFFFFFFFFFF) } ∧
          ∀ c, t.core c = if c / 136 = d ∧ (s.die d).lantern.toNat % 2 ≠ value % 2 then { s.core c with lantern := 0 } else s.core c) ∧
        (∀ q, q < 34 → ∃ t, exec (.registerWrite (0x1000 + 8 * (34 * d + q)) 8 value) s = .next t ∧ t = { s with quads := t.quads } ∧
          OnlyQuad s t (34 * d + q) { s.quad (34 * d + q) with peak := BitVec.ofNat 8 (value / 2 ^ 24) }) ∧
        ∀ c, c < 136 →
          let n := 136 * d + c
          let one (off : Nat) (x : Core) : Prop := ∃ t, exec (.registerWrite (0x100000 + 512 * n + off) 8 value) s = .next t ∧ t = { s with cores := t.cores } ∧
            t.core n = { x with ibp := (t.core n).ibp, wp := (t.core n).wp } ∧ (∀ i, rd 0 (t.core n).ibp i = if off = 8 * i ∧ i < 8 then v &&& 0xBFFFFFFFFFFFFFFF else rd 0 x.ibp i) ∧
            (∀ i, rd {} (t.core n).wp i = if off = 64 + 32 * i ∧ i < 4 then { rd {} x.wp i with addr := v }
              else if off = 72 + 32 * i ∧ i < 4 then { rd {} x.wp i with value := v } else if off = 80 + 32 * i ∧ i < 4 then { rd {} x.wp i with vmask := v } else if off = 88 + 32 * i ∧ i < 4 then { rd {} x.wp i with ctl := v &&& 0x7FFF } else rd {} x.wp i) ∧
            ∀ m, m ≠ n → t.core m = s.core m
          (∀ i, i < 8 → one (8 * i) (s.core n)) ∧ (∀ i, i < 4 → one (64 + 32 * i) (s.core n) ∧ one (72 + 32 * i) (s.core n) ∧ one (80 + 32 * i) (s.core n) ∧ one (88 + 32 * i) (s.core n)) ∧
          one 192 { s.core n with dbgctl := v &&& 7 } ∧ one 200 { s.core n with dbgstat := (s.core n).dbgstat &&& ~~~v } ∧ one 208 { s.core n with evc0 := v } ∧ one 216 { s.core n with evc1 := v &&& 0xFFFFFFFF }) ∧
      (∀ d off, d < 4 → s.diePresent d = false → off < 8 → exec (.registerWrite (0x200 + 64 * d + 8 * off) 8 value) s = .next s)) ∧
    (∀ addr size data, addr + size ≤ 2 ^ 36 →
      let gives (bs : List Byte) : Prop := exec (.apertureAccess 0 addr size data) s = .next { s with pkg := { s.pkg with hostData := bs } }
      let first := s.win.apbase.toNat + addr
      (s.booted = false → gives (List.replicate size 0) ∧ exec (.apertureAccess 1 addr size data) s = .next s) ∧
      (s.booted = true → first + size ≤ spaceSize s s.sysPlace → gives ((List.range size).map fun i => readByte s.mem (s.sysKey (first + i)))) ∧
      (s.booted = true → spaceSize s s.sysPlace ≤ first → gives (List.replicate size 0)) ∧
      (s.booted = true → s.win.apbase.toNat + addr + size ≤ spaceSize s s.sysPlace → spread s (s.win.apbase.toNat + addr) size →
        ∃ t, exec (.apertureAccess 1 addr size data) s = .next t ∧ t = { s with mem := t.mem } ∧ t.sysNat (s.win.apbase.toNat + addr) size = data % 2 ^ (8 * size) ∧
          OnlyBytes s t (sysKeys s (s.win.apbase.toNat + addr) size))) ∧
    (∀ kind ctx info data, kind < 16 →
      let cap := s.win.intcfg.toNat % 2 ^ 16
      (s.win.intcfg.getLsbD (16 + kind) = false ∨ cap = 0 → s.postInterrupt kind ctx info data = s) ∧
      (s.win.intcfg.getLsbD (16 + kind) = true → 0 < cap → s.pkg.intWait.length < 256 → s.postInterrupt kind ctx info data =
        { s with pkg := { s.pkg with intWait := s.pkg.intWait ++ [interruptRecord kind ctx info data (dieCycle 0 s.now)] } })) ∧
    ∀ r rest, s.pkg.intWait = r :: rest → r.length = 32 → 0 < s.win.intcfg.toNat % 2 ^ 16 → (s.win.inttail - s.win.inthead).toNat < s.win.intcfg.toNat % 2 ^ 16 →
      let ks := (List.range 32).map fun i => hostKey (s.win.intbase.toNat + 32 * (s.win.inttail.toNat % (s.win.intcfg.toNat % 2 ^ 16)) + i)
      let kind := (r.getD 0 0).toNat
      let vector := if kind = 6 ∨ kind = 7 then 64 else (r.getD 1 0).toNat % 64
      ∃ t, exec .interruptRecordAppend s = .next t ∧
        t = { s with mem := t.mem, pkg := { s.pkg with intWait := rest, win := { s.win with inttail := s.win.inttail + 1 }, signals := t.pkg.signals } } ∧
        (∀ n, rd 0 t.pkg.signals n = rd 0 s.pkg.signals n + if n = vector then 1 else 0) ∧
        BytesAre t ks r ∧ OnlyBytes s t ks

/-- Clocks, power and sensors: a write of RATE takes an allowed rate, announced ahead unless the clock is held at rate 2 by heat; the announced change
takes effect at its cycle; the power manager gates a greater share above LIMIT and a smaller one 50 W below it; a reading of 125 °C begins a hold,
which ends after 2^20 die cycles below 110 °C (16 R395, R396). The model's own: log 10, DESIGN CHOICE (which values are free); log 76, DEDUCED (DUTY
is truncated). -/
def Obligations.ClocksAndSensors : Prop :=
  ∀ (s : State),
    let held := s.win.clkctl.getLsbD 4
    let rated (r : Nat) : State := withWin s { s.win with clkctl := (s.win.clkctl &&& 0xFFFFFFFFFFFFFFFC) ||| BitVec.ofNat 64 r }
    (∀ value, s.booted = true →
      (value % 4 = 3 → exec (.clkctlRateWrite value) s = .next s) ∧
      (value % 4 ≠ 3 → (held = true ∨ comingRate s = value % 4 → exec (.clkctlRateWrite value) s = .next (rated (value % 4))) ∧
        (held = false → comingRate s ≠ value % 4 → ∃ t, exec (.clkctlRateWrite value) s = .next t ∧ Announced (rated (value % 4)) t (value % 4)))) ∧
    (∀ r c rest, s.pkg.clockAt = (r, c) :: rest →
      (dieCycle 0 s.now < c → exec .clockChangeEffective s = .next s) ∧
      (c ≤ dieCycle 0 s.now → r < 4 → exec .clockChangeEffective s = .next { s with pkg := { s.pkg with
        clockAt := rest, win := { s.win with clkctl := (s.win.clkctl &&& 0xFFFFFFFFFFFFFFF3) ||| BitVec.ofNat 64 (4 * r) } } })) ∧
    (∀ watts, watts < 4096 → s.pkg.gated ≤ 960 →
      let limit := s.win.pwrctl.toNat % 2 ^ 12
      ∃ t, exec (.powerWindow watts) s = .next t ∧ t = { s with pkg := { s.pkg with gated := t.pkg.gated, win := { s.win with pwrctl := t.win.pwrctl } } } ∧
        t.pkg.gated = (if limit < watts then min (s.pkg.gated + 32) 960 else if watts + 50 ≤ limit then s.pkg.gated - 8 else s.pkg.gated) ∧
        t.win.pwrctl.toNat % 2 ^ 12 = limit ∧ t.win.pwrctl.toNat / 2 ^ 16 % 2 ^ 12 = watts ∧ t.win.pwrctl.toNat / 2 ^ 32 % 2 ^ 10 = s.pkg.gated * 1000 / 1024) ∧
    (∀ quad tcd tbd, tcd < 256 → tbd < 256 →
      (s.diePresent (quad / 34) = false → exec (.sensorSample quad tcd tbd) s = .next s) ∧
      (s.diePresent (quad / 34) = true → ∃ u, OnlyQuad s u quad { s.quad quad with
          tcd := BitVec.ofNat 8 tcd, tbd := BitVec.ofNat 8 tbd, peak := BitVec.ofNat 8 (max (s.quad quad).peak.toNat (max tcd tbd)) } ∧
        u = { s with quads := u.quads, pkg := { s.pkg with coolFrom := u.pkg.coolFrom } } ∧
        ((∃ q, s.diePresent (q / 34) = true ∧ q / 34 < 4 ∧ 110 ≤ u.reading q) → u.pkg.coolFrom = none) ∧
        ((∀ q, s.diePresent (q / 34) = true → q / 34 < 4 → u.reading q < 110) → u.pkg.coolFrom = some (s.pkg.coolFrom.getD (dieCycle 0 s.now))) ∧
        (max tcd tbd < 125 ∨ held = true → exec (.sensorSample quad tcd tbd) s = .next u) ∧
        (125 ≤ max tcd tbd → held = false →
          let v := withWin u { s.win with clkctl := s.win.clkctl ||| 0x10 }
          (comingRate s = 2 → exec (.sensorSample quad tcd tbd) s = .next v) ∧
          (comingRate s ≠ 2 → ∃ t, exec (.sensorSample quad tcd tbd) s = .next t ∧ Announced v t 2)))) ∧
    ∀ c, s.pkg.coolFrom = some c →
      (held = false ∨ dieCycle 0 s.now < c + 2 ^ 20 → exec .thermalHoldEnd s = .next s) ∧
      (held = true → c + 2 ^ 20 ≤ dieCycle 0 s.now →
        let v := withWin s { s.win with clkctl := s.win.clkctl &&& 0xFFFFFFFFFFFFFFEF }
        (comingRate s = s.win.clkctl.toNat % 4 → exec .thermalHoldEnd s = .next v) ∧
        (comingRate s ≠ s.win.clkctl.toNat % 4 → ∃ t, exec .thermalHoldEnd s = .next t ∧ Announced v t (s.win.clkctl.toNat % 4)))

/-- Boot: a reset of a part without failures ends READY with every die, stack, link and port, everything at its reset value but host memory, the log,
the boot count and the spare rows in use; one whose images both fail halts at step 1; a row of Onyx that fails is replaced while its bank has spares,
else its die is fenced; BOOTCLR takes its marks out of the log, of step 8 the unit's, which returns to use, and with RST resets; attestation takes one
command at a time and writes its report, with the nonce and the image of its command; the sideband port reads its registers and writes the mailbox
alone, in every state (14 R369; 16 R386, R391 to R394, R397, R398). The model's own: log 4, DESIGN CHOICE (where boot and ECC fail); log 9, DESIGN
CHOICE (the reset values the spec does not give); log 13, DESIGN CHOICE (what a report signs, and the nonce of its command); log 17, PRESUMED (the
images are units 0 and 1 of step 1, and the ports are numbered by die); log 75, DESIGN CHOICE (boot is one step); log 77, DEDUCED (what is ignored
before READY, and what the sideband port answers); log 109, DESIGN CHOICE (rows that boot replaces). -/
def Obligations.BootAndAttestation : Prop :=
  ∀ (s : State),
    let no := s.pkg.boots + 1
    let fresh (p : Pkg) : State := { mem := s.mem.filter fun c => isHost c.1, phys := s.phys, schedule := s.schedule, nextId := s.nextId, free := s.free, pkg := p }
    let ended := s.win.bootstat.toNat % 4 ≠ 0
    (s.phys.bootFails = [] → s.phys.part470 = false → (∀ e ∈ s.pkg.bootLog, e.result ≠ 1 ∧ e.step ≠ 8) → ∃ log, exec .packageReset s = .next (fresh {
      bootLog := log, boots := no, spared := s.pkg.spared, ports := List.range 18
      win := { caps := 0x3FCBFFFFF0, bootstat := BitVec.ofNat 64 (1 + 7 * 2 ^ 8 + no % 2 ^ 24 * 2 ^ 16) } })) ∧
    ((1, 0) ∈ s.phys.bootFails → (1, 1) ∈ s.phys.bootFails → ∃ log, exec .packageReset s = .next (fresh {
      bootLog := log, boots := no, spared := s.pkg.spared, win := { bootstat := BitVec.ofNat 64 (2 + 2 ^ 8 + no % 2 ^ 24 * 2 ^ 16) } })) ∧
    (∀ d, d < 4 → s.phys.bootFails = [(4, d)] → s.phys.part470 = false → (∀ e ∈ s.pkg.bootLog, e.result ≠ 1 ∧ e.step ≠ 8) →
      let bank := 3 * 2 ^ 32 + Config.failedBank d 0
      let left := rd 0 s.pkg.spared bank < Config.spareRows 3 (Config.failedBank d 0)
      (left → ∃ log spared, exec .packageReset s = .next { fresh {
          bootLog := log, boots := no, spared, ports := List.range 18
          win := { caps := 0x3FCBFFFFF0, bootstat := BitVec.ofNat 64 (1 + 7 * 2 ^ 8 + no % 2 ^ 24 * 2 ^ 16) } } with phys := { s.phys with bootFails := [] } } ∧
        ∀ k, rd 0 spared k = rd 0 s.pkg.spared k + if k = bank then 1 else 0) ∧
      (¬ left → ∃ t, exec .packageReset s = .next t ∧ t.phys = s.phys ∧ (2 ≤ d → t.dieSet = [0, 1]) ∧ (d = 1 → t.dieSet = [0]) ∧
        (d = 0 → t.win.bootstat.toNat % 2 ^ 16 = 2 + 7 * 2 ^ 8))) ∧
    ((¬ ended → ∀ value, exec (.bootclrClear value) s = .next s ∧ exec (.bootclrReset value) s = .next s) ∧
      (ended → ∀ value, value % 2 ^ 8 ≠ 8 →
        (value / 2 ^ 63 % 2 = 0 → exec (.bootclrClear value) s = .next { s with pkg := { s.pkg with bootLog := s.pkg.bootLog.filter fun e =>
          !(decide (e.step = value % 2 ^ 8) && decide (e.unit = value / 2 ^ 8 % 2 ^ 8) && decide (e.result = 1)) } })) ∧
      (ended → ∀ value, value % 2 ^ 8 = 8 → value / 2 ^ 63 % 2 = 0 →
        let cls := value / 2 ^ 8 % 2 ^ 8
        let unit := value / 2 ^ 16 % 2 ^ 32
        let hit (e : BootEntry) : Bool := decide (e.step = 8) && decide (e.unit = cls) && decide (e.detail = unit)
        let rest : Pkg := { s.pkg with bootLog := s.pkg.bootLog.filter fun e => !hit e, excluded := s.pkg.excluded.filter (· != (cls, unit)) }
        let port : Prop := cls = 6 ∧ 4 ≤ unit ∧ unit - 4 ∈ s.pkg.badPorts ∧ unit - 4 ∈ s.pkg.ports
        ((∀ e ∈ s.pkg.bootLog, hit e = false) → exec (.bootclrClear value) s = .next s) ∧
        ((∃ e ∈ s.pkg.bootLog, hit e = true) → (¬ port → exec (.bootclrClear value) s = .next { s with pkg := rest }) ∧
          (port → s.caps / 2 ^ 26 % 2 ^ 5 < 31 → exec (.bootclrClear value) s = .next { s with pkg := { rest with
            badPorts := s.pkg.badPorts.filter (· != unit - 4), win := { s.win with caps := s.win.caps + (1#64 <<< 26) } } }))) ∧
      (ended → ∀ value,
        (value / 2 ^ 63 % 2 = 1 → ∃ t, exec (.bootclrClear (value - 2 ^ 63)) s = .next t ∧ exec (.bootclrReset value) s = .next t.boot))) ∧
    (∀ i value, value % 2 = 1 → (s.booted = true ∧ i = .attestRequest value) ∨ (value < 2 ^ 64 ∧ i = .sidebandRequest 0x3000 1 value) →
      (s.pkg.attCtl.getLsbD 2 = true → exec i s = .next s) ∧
      (s.pkg.attCtl.getLsbD 2 = false → exec i s = .next { s with pkg := { s.pkg with
        attCtl := (s.pkg.attCtl &&& ~~~(BitVec.ofNat 64 value &&& 2)) ||| 4, attTaken := s.pkg.attNonce } })) ∧
    (s.booted = false → ∀ value, exec (.attestRequest value) s = .next s) ∧
    (s.pkg.attCtl.getLsbD 2 = true → ∃ sig : BitVec 768, exec .attestDone s = .next { s with free := s.free + 1, pkg := { s.pkg with
      attCtl := (s.pkg.attCtl &&& 0xFFFFFFFFFFFFFFFB) ||| 2
      attReport := leBytes 8 1 ++ leBytes 8 s.win.caps.toNat ++ leBytes 8 s.win.bootstat.toNat ++ leBytes 48 s.pkg.attTaken.toNat ++
        leBytes 48 (Config.firmwareMeasure s.pkg.image).toNat ++
        sha384 (((s.pkg.bootLog.flatMap fun (e : BootEntry) => leBytes 16 e.word.toNat) ++ List.replicate 1024 0).take 1024) ++ leBytes 96 sig.toNat } }) ∧
    (∀ value, value < 2 ^ 64 → ∃ t, exec (.sidebandRequest 0x3008 1 value) s = .next t ∧ t = { s with pkg := { s.pkg with attNonce := t.pkg.attNonce } } ∧
      t.pkg.attNonce.toNat % 2 ^ 64 = value ∧ t.pkg.attNonce.toNat / 2 ^ 64 = s.pkg.attNonce.toNat / 2 ^ 64) ∧
    (∀ off value, (off < 0x3000 ∨ 0x4000 ≤ off) → ∀ w, w ≠ 0 → exec (.sidebandRequest off w value) s = .next s) ∧
    (∀ off value, exec (.sidebandRequest off 0 value) s = .next { s with pkg := { s.pkg with sideData := leBytes 8 (sidebandRead s off) } }) ∧
    sidebandRead s 0 = s.win.caps.toNat ∧ sidebandRead s 8 = s.win.bootstat.toNat ∧ sidebandRead s 0x20 = s.win.pwrctl.toNat ∧ sidebandRead s 0x28 = s.win.clkctl.toNat ∧
    (∀ q, q < 136 → s.diePresent (q / 34) = true → sidebandRead s (0x1000 + 8 * q) = (s.quad q).therm) ∧
    ∀ off, off ∉ [0, 8, 0x20, 0x28] → (off < 0x1000 ∨ (0x1440 ≤ off ∧ off < 0x2000) ∨ 0x4000 ≤ off) → sidebandRead s off = 0

/-- Every well-formed instruction has one word of encoding version 3 and that word decodes to it, with every operand at every value its field admits;
and a word that decodes is the word of the well-formed instruction it decodes to: no bit of it is dropped (06 R132, R143). -/
def Obligations.DecodeEncode : Prop :=
  (∀ i : Instr, i.wf = true → ∃ w, encode i = some w ∧ decode 3 w = .ok i) ∧
  ∀ (w : BitVec 32) (i : Instr), decode 3 w = .ok i → i.wf = true ∧ encode i = some w

/-- Words written out from the encodings of 06: one of each format in version 3, one whose load offset version 1 places elsewhere, one whose major
version 2 places elsewhere, the zero word, a reserved major, a reserved function code and an unused field that is not zero (06 R132, R143, R146,
R148). -/
def Obligations.DecodeWords : Prop :=
  decode 3 0x00018405 = .ok (.iadd 0 3 4 2 1) ∧
  decode 3 0x8A00A1FF = .error .unusedField ∧
  decode 3 0x0A0500FE = .ok (.movi 0 10 254) ∧
  decode 3 0x4105061F = .ok (.ldG 0 2 5 3 1 15 0) ∧
  decode 3 0x4C508105 = .ok (.atom 0 5 4 4 0 5) ∧
  decode 3 0xE6500000 = .ok (.exit 1) ∧
  decode 3 0x64FFFFFF = .ok (.brc 0 7 1048575) ∧
  decode 3 0x7E000005 = .ok (.hintWide 5) ∧
  decode 3 0xFE000005 = .error .hintBoundary ∧
  decode 3 0x00000000 = .error .zeroWord ∧
  decode 3 0x60000000 = .error .reservedMajor ∧
  decode 3 0x67F00000 = .error .reservedFunction ∧
  decode 2 0x62000000 = .ok (.mma 0 0 0 0 0 0 0) ∧
  decode 2 0x5E000000 = .error .reservedMajor ∧
  decode 1 0x41050601 = .ok (.ldG 0 2 5 3 1 15 0) ∧
  decode 1 0x410507E1 = .ok (.ldG 0 2 5 3 1 15 15)

/-- A step runs what it comes to: the event at the head of the schedule, or, of the path whose lane issues, the instruction that the word at its PC
decodes to; time passes. A word that cannot be fetched stops the strand with the cause of the failing check, a word that is no instruction with that
of its decoding (06 R146, R147; 12 R284, R290; 15 R380; 16 R396; log 3, DESIGN CHOICE). The model's own: log 1, DESIGN CHOICE (a step is at least one
die cycle); log 3, DESIGN CHOICE (which step comes next, and a step that is not enabled leaves the state as it is); log 79, DESIGN CHOICE (which
cycles are gated); log 82, DEDUCED (a path's age is dated in steps). -/
def Obligations.StepRuns : Prop :=
  ∀ (s : State),
    (∀ i rest t, s.schedule = .event i :: rest → exec i { s with schedule := rest } = .next t → step s = .next (passed t)) ∧
    (∀ k pi rest, s.schedule = .issue k pi :: rest →
      let u : State := { s with schedule := rest, cur := some (k, pi) }
      ∀ i t, nextWord u = .word i → exec i u = .next t → step s = .next (passed t)) ∧
    (∀ e r st, s.schedule = [] → envOf (.nop 0) s = some (e, r) → s.strand e.k = some st →
      (s.gatedNow e.core = true → step s = .next (passed { s with cur := none })) ∧
      (s.gatedNow e.core = false →
        (∀ f, fetchWord s e.core e.g e.pc = .error f → e.gate r s = none → ∃ t st', step s = .next (passed t) ∧
          Stops (s.charge e.core e.ctx 2 e.p.chainLen) t e
            { cause := f.cause, qual := f.qual, emask := e.p.act, whole := true, pc := e.pc, addr := codeAddr e.g e.pc } e.after false st st') ∧
        ∀ w, fetchWord s e.core e.g e.pc = .ok w →
          (∀ i t, decode e.g.hdr.version w = .ok i → exec i s = .next t → step s = .next (passed t)) ∧
          ∀ x, decode e.g.hdr.version w = .error x → e.gate r s = none → ∃ t st', step s = .next (passed t) ∧
            Stops (s.charge e.core e.ctx 2 e.len) t e (wholeFault e x.cause 0 0) e.after false st st')) ∧
    ∀ core g (pc : Word), let addr := g.task.entry / 2 ^ 40 * 2 ^ 40 + pc.toNat
      (∀ f, translate s (coreDie core) g.task.ctx addr 4 .read = .error f → fetchWord s core g pc = .error f) ∧
      ∀ l, translate s (coreDie core) g.task.ctx addr 4 .read = .ok l →
        let c := s.readCause (coreDie core) (memKeys l.bytes)
        (c = 0 → fetchWord s core g pc = .ok (bytesWord (l.bytes.map (Src.read s.mem)))) ∧
        (c ≠ 0 → ∃ f, fetchWord s core g pc = .error f ∧ f.cause = c)

/-- Nothing is refused: every step of a unit answers a next state in every state, and every instruction with a word does for the path whose lane
issues. The model's own: log 3, DESIGN CHOICE (which step comes next, and a step that is not enabled leaves the state as it is). -/
def Obligations.NothingRefused : Prop :=
  ∀ (i : Instr) (s : State), (encode i = none ∨ (envOf i s).isSome = true) → ∃ t, exec i s = .next t

/-- What the spec gives the machine at reset: the host window's registers, those of each die and of each core, and predicates, registers and rounding
of a strand that starts (05 R98, R104; 12 R303; 13 R324; 14 R365, R369; 15 R377, R379, R380, R383; 16 R388, R395, R396). Memory lists nothing, in its
canonical form, and reads zero (log 2, DESIGN CHOICE). The model's own: log 2, DESIGN CHOICE (unwritten bytes read zero). -/
def Obligations.ResetValues : Prop :=
  let s := State.reset
  let w := s.win
  (w.caps.toNat / 2 ^ 35 % 2 ^ 3 = 7 ∧ w.bootstat.toNat % 2 ^ 16 = 0 ∧ w.plceil = 95 ∧ w.pwrctl.toNat % 2 ^ 12 = 3400 ∧ w.clkctl = 0 ∧ w.rascfg = 0x10100 ∧ w.stealctl = 48 ∧ w.tkstat = 0) ∧
  (w.ctxctl = 0 ∧ w.opstat = 0 ∧ w.rpctl = 20 ∧ w.rstoff = 0 ∧ w.rpstat = 0) ∧
  (w.enwt0 = 24 + 40 * 2 ^ 16 + 4 * 2 ^ 32 + 64 * 2 ^ 48 ∧ w.enwt1 = 12 + 10 * 2 ^ 16 + 30 * 2 ^ 32 + 700 * 2 ^ 48 ∧ w.enstat = 0) ∧
  (w.intbase = 0 ∧ w.intcfg = 0xFFFF0000 ∧ w.inthead = 0 ∧ w.inttail = 0) ∧
  (∀ d, (s.die d).trctl = 0x103FC ∧ (s.die d).trbase = 0 ∧ (s.die d).trlen = 0 ∧ (s.die d).trhead = 0 ∧ (s.die d).lantern = 20 ∧ (s.die d).tqcfg = 0) ∧
  (∀ c, (s.core c).dbgctl = 3 ∧ (s.core c).dbgstat = 0 ∧ (s.core c).evc0 = 0 ∧ (s.core c).evc1 = 0 ∧ (∀ n, rd 0 (s.core c).ibp n = 0) ∧ ∀ n, rd {} (s.core c).wp n = { ctl := 3 }) ∧
  (∀ q, (s.quad q).queue = [] ∧ (s.quad q).peak = 0) ∧
  (∀ k, s.strand k = none ∧ s.gang k = none ∧ s.op k = none ∧ s.ctx k = none ∧ s.bar k = {}) ∧
  (let st : Strand := {}
   (∀ r t, st.vreg r t = 0) ∧ (∀ r, st.sreg r = 0) ∧ (∀ p, p ≠ 0 → st.pmask p = 0) ∧ st.acc 0 = (0, 0) ∧ st.acc 1 = (0, 0) ∧ st.path0.nfr = 0x13000000) ∧
  Memory.wf s.mem ∧ ∀ a, readByte s.mem a = 0

/-- Every step keeps memory in its canonical form: addresses strictly rising, no byte listed that reads as an unlisted one does (log 2, DESIGN
CHOICE). The model's own: log 2, DESIGN CHOICE (unwritten bytes read zero). -/
def Obligations.StepKeepsMemory : Prop := ∀ s t : State, Memory.wf s.mem → step s = .next t → Memory.wf t.mem
end

