-- ==== Sys2Proof/Laws/Maps.lean ====
section
/-!
SUPPORT. Sys2Proof/Laws/Maps.lean: what reading and writing a table do to each other, and that writing keeps the canonical form;
the same for bytes of memory.
-/

namespace Sys2Proof.Machine

variable {α : Type}

@[simp] theorem look_put_same (m : Tab α) (a : Nat) (v : α) : look (put m a v) a = some v := by
  induction m with
  | nil => simp [put, look]
  | cons e m ih =>
    obtain ⟨k, w⟩ := e
    by_cases h1 : a < k
    · simp [put, h1, look]
    · by_cases h2 : a = k
      · simp [put, h2, look]
      · simp [put, h1, h2, look, ih]

theorem look_put_other (m : Tab α) {a b : Nat} (v : α) (h : b ≠ a) : look (put m a v) b = look m b := by
  induction m with
  | nil => simp [put, look, h]
  | cons e m ih =>
    obtain ⟨k, w⟩ := e
    by_cases h1 : a < k
    · simp [put, h1, look, h]
    · by_cases h2 : a = k
      · subst h2; simp [put, look, h]
      · by_cases h3 : b = k <;> simp [put, h1, h2, look, ih, h3]

@[simp] theorem look_cut_same (m : Tab α) (a : Nat) : look (cut m a) a = none := by
  induction m with
  | nil => rfl
  | cons e m ih => obtain ⟨k, w⟩ := e; by_cases h : a = k <;> simp [cut, look, h, ih]; simp [← h, ih]

theorem look_cut_other (m : Tab α) {a b : Nat} (h : b ≠ a) : look (cut m a) b = look m b := by
  induction m with
  | nil => rfl
  | cons e m ih =>
    obtain ⟨k, w⟩ := e
    by_cases h1 : a = k
    · subst h1; simp [cut, look, ih, h]
    · by_cases h2 : b = k <;> simp [cut, look, h1, h2, ih]

@[simp] theorem look_upd_same (m : Tab α) (a : Nat) (o : Option α) : look (upd m a o) a = o := by
  cases o <;> simp [upd]

theorem look_upd_other (m : Tab α) {a b : Nat} (o : Option α) (h : b ≠ a) : look (upd m a o) b = look m b := by
  cases o <;> simp [upd, look_put_other, look_cut_other, h]

theorem look_upd (m : Tab α) (a b : Nat) (o : Option α) : look (upd m a o) b = if b = a then o else look m b := by
  by_cases h : b = a
  · subst h; simp
  · simp [look_upd_other m o h, h]

/-- A table with a default reads back what was written, and nothing else changes. -/
theorem rd_wr [DecidableEq α] (d : α) (m : Tab α) (a b : Nat) (v : α) : rd d (wr d m a v) b = if b = a then v else rd d m b := by
  unfold rd wr
  rw [look_upd]
  by_cases h : b = a <;> by_cases h' : v = d <;> simp [h, h']

@[simp] theorem rd_wr_same [DecidableEq α] (d : α) (m : Tab α) (a : Nat) (v : α) : rd d (wr d m a v) a = v := by simp [rd_wr]

theorem rising_weaken (m : Tab α) {a b : Nat} (h : a ≤ b) (hm : rising (some b) m = true) : rising (some a) m = true := by
  cases m with
  | nil => rfl
  | cons e m =>
    obtain ⟨k, w⟩ := e
    simp only [rising, Bool.and_eq_true, decide_eq_true_eq] at hm ⊢
    exact ⟨by omega, hm.2⟩

theorem rising_none (m : Tab α) {a : Nat} (hm : rising (some a) m = true) : rising none m = true := by
  cases m with
  | nil => rfl
  | cons e m =>
    obtain ⟨k, w⟩ := e
    simp only [rising, Bool.and_eq_true, decide_eq_true_eq] at hm ⊢
    exact hm.2

theorem rising_put_above (m : Tab α) {lo a : Nat} (v : α) (h : lo < a) (hm : rising (some lo) m = true) :
    rising (some lo) (put m a v) = true := by
  induction m generalizing lo with
  | nil => simp [put, rising, h]
  | cons e m ih =>
    obtain ⟨k, w⟩ := e
    simp only [rising, Bool.and_eq_true, decide_eq_true_eq] at hm
    by_cases h1 : a < k
    · simp [put, h1, rising, h, hm.2]
    · by_cases h2 : a = k
      · subst h2; simp [put, rising, h, hm.2]
      · simp [put, h1, h2, rising, hm.1]; exact ih (by omega) hm.2

theorem rising_put (m : Tab α) (a : Nat) (v : α) (hm : rising none m = true) : rising none (put m a v) = true := by
  cases m with
  | nil => rfl
  | cons e m =>
    obtain ⟨k, w⟩ := e
    simp only [rising] at hm
    by_cases h1 : a < k
    · simp [put, h1, rising, hm]
    · by_cases h2 : a = k
      · subst h2; simp [put, rising, hm]
      · simp [put, h1, h2, rising]; exact rising_put_above m v (by omega) hm

theorem rising_cut_above (m : Tab α) (a : Nat) {lo : Nat} (hm : rising (some lo) m = true) : rising (some lo) (cut m a) = true := by
  induction m generalizing lo with
  | nil => rfl
  | cons e m ih =>
    obtain ⟨k, w⟩ := e
    simp only [rising, Bool.and_eq_true, decide_eq_true_eq] at hm
    by_cases h : a = k
    · simp [cut, h]; exact h ▸ rising_weaken _ (Nat.le_of_lt hm.1) (ih hm.2)
    · simp [cut, h, rising, hm.1]; exact ih hm.2

theorem rising_cut (m : Tab α) (a : Nat) (hm : rising none m = true) : rising none (cut m a) = true := by
  cases m with
  | nil => rfl
  | cons e m =>
    obtain ⟨k, w⟩ := e
    simp only [rising] at hm
    by_cases h : a = k
    · simp [cut, h]; exact h ▸ rising_none _ (rising_cut_above m a hm)
    · simp [cut, h, rising]; exact rising_cut_above m a hm

theorem rising_upd (m : Tab α) (a : Nat) (o : Option α) (hm : rising none m = true) : rising none (upd m a o) = true := by
  cases o
  · exact rising_cut m a hm
  · exact rising_put m a _ hm

theorem all_put (m : Tab α) (a : Nat) (v : α) (p : Nat × α → Bool) (hm : m.all p = true) (hv : p (a, v) = true) :
    (put m a v).all p = true := by
  induction m with
  | nil => simp [put, hv]
  | cons e m ih =>
    obtain ⟨k, w⟩ := e
    simp only [List.all_cons, Bool.and_eq_true] at hm
    unfold put
    split
    · simp [hv, hm.1, hm.2]
    · split <;> simp_all

theorem all_cut (m : Tab α) (a : Nat) (p : Nat × α → Bool) (hm : m.all p = true) : (cut m a).all p = true := by
  induction m with
  | nil => rfl
  | cons e m ih =>
    obtain ⟨k, w⟩ := e
    simp only [List.all_cons, Bool.and_eq_true] at hm
    unfold cut
    split <;> simp_all

/-- Writing keeps the canonical form of a table with a default. -/
theorem canon_wr [DecidableEq α] (d : α) (m : Tab α) (a : Nat) (v : α) (hm : canon d m = true) : canon d (wr d m a v) = true := by
  simp only [canon, Bool.and_eq_true] at *
  refine ⟨rising_upd m a _ hm.1, ?_⟩
  unfold wr
  by_cases h : v = d
  · simp only [h, if_true, upd]; exact all_cut m a _ hm.2
  · simp only [h, if_false, upd]; exact all_put m a v _ hm.2 (by simp [h])

/-- A byte reads as it was written; every other byte is unchanged. -/
theorem readByte_writeByte (m : List Host.Cell) (k a : Nat) (b : Byte) :
    readByte (writeByte m k b) a = if a = k then b else readByte m a := rd_wr 0 m k a b

theorem wf_writeByte (m : List Host.Cell) (k : Nat) (b : Byte) (h : Memory.wf m = true) : Memory.wf (writeByte m k b) = true :=
  canon_wr 0 m k b h

/-- Every memory operation keeps the canonical form: all of them write bytes at keys. -/
theorem wf_writeBytes (ks : List Nat) (bs : List Byte) (m : List Host.Cell) (h : Memory.wf m = true) :
    Memory.wf (writeBytes m ks bs) = true := by
  induction ks generalizing bs m with
  | nil => simpa [writeBytes]
  | cons k ks ih =>
    cases bs with
    | nil => simpa [writeBytes]
    | cons b bs => exact ih bs _ (wf_writeByte m k b h)

theorem wf_writeNat (m : List Host.Cell) (k n v : Nat) (h : Memory.wf m = true) : Memory.wf (writeNat m k n v) = true :=
  wf_writeBytes _ _ m h

/-- Bytes outside the keys written are unchanged. -/
theorem readByte_writeBytes_other (ks : List Nat) (bs : List Byte) (m : List Host.Cell) (a : Nat) (h : a ∉ ks) :
    readByte (writeBytes m ks bs) a = readByte m a := by
  induction ks generalizing bs m with
  | nil => simp [writeBytes]
  | cons k ks ih =>
    simp only [List.mem_cons, not_or] at h
    cases bs with
    | nil => simp [writeBytes]
    | cons b bs => simp [writeBytes, ih _ _ h.2, readByte_writeByte, h.1]

end Sys2Proof.Machine
end

