-- ==== Sys2Proof/Laws/State.lean ====
section
/-!
SUPPORT. Sys2Proof/Laws/State.lean: what each update of State and of Strand does to each of its parts, so that no later proof
unfolds one.
-/

namespace Sys2Proof.Machine

@[simp] theorem State.setCore_mem (s : State) (n : Nat) (c : Core) : (s.setCore n c).mem = s.mem := rfl
@[simp] theorem State.setCore_quads (s : State) (n : Nat) (c : Core) : (s.setCore n c).quads = s.quads := rfl
@[simp] theorem State.setCore_dies (s : State) (n : Nat) (c : Core) : (s.setCore n c).dies = s.dies := rfl
@[simp] theorem State.setCore_ctxs (s : State) (n : Nat) (c : Core) : (s.setCore n c).ctxs = s.ctxs := rfl
@[simp] theorem State.setCore_gangs (s : State) (n : Nat) (c : Core) : (s.setCore n c).gangs = s.gangs := rfl
@[simp] theorem State.setCore_strands (s : State) (n : Nat) (c : Core) : (s.setCore n c).strands = s.strands := rfl
@[simp] theorem State.setCore_ops (s : State) (n : Nat) (c : Core) : (s.setCore n c).ops = s.ops := rfl
@[simp] theorem State.setCore_bars (s : State) (n : Nat) (c : Core) : (s.setCore n c).bars = s.bars := rfl
@[simp] theorem State.setCore_pkg (s : State) (n : Nat) (c : Core) : (s.setCore n c).pkg = s.pkg := rfl
@[simp] theorem State.setCore_phys (s : State) (n : Nat) (c : Core) : (s.setCore n c).phys = s.phys := rfl
@[simp] theorem State.setCore_cur (s : State) (n : Nat) (c : Core) : (s.setCore n c).cur = s.cur := rfl
@[simp] theorem State.setCore_now (s : State) (n : Nat) (c : Core) : (s.setCore n c).now = s.now := rfl
@[simp] theorem State.setCore_schedule (s : State) (n : Nat) (c : Core) : (s.setCore n c).schedule = s.schedule := rfl
@[simp] theorem State.setCore_nextId (s : State) (n : Nat) (c : Core) : (s.setCore n c).nextId = s.nextId := rfl
@[simp] theorem State.setCore_free (s : State) (n : Nat) (c : Core) : (s.setCore n c).free = s.free := rfl
@[simp] theorem State.setQuad_mem (s : State) (n : Nat) (q : Quad) : (s.setQuad n q).mem = s.mem := rfl
@[simp] theorem State.setQuad_cores (s : State) (n : Nat) (q : Quad) : (s.setQuad n q).cores = s.cores := rfl
@[simp] theorem State.setQuad_dies (s : State) (n : Nat) (q : Quad) : (s.setQuad n q).dies = s.dies := rfl
@[simp] theorem State.setQuad_ctxs (s : State) (n : Nat) (q : Quad) : (s.setQuad n q).ctxs = s.ctxs := rfl
@[simp] theorem State.setQuad_gangs (s : State) (n : Nat) (q : Quad) : (s.setQuad n q).gangs = s.gangs := rfl
@[simp] theorem State.setQuad_strands (s : State) (n : Nat) (q : Quad) : (s.setQuad n q).strands = s.strands := rfl
@[simp] theorem State.setQuad_ops (s : State) (n : Nat) (q : Quad) : (s.setQuad n q).ops = s.ops := rfl
@[simp] theorem State.setQuad_bars (s : State) (n : Nat) (q : Quad) : (s.setQuad n q).bars = s.bars := rfl
@[simp] theorem State.setQuad_pkg (s : State) (n : Nat) (q : Quad) : (s.setQuad n q).pkg = s.pkg := rfl
@[simp] theorem State.setQuad_phys (s : State) (n : Nat) (q : Quad) : (s.setQuad n q).phys = s.phys := rfl
@[simp] theorem State.setQuad_cur (s : State) (n : Nat) (q : Quad) : (s.setQuad n q).cur = s.cur := rfl
@[simp] theorem State.setQuad_now (s : State) (n : Nat) (q : Quad) : (s.setQuad n q).now = s.now := rfl
@[simp] theorem State.setQuad_schedule (s : State) (n : Nat) (q : Quad) : (s.setQuad n q).schedule = s.schedule := rfl
@[simp] theorem State.setQuad_nextId (s : State) (n : Nat) (q : Quad) : (s.setQuad n q).nextId = s.nextId := rfl
@[simp] theorem State.setQuad_free (s : State) (n : Nat) (q : Quad) : (s.setQuad n q).free = s.free := rfl
@[simp] theorem State.setDie_mem (s : State) (n : Nat) (d : Die) : (s.setDie n d).mem = s.mem := rfl
@[simp] theorem State.setDie_cores (s : State) (n : Nat) (d : Die) : (s.setDie n d).cores = s.cores := rfl
@[simp] theorem State.setDie_quads (s : State) (n : Nat) (d : Die) : (s.setDie n d).quads = s.quads := rfl
@[simp] theorem State.setDie_ctxs (s : State) (n : Nat) (d : Die) : (s.setDie n d).ctxs = s.ctxs := rfl
@[simp] theorem State.setDie_gangs (s : State) (n : Nat) (d : Die) : (s.setDie n d).gangs = s.gangs := rfl
@[simp] theorem State.setDie_strands (s : State) (n : Nat) (d : Die) : (s.setDie n d).strands = s.strands := rfl
@[simp] theorem State.setDie_ops (s : State) (n : Nat) (d : Die) : (s.setDie n d).ops = s.ops := rfl
@[simp] theorem State.setDie_bars (s : State) (n : Nat) (d : Die) : (s.setDie n d).bars = s.bars := rfl
@[simp] theorem State.setDie_pkg (s : State) (n : Nat) (d : Die) : (s.setDie n d).pkg = s.pkg := rfl
@[simp] theorem State.setDie_phys (s : State) (n : Nat) (d : Die) : (s.setDie n d).phys = s.phys := rfl
@[simp] theorem State.setDie_cur (s : State) (n : Nat) (d : Die) : (s.setDie n d).cur = s.cur := rfl
@[simp] theorem State.setDie_now (s : State) (n : Nat) (d : Die) : (s.setDie n d).now = s.now := rfl
@[simp] theorem State.setDie_schedule (s : State) (n : Nat) (d : Die) : (s.setDie n d).schedule = s.schedule := rfl
@[simp] theorem State.setDie_nextId (s : State) (n : Nat) (d : Die) : (s.setDie n d).nextId = s.nextId := rfl
@[simp] theorem State.setDie_free (s : State) (n : Nat) (d : Die) : (s.setDie n d).free = s.free := rfl
@[simp] theorem State.setCtx_mem (s : State) (n : Nat) (c : Ctx) : (s.setCtx n c).mem = s.mem := rfl
@[simp] theorem State.setCtx_cores (s : State) (n : Nat) (c : Ctx) : (s.setCtx n c).cores = s.cores := rfl
@[simp] theorem State.setCtx_quads (s : State) (n : Nat) (c : Ctx) : (s.setCtx n c).quads = s.quads := rfl
@[simp] theorem State.setCtx_dies (s : State) (n : Nat) (c : Ctx) : (s.setCtx n c).dies = s.dies := rfl
@[simp] theorem State.setCtx_gangs (s : State) (n : Nat) (c : Ctx) : (s.setCtx n c).gangs = s.gangs := rfl
@[simp] theorem State.setCtx_strands (s : State) (n : Nat) (c : Ctx) : (s.setCtx n c).strands = s.strands := rfl
@[simp] theorem State.setCtx_ops (s : State) (n : Nat) (c : Ctx) : (s.setCtx n c).ops = s.ops := rfl
@[simp] theorem State.setCtx_bars (s : State) (n : Nat) (c : Ctx) : (s.setCtx n c).bars = s.bars := rfl
@[simp] theorem State.setCtx_pkg (s : State) (n : Nat) (c : Ctx) : (s.setCtx n c).pkg = s.pkg := rfl
@[simp] theorem State.setCtx_phys (s : State) (n : Nat) (c : Ctx) : (s.setCtx n c).phys = s.phys := rfl
@[simp] theorem State.setCtx_cur (s : State) (n : Nat) (c : Ctx) : (s.setCtx n c).cur = s.cur := rfl
@[simp] theorem State.setCtx_now (s : State) (n : Nat) (c : Ctx) : (s.setCtx n c).now = s.now := rfl
@[simp] theorem State.setCtx_schedule (s : State) (n : Nat) (c : Ctx) : (s.setCtx n c).schedule = s.schedule := rfl
@[simp] theorem State.setCtx_nextId (s : State) (n : Nat) (c : Ctx) : (s.setCtx n c).nextId = s.nextId := rfl
@[simp] theorem State.setCtx_free (s : State) (n : Nat) (c : Ctx) : (s.setCtx n c).free = s.free := rfl
@[simp] theorem State.setGang_mem (s : State) (n : Nat) (g : Gang) : (s.setGang n g).mem = s.mem := rfl
@[simp] theorem State.setGang_cores (s : State) (n : Nat) (g : Gang) : (s.setGang n g).cores = s.cores := rfl
@[simp] theorem State.setGang_quads (s : State) (n : Nat) (g : Gang) : (s.setGang n g).quads = s.quads := rfl
@[simp] theorem State.setGang_dies (s : State) (n : Nat) (g : Gang) : (s.setGang n g).dies = s.dies := rfl
@[simp] theorem State.setGang_ctxs (s : State) (n : Nat) (g : Gang) : (s.setGang n g).ctxs = s.ctxs := rfl
@[simp] theorem State.setGang_strands (s : State) (n : Nat) (g : Gang) : (s.setGang n g).strands = s.strands := rfl
@[simp] theorem State.setGang_ops (s : State) (n : Nat) (g : Gang) : (s.setGang n g).ops = s.ops := rfl
@[simp] theorem State.setGang_bars (s : State) (n : Nat) (g : Gang) : (s.setGang n g).bars = s.bars := rfl
@[simp] theorem State.setGang_pkg (s : State) (n : Nat) (g : Gang) : (s.setGang n g).pkg = s.pkg := rfl
@[simp] theorem State.setGang_phys (s : State) (n : Nat) (g : Gang) : (s.setGang n g).phys = s.phys := rfl
@[simp] theorem State.setGang_cur (s : State) (n : Nat) (g : Gang) : (s.setGang n g).cur = s.cur := rfl
@[simp] theorem State.setGang_now (s : State) (n : Nat) (g : Gang) : (s.setGang n g).now = s.now := rfl
@[simp] theorem State.setGang_schedule (s : State) (n : Nat) (g : Gang) : (s.setGang n g).schedule = s.schedule := rfl
@[simp] theorem State.setGang_nextId (s : State) (n : Nat) (g : Gang) : (s.setGang n g).nextId = s.nextId := rfl
@[simp] theorem State.setGang_free (s : State) (n : Nat) (g : Gang) : (s.setGang n g).free = s.free := rfl
@[simp] theorem State.setStrand_mem (s : State) (n : Nat) (st : Strand) : (s.setStrand n st).mem = s.mem := rfl
@[simp] theorem State.setStrand_cores (s : State) (n : Nat) (st : Strand) : (s.setStrand n st).cores = s.cores := rfl
@[simp] theorem State.setStrand_quads (s : State) (n : Nat) (st : Strand) : (s.setStrand n st).quads = s.quads := rfl
@[simp] theorem State.setStrand_dies (s : State) (n : Nat) (st : Strand) : (s.setStrand n st).dies = s.dies := rfl
@[simp] theorem State.setStrand_ctxs (s : State) (n : Nat) (st : Strand) : (s.setStrand n st).ctxs = s.ctxs := rfl
@[simp] theorem State.setStrand_gangs (s : State) (n : Nat) (st : Strand) : (s.setStrand n st).gangs = s.gangs := rfl
@[simp] theorem State.setStrand_ops (s : State) (n : Nat) (st : Strand) : (s.setStrand n st).ops = s.ops := rfl
@[simp] theorem State.setStrand_bars (s : State) (n : Nat) (st : Strand) : (s.setStrand n st).bars = s.bars := rfl
@[simp] theorem State.setStrand_pkg (s : State) (n : Nat) (st : Strand) : (s.setStrand n st).pkg = s.pkg := rfl
@[simp] theorem State.setStrand_phys (s : State) (n : Nat) (st : Strand) : (s.setStrand n st).phys = s.phys := rfl
@[simp] theorem State.setStrand_cur (s : State) (n : Nat) (st : Strand) : (s.setStrand n st).cur = s.cur := rfl
@[simp] theorem State.setStrand_now (s : State) (n : Nat) (st : Strand) : (s.setStrand n st).now = s.now := rfl
@[simp] theorem State.setStrand_schedule (s : State) (n : Nat) (st : Strand) : (s.setStrand n st).schedule = s.schedule := rfl
@[simp] theorem State.setStrand_nextId (s : State) (n : Nat) (st : Strand) : (s.setStrand n st).nextId = s.nextId := rfl
@[simp] theorem State.setStrand_free (s : State) (n : Nat) (st : Strand) : (s.setStrand n st).free = s.free := rfl
@[simp] theorem State.setOp_mem (s : State) (n : Nat) (o : Op) : (s.setOp n o).mem = s.mem := rfl
@[simp] theorem State.setOp_cores (s : State) (n : Nat) (o : Op) : (s.setOp n o).cores = s.cores := rfl
@[simp] theorem State.setOp_quads (s : State) (n : Nat) (o : Op) : (s.setOp n o).quads = s.quads := rfl
@[simp] theorem State.setOp_dies (s : State) (n : Nat) (o : Op) : (s.setOp n o).dies = s.dies := rfl
@[simp] theorem State.setOp_ctxs (s : State) (n : Nat) (o : Op) : (s.setOp n o).ctxs = s.ctxs := rfl
@[simp] theorem State.setOp_gangs (s : State) (n : Nat) (o : Op) : (s.setOp n o).gangs = s.gangs := rfl
@[simp] theorem State.setOp_strands (s : State) (n : Nat) (o : Op) : (s.setOp n o).strands = s.strands := rfl
@[simp] theorem State.setOp_bars (s : State) (n : Nat) (o : Op) : (s.setOp n o).bars = s.bars := rfl
@[simp] theorem State.setOp_pkg (s : State) (n : Nat) (o : Op) : (s.setOp n o).pkg = s.pkg := rfl
@[simp] theorem State.setOp_phys (s : State) (n : Nat) (o : Op) : (s.setOp n o).phys = s.phys := rfl
@[simp] theorem State.setOp_cur (s : State) (n : Nat) (o : Op) : (s.setOp n o).cur = s.cur := rfl
@[simp] theorem State.setOp_now (s : State) (n : Nat) (o : Op) : (s.setOp n o).now = s.now := rfl
@[simp] theorem State.setOp_schedule (s : State) (n : Nat) (o : Op) : (s.setOp n o).schedule = s.schedule := rfl
@[simp] theorem State.setOp_nextId (s : State) (n : Nat) (o : Op) : (s.setOp n o).nextId = s.nextId := rfl
@[simp] theorem State.setOp_free (s : State) (n : Nat) (o : Op) : (s.setOp n o).free = s.free := rfl
@[simp] theorem State.dropOp_mem (s : State) (n : Nat) : (s.dropOp n).mem = s.mem := rfl
@[simp] theorem State.dropOp_cores (s : State) (n : Nat) : (s.dropOp n).cores = s.cores := rfl
@[simp] theorem State.dropOp_quads (s : State) (n : Nat) : (s.dropOp n).quads = s.quads := rfl
@[simp] theorem State.dropOp_dies (s : State) (n : Nat) : (s.dropOp n).dies = s.dies := rfl
@[simp] theorem State.dropOp_ctxs (s : State) (n : Nat) : (s.dropOp n).ctxs = s.ctxs := rfl
@[simp] theorem State.dropOp_gangs (s : State) (n : Nat) : (s.dropOp n).gangs = s.gangs := rfl
@[simp] theorem State.dropOp_strands (s : State) (n : Nat) : (s.dropOp n).strands = s.strands := rfl
@[simp] theorem State.dropOp_bars (s : State) (n : Nat) : (s.dropOp n).bars = s.bars := rfl
@[simp] theorem State.dropOp_pkg (s : State) (n : Nat) : (s.dropOp n).pkg = s.pkg := rfl
@[simp] theorem State.dropOp_phys (s : State) (n : Nat) : (s.dropOp n).phys = s.phys := rfl
@[simp] theorem State.dropOp_cur (s : State) (n : Nat) : (s.dropOp n).cur = s.cur := rfl
@[simp] theorem State.dropOp_now (s : State) (n : Nat) : (s.dropOp n).now = s.now := rfl
@[simp] theorem State.dropOp_schedule (s : State) (n : Nat) : (s.dropOp n).schedule = s.schedule := rfl
@[simp] theorem State.dropOp_nextId (s : State) (n : Nat) : (s.dropOp n).nextId = s.nextId := rfl
@[simp] theorem State.dropOp_free (s : State) (n : Nat) : (s.dropOp n).free = s.free := rfl
@[simp] theorem State.setMem_cores (s : State) (m : List Host.Cell) : (s.setMem m).cores = s.cores := rfl
@[simp] theorem State.setMem_quads (s : State) (m : List Host.Cell) : (s.setMem m).quads = s.quads := rfl
@[simp] theorem State.setMem_dies (s : State) (m : List Host.Cell) : (s.setMem m).dies = s.dies := rfl
@[simp] theorem State.setMem_ctxs (s : State) (m : List Host.Cell) : (s.setMem m).ctxs = s.ctxs := rfl
@[simp] theorem State.setMem_gangs (s : State) (m : List Host.Cell) : (s.setMem m).gangs = s.gangs := rfl
@[simp] theorem State.setMem_strands (s : State) (m : List Host.Cell) : (s.setMem m).strands = s.strands := rfl
@[simp] theorem State.setMem_ops (s : State) (m : List Host.Cell) : (s.setMem m).ops = s.ops := rfl
@[simp] theorem State.setMem_bars (s : State) (m : List Host.Cell) : (s.setMem m).bars = s.bars := rfl
@[simp] theorem State.setMem_pkg (s : State) (m : List Host.Cell) : (s.setMem m).pkg = s.pkg := rfl
@[simp] theorem State.setMem_phys (s : State) (m : List Host.Cell) : (s.setMem m).phys = s.phys := rfl
@[simp] theorem State.setMem_cur (s : State) (m : List Host.Cell) : (s.setMem m).cur = s.cur := rfl
@[simp] theorem State.setMem_now (s : State) (m : List Host.Cell) : (s.setMem m).now = s.now := rfl
@[simp] theorem State.setMem_schedule (s : State) (m : List Host.Cell) : (s.setMem m).schedule = s.schedule := rfl
@[simp] theorem State.setMem_nextId (s : State) (m : List Host.Cell) : (s.setMem m).nextId = s.nextId := rfl
@[simp] theorem State.setMem_free (s : State) (m : List Host.Cell) : (s.setMem m).free = s.free := rfl
@[simp] theorem State.setPkg_mem (s : State) (p : Pkg) : (s.setPkg p).mem = s.mem := rfl
@[simp] theorem State.setPkg_cores (s : State) (p : Pkg) : (s.setPkg p).cores = s.cores := rfl
@[simp] theorem State.setPkg_quads (s : State) (p : Pkg) : (s.setPkg p).quads = s.quads := rfl
@[simp] theorem State.setPkg_dies (s : State) (p : Pkg) : (s.setPkg p).dies = s.dies := rfl
@[simp] theorem State.setPkg_ctxs (s : State) (p : Pkg) : (s.setPkg p).ctxs = s.ctxs := rfl
@[simp] theorem State.setPkg_gangs (s : State) (p : Pkg) : (s.setPkg p).gangs = s.gangs := rfl
@[simp] theorem State.setPkg_strands (s : State) (p : Pkg) : (s.setPkg p).strands = s.strands := rfl
@[simp] theorem State.setPkg_ops (s : State) (p : Pkg) : (s.setPkg p).ops = s.ops := rfl
@[simp] theorem State.setPkg_bars (s : State) (p : Pkg) : (s.setPkg p).bars = s.bars := rfl
@[simp] theorem State.setPkg_phys (s : State) (p : Pkg) : (s.setPkg p).phys = s.phys := rfl
@[simp] theorem State.setPkg_cur (s : State) (p : Pkg) : (s.setPkg p).cur = s.cur := rfl
@[simp] theorem State.setPkg_now (s : State) (p : Pkg) : (s.setPkg p).now = s.now := rfl
@[simp] theorem State.setPkg_schedule (s : State) (p : Pkg) : (s.setPkg p).schedule = s.schedule := rfl
@[simp] theorem State.setPkg_nextId (s : State) (p : Pkg) : (s.setPkg p).nextId = s.nextId := rfl
@[simp] theorem State.setPkg_free (s : State) (p : Pkg) : (s.setPkg p).free = s.free := rfl
@[simp] theorem State.setBar_mem (s : State) (n : Nat) (b : BarSlot) : (s.setBar n b).mem = s.mem := rfl
@[simp] theorem State.setBar_cores (s : State) (n : Nat) (b : BarSlot) : (s.setBar n b).cores = s.cores := rfl
@[simp] theorem State.setBar_quads (s : State) (n : Nat) (b : BarSlot) : (s.setBar n b).quads = s.quads := rfl
@[simp] theorem State.setBar_dies (s : State) (n : Nat) (b : BarSlot) : (s.setBar n b).dies = s.dies := rfl
@[simp] theorem State.setBar_ctxs (s : State) (n : Nat) (b : BarSlot) : (s.setBar n b).ctxs = s.ctxs := rfl
@[simp] theorem State.setBar_gangs (s : State) (n : Nat) (b : BarSlot) : (s.setBar n b).gangs = s.gangs := rfl
@[simp] theorem State.setBar_strands (s : State) (n : Nat) (b : BarSlot) : (s.setBar n b).strands = s.strands := rfl
@[simp] theorem State.setBar_ops (s : State) (n : Nat) (b : BarSlot) : (s.setBar n b).ops = s.ops := rfl
@[simp] theorem State.setBar_pkg (s : State) (n : Nat) (b : BarSlot) : (s.setBar n b).pkg = s.pkg := rfl
@[simp] theorem State.setBar_phys (s : State) (n : Nat) (b : BarSlot) : (s.setBar n b).phys = s.phys := rfl
@[simp] theorem State.setBar_cur (s : State) (n : Nat) (b : BarSlot) : (s.setBar n b).cur = s.cur := rfl
@[simp] theorem State.setBar_now (s : State) (n : Nat) (b : BarSlot) : (s.setBar n b).now = s.now := rfl
@[simp] theorem State.setBar_schedule (s : State) (n : Nat) (b : BarSlot) : (s.setBar n b).schedule = s.schedule := rfl
@[simp] theorem State.setBar_nextId (s : State) (n : Nat) (b : BarSlot) : (s.setBar n b).nextId = s.nextId := rfl
@[simp] theorem State.setBar_free (s : State) (n : Nat) (b : BarSlot) : (s.setBar n b).free = s.free := rfl

theorem State.core_setCore (s : State) (n m : Nat) (c : Core) : (s.setCore n c).core m = if m = n then c else s.core m := rd_wr _ _ _ _ _
@[simp] theorem State.core_setCore_same (s : State) (n : Nat) (c : Core) : (s.setCore n c).core n = c := by simp [State.core_setCore]
theorem State.quad_setQuad (s : State) (n m : Nat) (q : Quad) : (s.setQuad n q).quad m = if m = n then q else s.quad m := rd_wr _ _ _ _ _
@[simp] theorem State.quad_setQuad_same (s : State) (n : Nat) (q : Quad) : (s.setQuad n q).quad n = q := by simp [State.quad_setQuad]
theorem State.die_setDie (s : State) (n m : Nat) (d : Die) : (s.setDie n d).die m = if m = n then d else s.die m := rd_wr _ _ _ _ _
@[simp] theorem State.die_setDie_same (s : State) (n : Nat) (d : Die) : (s.setDie n d).die n = d := by simp [State.die_setDie]
theorem State.bar_setBar (s : State) (n m : Nat) (b : BarSlot) : (s.setBar n b).bar m = if m = n then b else s.bar m := rd_wr _ _ _ _ _
@[simp] theorem State.bar_setBar_same (s : State) (n : Nat) (b : BarSlot) : (s.setBar n b).bar n = b := by simp [State.bar_setBar]
theorem State.ctx_setCtx (s : State) (n m : Nat) (c : Ctx) : (s.setCtx n c).ctx m = if m = n then some c else s.ctx m := look_upd s.ctxs n m (some c)
@[simp] theorem State.ctx_setCtx_same (s : State) (n : Nat) (c : Ctx) : (s.setCtx n c).ctx n = some c := by simp [State.ctx_setCtx]
theorem State.gang_setGang (s : State) (n m : Nat) (g : Gang) : (s.setGang n g).gang m = if m = n then some g else s.gang m := look_upd s.gangs n m (some g)
@[simp] theorem State.gang_setGang_same (s : State) (n : Nat) (g : Gang) : (s.setGang n g).gang n = some g := by simp [State.gang_setGang]
theorem State.strand_setStrand (s : State) (n m : Nat) (st : Strand) : (s.setStrand n st).strand m = if m = n then some st else s.strand m := look_upd s.strands n m (some st)
@[simp] theorem State.strand_setStrand_same (s : State) (n : Nat) (st : Strand) : (s.setStrand n st).strand n = some st := by simp [State.strand_setStrand]
theorem State.op_setOp (s : State) (n m : Nat) (o : Op) : (s.setOp n o).op m = if m = n then some o else s.op m := look_upd s.ops n m (some o)
@[simp] theorem State.op_setOp_same (s : State) (n : Nat) (o : Op) : (s.setOp n o).op n = some o := by simp [State.op_setOp]
theorem State.op_dropOp (s : State) (n m : Nat) : (s.dropOp n).op m = if m = n then none else s.op m := look_upd s.ops n m none
@[simp] theorem State.core_of_setQuad (s : State) (n : Nat) (q : Quad) (k : Nat) : (s.setQuad n q).core k = s.core k := rfl
@[simp] theorem State.core_of_setDie (s : State) (n : Nat) (d : Die) (k : Nat) : (s.setDie n d).core k = s.core k := rfl
@[simp] theorem State.core_of_setCtx (s : State) (n : Nat) (c : Ctx) (k : Nat) : (s.setCtx n c).core k = s.core k := rfl
@[simp] theorem State.core_of_setGang (s : State) (n : Nat) (g : Gang) (k : Nat) : (s.setGang n g).core k = s.core k := rfl
@[simp] theorem State.core_of_setStrand (s : State) (n : Nat) (st : Strand) (k : Nat) : (s.setStrand n st).core k = s.core k := rfl
@[simp] theorem State.core_of_setOp (s : State) (n : Nat) (o : Op) (k : Nat) : (s.setOp n o).core k = s.core k := rfl
@[simp] theorem State.core_of_dropOp (s : State) (n : Nat) (k : Nat) : (s.dropOp n).core k = s.core k := rfl
@[simp] theorem State.core_of_setMem (s : State) (m : List Host.Cell) (k : Nat) : (s.setMem m).core k = s.core k := rfl
@[simp] theorem State.core_of_setPkg (s : State) (p : Pkg) (k : Nat) : (s.setPkg p).core k = s.core k := rfl
@[simp] theorem State.core_of_setBar (s : State) (n : Nat) (b : BarSlot) (k : Nat) : (s.setBar n b).core k = s.core k := rfl
@[simp] theorem State.quad_of_setCore (s : State) (n : Nat) (c : Core) (k : Nat) : (s.setCore n c).quad k = s.quad k := rfl
@[simp] theorem State.quad_of_setDie (s : State) (n : Nat) (d : Die) (k : Nat) : (s.setDie n d).quad k = s.quad k := rfl
@[simp] theorem State.quad_of_setCtx (s : State) (n : Nat) (c : Ctx) (k : Nat) : (s.setCtx n c).quad k = s.quad k := rfl
@[simp] theorem State.quad_of_setGang (s : State) (n : Nat) (g : Gang) (k : Nat) : (s.setGang n g).quad k = s.quad k := rfl
@[simp] theorem State.quad_of_setStrand (s : State) (n : Nat) (st : Strand) (k : Nat) : (s.setStrand n st).quad k = s.quad k := rfl
@[simp] theorem State.quad_of_setOp (s : State) (n : Nat) (o : Op) (k : Nat) : (s.setOp n o).quad k = s.quad k := rfl
@[simp] theorem State.quad_of_dropOp (s : State) (n : Nat) (k : Nat) : (s.dropOp n).quad k = s.quad k := rfl
@[simp] theorem State.quad_of_setMem (s : State) (m : List Host.Cell) (k : Nat) : (s.setMem m).quad k = s.quad k := rfl
@[simp] theorem State.quad_of_setPkg (s : State) (p : Pkg) (k : Nat) : (s.setPkg p).quad k = s.quad k := rfl
@[simp] theorem State.quad_of_setBar (s : State) (n : Nat) (b : BarSlot) (k : Nat) : (s.setBar n b).quad k = s.quad k := rfl
@[simp] theorem State.die_of_setCore (s : State) (n : Nat) (c : Core) (k : Nat) : (s.setCore n c).die k = s.die k := rfl
@[simp] theorem State.die_of_setQuad (s : State) (n : Nat) (q : Quad) (k : Nat) : (s.setQuad n q).die k = s.die k := rfl
@[simp] theorem State.die_of_setCtx (s : State) (n : Nat) (c : Ctx) (k : Nat) : (s.setCtx n c).die k = s.die k := rfl
@[simp] theorem State.die_of_setGang (s : State) (n : Nat) (g : Gang) (k : Nat) : (s.setGang n g).die k = s.die k := rfl
@[simp] theorem State.die_of_setStrand (s : State) (n : Nat) (st : Strand) (k : Nat) : (s.setStrand n st).die k = s.die k := rfl
@[simp] theorem State.die_of_setOp (s : State) (n : Nat) (o : Op) (k : Nat) : (s.setOp n o).die k = s.die k := rfl
@[simp] theorem State.die_of_dropOp (s : State) (n : Nat) (k : Nat) : (s.dropOp n).die k = s.die k := rfl
@[simp] theorem State.die_of_setMem (s : State) (m : List Host.Cell) (k : Nat) : (s.setMem m).die k = s.die k := rfl
@[simp] theorem State.die_of_setPkg (s : State) (p : Pkg) (k : Nat) : (s.setPkg p).die k = s.die k := rfl
@[simp] theorem State.die_of_setBar (s : State) (n : Nat) (b : BarSlot) (k : Nat) : (s.setBar n b).die k = s.die k := rfl
@[simp] theorem State.bar_of_setCore (s : State) (n : Nat) (c : Core) (k : Nat) : (s.setCore n c).bar k = s.bar k := rfl
@[simp] theorem State.bar_of_setQuad (s : State) (n : Nat) (q : Quad) (k : Nat) : (s.setQuad n q).bar k = s.bar k := rfl
@[simp] theorem State.bar_of_setDie (s : State) (n : Nat) (d : Die) (k : Nat) : (s.setDie n d).bar k = s.bar k := rfl
@[simp] theorem State.bar_of_setCtx (s : State) (n : Nat) (c : Ctx) (k : Nat) : (s.setCtx n c).bar k = s.bar k := rfl
@[simp] theorem State.bar_of_setGang (s : State) (n : Nat) (g : Gang) (k : Nat) : (s.setGang n g).bar k = s.bar k := rfl
@[simp] theorem State.bar_of_setStrand (s : State) (n : Nat) (st : Strand) (k : Nat) : (s.setStrand n st).bar k = s.bar k := rfl
@[simp] theorem State.bar_of_setOp (s : State) (n : Nat) (o : Op) (k : Nat) : (s.setOp n o).bar k = s.bar k := rfl
@[simp] theorem State.bar_of_dropOp (s : State) (n : Nat) (k : Nat) : (s.dropOp n).bar k = s.bar k := rfl
@[simp] theorem State.bar_of_setMem (s : State) (m : List Host.Cell) (k : Nat) : (s.setMem m).bar k = s.bar k := rfl
@[simp] theorem State.bar_of_setPkg (s : State) (p : Pkg) (k : Nat) : (s.setPkg p).bar k = s.bar k := rfl
@[simp] theorem State.ctx_of_setCore (s : State) (n : Nat) (c : Core) (k : Nat) : (s.setCore n c).ctx k = s.ctx k := rfl
@[simp] theorem State.ctx_of_setQuad (s : State) (n : Nat) (q : Quad) (k : Nat) : (s.setQuad n q).ctx k = s.ctx k := rfl
@[simp] theorem State.ctx_of_setDie (s : State) (n : Nat) (d : Die) (k : Nat) : (s.setDie n d).ctx k = s.ctx k := rfl
@[simp] theorem State.ctx_of_setGang (s : State) (n : Nat) (g : Gang) (k : Nat) : (s.setGang n g).ctx k = s.ctx k := rfl
@[simp] theorem State.ctx_of_setStrand (s : State) (n : Nat) (st : Strand) (k : Nat) : (s.setStrand n st).ctx k = s.ctx k := rfl
@[simp] theorem State.ctx_of_setOp (s : State) (n : Nat) (o : Op) (k : Nat) : (s.setOp n o).ctx k = s.ctx k := rfl
@[simp] theorem State.ctx_of_dropOp (s : State) (n : Nat) (k : Nat) : (s.dropOp n).ctx k = s.ctx k := rfl
@[simp] theorem State.ctx_of_setMem (s : State) (m : List Host.Cell) (k : Nat) : (s.setMem m).ctx k = s.ctx k := rfl
@[simp] theorem State.ctx_of_setPkg (s : State) (p : Pkg) (k : Nat) : (s.setPkg p).ctx k = s.ctx k := rfl
@[simp] theorem State.ctx_of_setBar (s : State) (n : Nat) (b : BarSlot) (k : Nat) : (s.setBar n b).ctx k = s.ctx k := rfl
@[simp] theorem State.gang_of_setCore (s : State) (n : Nat) (c : Core) (k : Nat) : (s.setCore n c).gang k = s.gang k := rfl
@[simp] theorem State.gang_of_setQuad (s : State) (n : Nat) (q : Quad) (k : Nat) : (s.setQuad n q).gang k = s.gang k := rfl
@[simp] theorem State.gang_of_setDie (s : State) (n : Nat) (d : Die) (k : Nat) : (s.setDie n d).gang k = s.gang k := rfl
@[simp] theorem State.gang_of_setCtx (s : State) (n : Nat) (c : Ctx) (k : Nat) : (s.setCtx n c).gang k = s.gang k := rfl
@[simp] theorem State.gang_of_setStrand (s : State) (n : Nat) (st : Strand) (k : Nat) : (s.setStrand n st).gang k = s.gang k := rfl
@[simp] theorem State.gang_of_setOp (s : State) (n : Nat) (o : Op) (k : Nat) : (s.setOp n o).gang k = s.gang k := rfl
@[simp] theorem State.gang_of_dropOp (s : State) (n : Nat) (k : Nat) : (s.dropOp n).gang k = s.gang k := rfl
@[simp] theorem State.gang_of_setMem (s : State) (m : List Host.Cell) (k : Nat) : (s.setMem m).gang k = s.gang k := rfl
@[simp] theorem State.gang_of_setPkg (s : State) (p : Pkg) (k : Nat) : (s.setPkg p).gang k = s.gang k := rfl
@[simp] theorem State.gang_of_setBar (s : State) (n : Nat) (b : BarSlot) (k : Nat) : (s.setBar n b).gang k = s.gang k := rfl
@[simp] theorem State.strand_of_setCore (s : State) (n : Nat) (c : Core) (k : Nat) : (s.setCore n c).strand k = s.strand k := rfl
@[simp] theorem State.strand_of_setQuad (s : State) (n : Nat) (q : Quad) (k : Nat) : (s.setQuad n q).strand k = s.strand k := rfl
@[simp] theorem State.strand_of_setDie (s : State) (n : Nat) (d : Die) (k : Nat) : (s.setDie n d).strand k = s.strand k := rfl
@[simp] theorem State.strand_of_setCtx (s : State) (n : Nat) (c : Ctx) (k : Nat) : (s.setCtx n c).strand k = s.strand k := rfl
@[simp] theorem State.strand_of_setGang (s : State) (n : Nat) (g : Gang) (k : Nat) : (s.setGang n g).strand k = s.strand k := rfl
@[simp] theorem State.strand_of_setOp (s : State) (n : Nat) (o : Op) (k : Nat) : (s.setOp n o).strand k = s.strand k := rfl
@[simp] theorem State.strand_of_dropOp (s : State) (n : Nat) (k : Nat) : (s.dropOp n).strand k = s.strand k := rfl
@[simp] theorem State.strand_of_setMem (s : State) (m : List Host.Cell) (k : Nat) : (s.setMem m).strand k = s.strand k := rfl
@[simp] theorem State.strand_of_setPkg (s : State) (p : Pkg) (k : Nat) : (s.setPkg p).strand k = s.strand k := rfl
@[simp] theorem State.strand_of_setBar (s : State) (n : Nat) (b : BarSlot) (k : Nat) : (s.setBar n b).strand k = s.strand k := rfl
@[simp] theorem State.op_of_setCore (s : State) (n : Nat) (c : Core) (k : Nat) : (s.setCore n c).op k = s.op k := rfl
@[simp] theorem State.op_of_setQuad (s : State) (n : Nat) (q : Quad) (k : Nat) : (s.setQuad n q).op k = s.op k := rfl
@[simp] theorem State.op_of_setDie (s : State) (n : Nat) (d : Die) (k : Nat) : (s.setDie n d).op k = s.op k := rfl
@[simp] theorem State.op_of_setCtx (s : State) (n : Nat) (c : Ctx) (k : Nat) : (s.setCtx n c).op k = s.op k := rfl
@[simp] theorem State.op_of_setGang (s : State) (n : Nat) (g : Gang) (k : Nat) : (s.setGang n g).op k = s.op k := rfl
@[simp] theorem State.op_of_setStrand (s : State) (n : Nat) (st : Strand) (k : Nat) : (s.setStrand n st).op k = s.op k := rfl
@[simp] theorem State.op_of_setMem (s : State) (m : List Host.Cell) (k : Nat) : (s.setMem m).op k = s.op k := rfl
@[simp] theorem State.op_of_setPkg (s : State) (p : Pkg) (k : Nat) : (s.setPkg p).op k = s.op k := rfl
@[simp] theorem State.op_of_setBar (s : State) (n : Nat) (b : BarSlot) (k : Nat) : (s.setBar n b).op k = s.op k := rfl

@[simp] theorem Strand.setV_gang (st : Strand) (r t : Nat) (w : Word) : (st.setV r t w).gang = st.gang := rfl
@[simp] theorem Strand.setS_gang (st : Strand) (r : Nat) (w : Word) : (st.setS r w).gang = st.gang := rfl
@[simp] theorem Strand.setP_gang (st : Strand) (p : Nat) (m val : Mask) : (st.setP p m val).gang = st.gang := by unfold Strand.setP; split <;> rfl
@[simp] theorem Strand.setPath_gang (st : Strand) (i : Nat) (p : Path) : (st.setPath i p).gang = st.gang := by unfold Strand.setPath; split <;> rfl
@[simp] theorem Strand.setV_index (st : Strand) (r t : Nat) (w : Word) : (st.setV r t w).index = st.index := rfl
@[simp] theorem Strand.setS_index (st : Strand) (r : Nat) (w : Word) : (st.setS r w).index = st.index := rfl
@[simp] theorem Strand.setP_index (st : Strand) (p : Nat) (m val : Mask) : (st.setP p m val).index = st.index := by unfold Strand.setP; split <;> rfl
@[simp] theorem Strand.setPath_index (st : Strand) (i : Nat) (p : Path) : (st.setPath i p).index = st.index := by unfold Strand.setPath; split <;> rfl
@[simp] theorem Strand.setV_role (st : Strand) (r t : Nat) (w : Word) : (st.setV r t w).role = st.role := rfl
@[simp] theorem Strand.setS_role (st : Strand) (r : Nat) (w : Word) : (st.setS r w).role = st.role := rfl
@[simp] theorem Strand.setP_role (st : Strand) (p : Nat) (m val : Mask) : (st.setP p m val).role = st.role := by unfold Strand.setP; split <;> rfl
@[simp] theorem Strand.setPath_role (st : Strand) (i : Nat) (p : Path) : (st.setPath i p).role = st.role := by unfold Strand.setPath; split <;> rfl
@[simp] theorem Strand.setV_lane (st : Strand) (r t : Nat) (w : Word) : (st.setV r t w).lane = st.lane := rfl
@[simp] theorem Strand.setS_lane (st : Strand) (r : Nat) (w : Word) : (st.setS r w).lane = st.lane := rfl
@[simp] theorem Strand.setP_lane (st : Strand) (p : Nat) (m val : Mask) : (st.setP p m val).lane = st.lane := by unfold Strand.setP; split <;> rfl
@[simp] theorem Strand.setPath_lane (st : Strand) (i : Nat) (p : Path) : (st.setPath i p).lane = st.lane := by unfold Strand.setPath; split <;> rfl
@[simp] theorem Strand.setV_allot (st : Strand) (r t : Nat) (w : Word) : (st.setV r t w).allot = st.allot := rfl
@[simp] theorem Strand.setS_allot (st : Strand) (r : Nat) (w : Word) : (st.setS r w).allot = st.allot := rfl
@[simp] theorem Strand.setP_allot (st : Strand) (p : Nat) (m val : Mask) : (st.setP p m val).allot = st.allot := by unfold Strand.setP; split <;> rfl
@[simp] theorem Strand.setPath_allot (st : Strand) (i : Nat) (p : Path) : (st.setPath i p).allot = st.allot := by unfold Strand.setPath; split <;> rfl
@[simp] theorem Strand.setS_v (st : Strand) (r : Nat) (w : Word) : (st.setS r w).v = st.v := rfl
@[simp] theorem Strand.setP_v (st : Strand) (p : Nat) (m val : Mask) : (st.setP p m val).v = st.v := by unfold Strand.setP; split <;> rfl
@[simp] theorem Strand.setPath_v (st : Strand) (i : Nat) (p : Path) : (st.setPath i p).v = st.v := by unfold Strand.setPath; split <;> rfl
@[simp] theorem Strand.setV_s (st : Strand) (r t : Nat) (w : Word) : (st.setV r t w).s = st.s := rfl
@[simp] theorem Strand.setP_s (st : Strand) (p : Nat) (m val : Mask) : (st.setP p m val).s = st.s := by unfold Strand.setP; split <;> rfl
@[simp] theorem Strand.setPath_s (st : Strand) (i : Nat) (p : Path) : (st.setPath i p).s = st.s := by unfold Strand.setPath; split <;> rfl
@[simp] theorem Strand.setV_p (st : Strand) (r t : Nat) (w : Word) : (st.setV r t w).p = st.p := rfl
@[simp] theorem Strand.setS_p (st : Strand) (r : Nat) (w : Word) : (st.setS r w).p = st.p := rfl
@[simp] theorem Strand.setPath_p (st : Strand) (i : Nat) (p : Path) : (st.setPath i p).p = st.p := by unfold Strand.setPath; split <;> rfl
@[simp] theorem Strand.setV_divided (st : Strand) (r t : Nat) (w : Word) : (st.setV r t w).divided = st.divided := rfl
@[simp] theorem Strand.setS_divided (st : Strand) (r : Nat) (w : Word) : (st.setS r w).divided = st.divided := rfl
@[simp] theorem Strand.setP_divided (st : Strand) (p : Nat) (m val : Mask) : (st.setP p m val).divided = st.divided := by unfold Strand.setP; split <;> rfl
@[simp] theorem Strand.setPath_divided (st : Strand) (i : Nat) (p : Path) : (st.setPath i p).divided = st.divided := by unfold Strand.setPath; split <;> rfl
@[simp] theorem Strand.setV_nfrs (st : Strand) (r t : Nat) (w : Word) : (st.setV r t w).nfrs = st.nfrs := rfl
@[simp] theorem Strand.setS_nfrs (st : Strand) (r : Nat) (w : Word) : (st.setS r w).nfrs = st.nfrs := rfl
@[simp] theorem Strand.setP_nfrs (st : Strand) (p : Nat) (m val : Mask) : (st.setP p m val).nfrs = st.nfrs := by unfold Strand.setP; split <;> rfl
@[simp] theorem Strand.setPath_nfrs (st : Strand) (i : Nat) (p : Path) : (st.setPath i p).nfrs = st.nfrs := by unfold Strand.setPath; split <;> rfl
@[simp] theorem Strand.setV_frozen (st : Strand) (r t : Nat) (w : Word) : (st.setV r t w).frozen = st.frozen := rfl
@[simp] theorem Strand.setS_frozen (st : Strand) (r : Nat) (w : Word) : (st.setS r w).frozen = st.frozen := rfl
@[simp] theorem Strand.setP_frozen (st : Strand) (p : Nat) (m val : Mask) : (st.setP p m val).frozen = st.frozen := by unfold Strand.setP; split <;> rfl
@[simp] theorem Strand.setPath_frozen (st : Strand) (i : Nat) (p : Path) : (st.setPath i p).frozen = st.frozen := by unfold Strand.setPath; split <;> rfl
@[simp] theorem Strand.setV_path0 (st : Strand) (r t : Nat) (w : Word) : (st.setV r t w).path0 = st.path0 := rfl
@[simp] theorem Strand.setS_path0 (st : Strand) (r : Nat) (w : Word) : (st.setS r w).path0 = st.path0 := rfl
@[simp] theorem Strand.setP_path0 (st : Strand) (p : Nat) (m val : Mask) : (st.setP p m val).path0 = st.path0 := by unfold Strand.setP; split <;> rfl
@[simp] theorem Strand.setV_path1 (st : Strand) (r t : Nat) (w : Word) : (st.setV r t w).path1 = st.path1 := rfl
@[simp] theorem Strand.setS_path1 (st : Strand) (r : Nat) (w : Word) : (st.setS r w).path1 = st.path1 := rfl
@[simp] theorem Strand.setP_path1 (st : Strand) (p : Nat) (m val : Mask) : (st.setP p m val).path1 = st.path1 := by unfold Strand.setP; split <;> rfl
@[simp] theorem Strand.setV_sealedB (st : Strand) (r t : Nat) (w : Word) : (st.setV r t w).sealedB = st.sealedB := rfl
@[simp] theorem Strand.setS_sealedB (st : Strand) (r : Nat) (w : Word) : (st.setS r w).sealedB = st.sealedB := rfl
@[simp] theorem Strand.setP_sealedB (st : Strand) (p : Nat) (m val : Mask) : (st.setP p m val).sealedB = st.sealedB := by unfold Strand.setP; split <;> rfl
@[simp] theorem Strand.setPath_sealedB (st : Strand) (i : Nat) (p : Path) : (st.setPath i p).sealedB = st.sealedB := by unfold Strand.setPath; split <;> rfl
@[simp] theorem Strand.setV_finishedB (st : Strand) (r t : Nat) (w : Word) : (st.setV r t w).finishedB = st.finishedB := rfl
@[simp] theorem Strand.setS_finishedB (st : Strand) (r : Nat) (w : Word) : (st.setS r w).finishedB = st.finishedB := rfl
@[simp] theorem Strand.setP_finishedB (st : Strand) (p : Nat) (m val : Mask) : (st.setP p m val).finishedB = st.finishedB := by unfold Strand.setP; split <;> rfl
@[simp] theorem Strand.setPath_finishedB (st : Strand) (i : Nat) (p : Path) : (st.setPath i p).finishedB = st.finishedB := by unfold Strand.setPath; split <;> rfl
@[simp] theorem Strand.setV_l0 (st : Strand) (r t : Nat) (w : Word) : (st.setV r t w).l0 = st.l0 := rfl
@[simp] theorem Strand.setS_l0 (st : Strand) (r : Nat) (w : Word) : (st.setS r w).l0 = st.l0 := rfl
@[simp] theorem Strand.setP_l0 (st : Strand) (p : Nat) (m val : Mask) : (st.setP p m val).l0 = st.l0 := by unfold Strand.setP; split <;> rfl
@[simp] theorem Strand.setPath_l0 (st : Strand) (i : Nat) (p : Path) : (st.setPath i p).l0 = st.l0 := by unfold Strand.setPath; split <;> rfl
@[simp] theorem Strand.setV_l1 (st : Strand) (r t : Nat) (w : Word) : (st.setV r t w).l1 = st.l1 := rfl
@[simp] theorem Strand.setS_l1 (st : Strand) (r : Nat) (w : Word) : (st.setS r w).l1 = st.l1 := rfl
@[simp] theorem Strand.setP_l1 (st : Strand) (p : Nat) (m val : Mask) : (st.setP p m val).l1 = st.l1 := by unfold Strand.setP; split <;> rfl
@[simp] theorem Strand.setPath_l1 (st : Strand) (i : Nat) (p : Path) : (st.setPath i p).l1 = st.l1 := by unfold Strand.setPath; split <;> rfl
@[simp] theorem Strand.setV_fl0 (st : Strand) (r t : Nat) (w : Word) : (st.setV r t w).fl0 = st.fl0 := rfl
@[simp] theorem Strand.setS_fl0 (st : Strand) (r : Nat) (w : Word) : (st.setS r w).fl0 = st.fl0 := rfl
@[simp] theorem Strand.setP_fl0 (st : Strand) (p : Nat) (m val : Mask) : (st.setP p m val).fl0 = st.fl0 := by unfold Strand.setP; split <;> rfl
@[simp] theorem Strand.setPath_fl0 (st : Strand) (i : Nat) (p : Path) : (st.setPath i p).fl0 = st.fl0 := by unfold Strand.setPath; split <;> rfl
@[simp] theorem Strand.setV_fl1 (st : Strand) (r t : Nat) (w : Word) : (st.setV r t w).fl1 = st.fl1 := rfl
@[simp] theorem Strand.setS_fl1 (st : Strand) (r : Nat) (w : Word) : (st.setS r w).fl1 = st.fl1 := rfl
@[simp] theorem Strand.setP_fl1 (st : Strand) (p : Nat) (m val : Mask) : (st.setP p m val).fl1 = st.fl1 := by unfold Strand.setP; split <;> rfl
@[simp] theorem Strand.setPath_fl1 (st : Strand) (i : Nat) (p : Path) : (st.setPath i p).fl1 = st.fl1 := by unfold Strand.setPath; split <;> rfl
@[simp] theorem Strand.setV_srgCount (st : Strand) (r t : Nat) (w : Word) : (st.setV r t w).srgCount = st.srgCount := rfl
@[simp] theorem Strand.setS_srgCount (st : Strand) (r : Nat) (w : Word) : (st.setS r w).srgCount = st.srgCount := rfl
@[simp] theorem Strand.setP_srgCount (st : Strand) (p : Nat) (m val : Mask) : (st.setP p m val).srgCount = st.srgCount := by unfold Strand.setP; split <;> rfl
@[simp] theorem Strand.setPath_srgCount (st : Strand) (i : Nat) (p : Path) : (st.setPath i p).srgCount = st.srgCount := by unfold Strand.setPath; split <;> rfl
@[simp] theorem Strand.setV_pending (st : Strand) (r t : Nat) (w : Word) : (st.setV r t w).pending = st.pending := rfl
@[simp] theorem Strand.setS_pending (st : Strand) (r : Nat) (w : Word) : (st.setS r w).pending = st.pending := rfl
@[simp] theorem Strand.setP_pending (st : Strand) (p : Nat) (m val : Mask) : (st.setP p m val).pending = st.pending := by unfold Strand.setP; split <;> rfl
@[simp] theorem Strand.setPath_pending (st : Strand) (i : Nat) (p : Path) : (st.setPath i p).pending = st.pending := by unfold Strand.setPath; split <;> rfl
@[simp] theorem Strand.setV_rsel (st : Strand) (r t : Nat) (w : Word) : (st.setV r t w).rsel = st.rsel := rfl
@[simp] theorem Strand.setS_rsel (st : Strand) (r : Nat) (w : Word) : (st.setS r w).rsel = st.rsel := rfl
@[simp] theorem Strand.setP_rsel (st : Strand) (p : Nat) (m val : Mask) : (st.setP p m val).rsel = st.rsel := by unfold Strand.setP; split <;> rfl
@[simp] theorem Strand.setPath_rsel (st : Strand) (i : Nat) (p : Path) : (st.setPath i p).rsel = st.rsel := by unfold Strand.setPath; split <;> rfl
@[simp] theorem Strand.setV_latch (st : Strand) (r t : Nat) (w : Word) : (st.setV r t w).latch = st.latch := rfl
@[simp] theorem Strand.setS_latch (st : Strand) (r : Nat) (w : Word) : (st.setS r w).latch = st.latch := rfl
@[simp] theorem Strand.setP_latch (st : Strand) (p : Nat) (m val : Mask) : (st.setP p m val).latch = st.latch := by unfold Strand.setP; split <;> rfl
@[simp] theorem Strand.setPath_latch (st : Strand) (i : Nat) (p : Path) : (st.setPath i p).latch = st.latch := by unfold Strand.setPath; split <;> rfl
@[simp] theorem Strand.setV_targets (st : Strand) (r t : Nat) (w : Word) : (st.setV r t w).targets = st.targets := rfl
@[simp] theorem Strand.setS_targets (st : Strand) (r : Nat) (w : Word) : (st.setS r w).targets = st.targets := rfl
@[simp] theorem Strand.setP_targets (st : Strand) (p : Nat) (m val : Mask) : (st.setP p m val).targets = st.targets := by unfold Strand.setP; split <;> rfl
@[simp] theorem Strand.setPath_targets (st : Strand) (i : Nat) (p : Path) : (st.setPath i p).targets = st.targets := by unfold Strand.setPath; split <;> rfl
@[simp] theorem Strand.setV_mode (st : Strand) (r t : Nat) (w : Word) : (st.setV r t w).mode = st.mode := rfl
@[simp] theorem Strand.setS_mode (st : Strand) (r : Nat) (w : Word) : (st.setS r w).mode = st.mode := rfl
@[simp] theorem Strand.setP_mode (st : Strand) (p : Nat) (m val : Mask) : (st.setP p m val).mode = st.mode := by unfold Strand.setP; split <;> rfl
@[simp] theorem Strand.setPath_mode (st : Strand) (i : Nat) (p : Path) : (st.setPath i p).mode = st.mode := by unfold Strand.setPath; split <;> rfl
@[simp] theorem Strand.setV_stopReq (st : Strand) (r t : Nat) (w : Word) : (st.setV r t w).stopReq = st.stopReq := rfl
@[simp] theorem Strand.setS_stopReq (st : Strand) (r : Nat) (w : Word) : (st.setS r w).stopReq = st.stopReq := rfl
@[simp] theorem Strand.setP_stopReq (st : Strand) (p : Nat) (m val : Mask) : (st.setP p m val).stopReq = st.stopReq := by unfold Strand.setP; split <;> rfl
@[simp] theorem Strand.setPath_stopReq (st : Strand) (i : Nat) (p : Path) : (st.setPath i p).stopReq = st.stopReq := by unfold Strand.setPath; split <;> rfl
@[simp] theorem Strand.setV_stepFlag (st : Strand) (r t : Nat) (w : Word) : (st.setV r t w).stepFlag = st.stepFlag := rfl
@[simp] theorem Strand.setS_stepFlag (st : Strand) (r : Nat) (w : Word) : (st.setS r w).stepFlag = st.stepFlag := rfl
@[simp] theorem Strand.setP_stepFlag (st : Strand) (p : Nat) (m val : Mask) : (st.setP p m val).stepFlag = st.stepFlag := by unfold Strand.setP; split <;> rfl
@[simp] theorem Strand.setPath_stepFlag (st : Strand) (i : Nat) (p : Path) : (st.setPath i p).stepFlag = st.stepFlag := by unfold Strand.setPath; split <;> rfl
@[simp] theorem Strand.setV_stepping (st : Strand) (r t : Nat) (w : Word) : (st.setV r t w).stepping = st.stepping := rfl
@[simp] theorem Strand.setS_stepping (st : Strand) (r : Nat) (w : Word) : (st.setS r w).stepping = st.stepping := rfl
@[simp] theorem Strand.setP_stepping (st : Strand) (p : Nat) (m val : Mask) : (st.setP p m val).stepping = st.stepping := by unfold Strand.setP; split <;> rfl
@[simp] theorem Strand.setPath_stepping (st : Strand) (i : Nat) (p : Path) : (st.setPath i p).stepping = st.stepping := by unfold Strand.setPath; split <;> rfl
@[simp] theorem Strand.setV_deferred (st : Strand) (r t : Nat) (w : Word) : (st.setV r t w).deferred = st.deferred := rfl
@[simp] theorem Strand.setS_deferred (st : Strand) (r : Nat) (w : Word) : (st.setS r w).deferred = st.deferred := rfl
@[simp] theorem Strand.setP_deferred (st : Strand) (p : Nat) (m val : Mask) : (st.setP p m val).deferred = st.deferred := by unfold Strand.setP; split <;> rfl
@[simp] theorem Strand.setPath_deferred (st : Strand) (i : Nat) (p : Path) : (st.setPath i p).deferred = st.deferred := by unfold Strand.setPath; split <;> rfl
@[simp] theorem Strand.setV_killed (st : Strand) (r t : Nat) (w : Word) : (st.setV r t w).killed = st.killed := rfl
@[simp] theorem Strand.setS_killed (st : Strand) (r : Nat) (w : Word) : (st.setS r w).killed = st.killed := rfl
@[simp] theorem Strand.setP_killed (st : Strand) (p : Nat) (m val : Mask) : (st.setP p m val).killed = st.killed := by unfold Strand.setP; split <;> rfl
@[simp] theorem Strand.setPath_killed (st : Strand) (i : Nat) (p : Path) : (st.setPath i p).killed = st.killed := by unfold Strand.setPath; split <;> rfl
@[simp] theorem Strand.setV_recov (st : Strand) (r t : Nat) (w : Word) : (st.setV r t w).recov = st.recov := rfl
@[simp] theorem Strand.setS_recov (st : Strand) (r : Nat) (w : Word) : (st.setS r w).recov = st.recov := rfl
@[simp] theorem Strand.setP_recov (st : Strand) (p : Nat) (m val : Mask) : (st.setP p m val).recov = st.recov := by unfold Strand.setP; split <;> rfl
@[simp] theorem Strand.setPath_recov (st : Strand) (i : Nat) (p : Path) : (st.setPath i p).recov = st.recov := by unfold Strand.setPath; split <;> rfl

@[simp] theorem Strand.path_setPath (st : Strand) (i : Nat) (p : Path) : (st.setPath i p).path i = p := by
  by_cases h : i = 1 <;> simp [Strand.path, Strand.setPath, h]
@[simp] theorem Strand.setPath_setPath (st : Strand) (i : Nat) (p q : Path) : (st.setPath i p).setPath i q = st.setPath i q := by
  by_cases h : i = 1 <;> simp [Strand.setPath, h]

/-- Vector registers read back as written, each thread on its own (threads are numbered below 32). -/
theorem Strand.vreg_setV (st : Strand) (r t r' t' : Nat) (w : Word) (h : t < 32) (h' : t' < 32) :
    (st.setV r t w).vreg r' t' = if r' = r ∧ t' = t then w else st.vreg r' t' := by
  simp only [Strand.vreg, Strand.setV, rd_wr]
  have : (r' * 32 + t' = r * 32 + t) ↔ (r' = r ∧ t' = t) := by omega
  simp [this]
@[simp] theorem Strand.vreg_setS (st : Strand) (r : Nat) (w : Word) (r' t' : Nat) : (st.setS r w).vreg r' t' = st.vreg r' t' := rfl
@[simp] theorem Strand.vreg_setPath (st : Strand) (i : Nat) (p : Path) (r' t' : Nat) : (st.setPath i p).vreg r' t' = st.vreg r' t' := by
  simp [Strand.vreg]
@[simp] theorem Strand.vreg_setP (st : Strand) (p : Nat) (m val : Mask) (r' t' : Nat) : (st.setP p m val).vreg r' t' = st.vreg r' t' := by
  simp [Strand.vreg]
theorem Strand.sreg_setS (st : Strand) (r r' : Nat) (w : Word) : (st.setS r w).sreg r' = if r' = r then w else st.sreg r' := rd_wr _ _ _ _ _
@[simp] theorem Strand.sreg_setV (st : Strand) (r t : Nat) (w : Word) (r' : Nat) : (st.setV r t w).sreg r' = st.sreg r' := rfl
@[simp] theorem Strand.sreg_setPath (st : Strand) (i : Nat) (p : Path) (r' : Nat) : (st.setPath i p).sreg r' = st.sreg r' := by
  simp [Strand.sreg]
@[simp] theorem Strand.sreg_setP (st : Strand) (p : Nat) (m val : Mask) (r' : Nat) : (st.setP p m val).sreg r' = st.sreg r' := by
  simp [Strand.sreg]
/-- p0 stays as it is; another predicate changes for the threads of the mask (05 R97). -/
theorem Strand.pmask_setP (st : Strand) (p q : Nat) (m val : Mask) :
    (st.setP p m val).pmask q = if q = p ∧ p ≠ 0 then (st.pmask p &&& ~~~m) ||| (val &&& m) else st.pmask q := by
  by_cases hp : p = 0
  · simp [Strand.setP, hp]
  · by_cases hq : q = p
    · subst hq; simp [Strand.setP, Strand.pmask, hp]
    · by_cases h0 : q = 0
      · have : ¬0 = p := fun h => hp h.symm
        simp [Strand.pmask, h0, this]
      · simp [Strand.setP, Strand.pmask, hp, hq, h0, rd_wr]
@[simp] theorem Strand.pmask_setV (st : Strand) (r t : Nat) (w : Word) (q : Nat) : (st.setV r t w).pmask q = st.pmask q := rfl
@[simp] theorem Strand.pmask_setS (st : Strand) (r : Nat) (w : Word) (q : Nat) : (st.setS r w).pmask q = st.pmask q := rfl
@[simp] theorem Strand.pmask_setPath (st : Strand) (i : Nat) (p : Path) (q : Nat) : (st.setPath i p).pmask q = st.pmask q := by
  simp [Strand.pmask]

end Sys2Proof.Machine
end

