-- ==== Sys2Proof/Laws/Issue.lean ====
section
/-!
SUPPORT. Sys2Proof/Laws/Issue.lean: what the shared operations of issue do: the body of an instruction that issues runs from the
state its energy has been charged to; the ordinary end of an instruction retires it; group writes write what they say.
-/

namespace Sys2Proof.Machine

/-- What the path that issues i is: its strand, as its run begins, its gang, its run, and the threads i acts for. -/
theorem envOf_eq {i : Instr} {s : State} {e : Env} {r : Run} (h : envOf i s = some (e, r)) :
    s.cur = some (e.k, e.pi) ∧ (∃ st, s.strand e.k = some st ∧ s.gang st.gang = some e.g ∧
      e.st = st.setPath e.pi ((st.path e.pi).begun (s.core e.core) e.g.task.ctx)) ∧
      e.p = e.st.path e.pi ∧ e.p.run = some r ∧ e.i = i ∧ e.act = actOf i e.st e.p := by
  unfold envOf at h
  split at h
  · cases h
  · rename_i k pi hc
    split at h
    · cases h
    · rename_i st hs
      split at h
      · cases h
      · rename_i g hg
        simp only [Option.map_eq_some_iff, Prod.mk.injEq] at h
        obtain ⟨r', hr, rfl, rfl⟩ := h
        refine ⟨hc, ⟨st, hs, hg, rfl⟩, rfl, ?_, rfl, rfl⟩
        simpa [envAt] using hr

@[simp] theorem begun_strand (s : State) (e : Env) : (begun s e).strand e.k = some e.st := State.strand_setStrand_same _ _ _

/-- An instruction that issues runs its body from the charged state. -/
theorem issue_body {i : Instr} {s : State} {e : Env} {r : Run} (body : Env → State → State) (h : Issues i s e r) :
    issue i s body = .next (body e (paid i e s)) := by
  obtain ⟨he, hr, hl, hb, hg, hd, hf, hp, hk, hw⟩ := h
  obtain ⟨-, -, -, -, hi, -⟩ := envOf_eq he
  have h1 : ¬ runLimit e.g.hdr.version < r.words + e.len := by omega
  have hgate : e.gate r (s.setStrand e.k e.st) = none := by
    have hl' : lookaheadHeld (s.setStrand e.k e.st) e.p e.len = false := hl
    have hb' : breakpoints (s.setStrand e.k e.st) e = [] := hb
    simp [Env.gate, h1, hl', hb']
  have hv : verdict (s.setStrand e.k e.st) e = .run := by
    have h2 : guardHeld (s.setStrand e.k e.st) e = false := hg
    have h3 : deferredStop (s.setStrand e.k e.st) e = none := hd
    have h4 : dependHeld (s.setStrand e.k e.st) e = false := hp
    have h5 : waits (s.setStrand e.k e.st) e = .go := hw
    simp [verdict, h2, h3, hf, h4, hk, h5]
  have hpay : e.pay (s.setStrand e.k e.st) = paid i e s := by subst hi; rfl
  unfold issue
  simp only [he, hgate, hv, hpay]

/-- Charging changes the energy accounts of one core and nothing else (14 R364). -/
theorem State.charge_eq (s : State) (core ctx cls n : Nat) : s.charge core ctx cls n = { s with cores := (s.charge core ctx cls n).cores } := by
  unfold State.charge
  split <;> rfl

theorem State.charge_core (s : State) (core ctx cls n c : Nat) :
    (s.charge core ctx cls n).core c =
      { s.core c with energy := ((s.charge core ctx cls n).core c).energy, charges := ((s.charge core ctx cls n).core c).charges } := by
  unfold State.charge
  split
  · rfl
  · simp only [State.onCore, State.core_setCore]
    split
    · subst c; rfl
    · rfl

theorem paid_eq (i : Instr) (e : Env) (s : State) : paid i e s = { begun s e with cores := (paid i e s).cores } := by
  unfold paid
  rw [State.charge_eq]
  rw [State.charge_eq (begun s e)]

@[simp] theorem begun_core (s : State) (e : Env) (c : Nat) : (begun s e).core c = s.core c := rfl

theorem paid_evc0 (i : Instr) (e : Env) (s : State) (c : Nat) : ((paid i e s).core c).evc0 = (s.core c).evc0 := by
  unfold paid
  rw [State.charge_core, State.charge_core (begun s e), begun_core]

theorem paid_strand (i : Instr) (e : Env) (s : State) (k : Nat) : (paid i e s).strand k = (begun s e).strand k := by
  rw [paid_eq]; rfl
@[simp] theorem paid_strand_same (i : Instr) (e : Env) (s : State) : (paid i e s).strand e.k = some e.st := by
  rw [paid_strand, begun_strand]
theorem paid_strand_other (i : Instr) (e : Env) (s : State) {k : Nat} (h : k ≠ e.k) : (paid i e s).strand k = s.strand k := by
  rw [paid_strand, begun, State.strand_setStrand]; simp [h]

/-- Writing a group of vector registers for the listed threads (05 R95). -/
theorem Strand.vreg_setGroup (n : Nat) (st : Strand) (d t v c t' : Nat) (h : t < 32) (h' : t' < 32) :
    (st.setGroup d n t v).vreg c t' = if t' = t ∧ d ≤ c ∧ c < d + n then BitVec.ofNat 32 (v / 2 ^ (32 * (c - d))) else st.vreg c t' := by
  induction n generalizing st d v with
  | zero => simp only [Strand.setGroup, Nat.add_zero]; rw [if_neg (by omega)]
  | succ n ih =>
    rw [Strand.setGroup, ih, Strand.vreg_setV _ _ _ _ _ _ h h']
    by_cases ht : t' = t
    · subst ht
      by_cases hc : c = d
      · subst hc; simp
      · by_cases hr : d ≤ c ∧ c < d + (n + 1)
        · have h1 : d + 1 ≤ c ∧ c < d + 1 + n := by omega
          have h2 : 32 * (c - d) = 32 + 32 * (c - (d + 1)) := by omega
          simp [hr, h1, h2, Nat.pow_add, Nat.div_div_eq_div_mul]
        · have h1 : ¬ (d + 1 ≤ c ∧ c < d + 1 + n) := by omega
          simp only [hr, h1, hc, and_false, false_and, if_false]
    · simp [ht]

theorem Strand.setGroup_rest (n : Nat) (st : Strand) (d t v : Nat) : st.setGroup d n t v = { st with v := (st.setGroup d n t v).v } := by
  induction n generalizing st d v with
  | zero => rfl
  | succ n ih => rw [Strand.setGroup, ih]; rfl

theorem Strand.setEachGroup_rest (ts : List Nat) (st : Strand) (d n : Nat) (f : Nat → Nat) :
    st.setEachGroup d n ts f = { st with v := (st.setEachGroup d n ts f).v } := by
  unfold Strand.setEachGroup
  induction ts generalizing st with
  | nil => rfl
  | cons t ts ih => rw [List.foldl_cons, ih, Strand.setGroup_rest]

theorem Strand.vreg_setEachGroup (ts : List Nat) (st : Strand) (d n : Nat) (f : Nat → Nat) (c t' : Nat)
    (hts : ∀ t ∈ ts, t < 32) (h' : t' < 32) :
    (st.setEachGroup d n ts f).vreg c t' =
      if t' ∈ ts ∧ d ≤ c ∧ c < d + n then BitVec.ofNat 32 (f t' / 2 ^ (32 * (c - d))) else st.vreg c t' := by
  unfold Strand.setEachGroup
  induction ts generalizing st with
  | nil => simp
  | cons t ts ih =>
    rw [List.foldl_cons, ih _ (fun x hx => hts x (List.mem_cons_of_mem _ hx)), Strand.vreg_setGroup n st d t (f t) c t' (hts t List.mem_cons_self) h']
    by_cases ht : t' = t
    · subst ht; by_cases hr : d ≤ c ∧ c < d + n <;> simp [hr]
    · simp [ht]

theorem Strand.setSGroup_rest (n : Nat) (st : Strand) (d v : Nat) : st.setSGroup d n v = { st with s := (st.setSGroup d n v).s } := by
  induction n generalizing st d v with
  | zero => rfl
  | succ n ih => rw [Strand.setSGroup, ih]; rfl

theorem Strand.sreg_setSGroup (n : Nat) (st : Strand) (d v c : Nat) :
    (st.setSGroup d n v).sreg c = if d ≤ c ∧ c < d + n then BitVec.ofNat 32 (v / 2 ^ (32 * (c - d))) else st.sreg c := by
  induction n generalizing st d v with
  | zero => simp only [Strand.setSGroup, Nat.add_zero]; rw [if_neg (by omega)]
  | succ n ih =>
    rw [Strand.setSGroup, ih, Strand.sreg_setS]
    by_cases hc : c = d
    · subst hc; simp
    · by_cases hr : d ≤ c ∧ c < d + (n + 1)
      · have h1 : d + 1 ≤ c ∧ c < d + 1 + n := by omega
        have h2 : 32 * (c - d) = 32 + 32 * (c - (d + 1)) := by omega
        simp [hr, h1, h2, Nat.pow_add, Nat.div_div_eq_div_mul]
      · have h1 : ¬ (d + 1 ≤ c ∧ c < d + 1 + n) := by omega
        simp only [hr, h1, hc, if_false]

theorem mem_active {m : Mask} {t : Nat} : t ∈ active m ↔ t < 32 ∧ has m t = true := by
  unfold active
  rw [List.mem_filter]
  have : t ∈ threads ↔ t < 32 := by
    unfold threads
    constructor
    · intro h; simp at h; omega
    · intro h; interval_cases t <;> simp
  rw [this]

theorem Strand.noteStep_eq (st : Strand) (pi : Nat) : st.noteStep pi = { st with stepping := (st.noteStep pi).stepping } := by
  unfold Strand.noteStep; split <;> rfl
@[simp] theorem Strand.noteStep_path (st : Strand) (pi j : Nat) : (st.noteStep pi).path j = st.path j := by
  rw [Strand.noteStep_eq]; rfl
theorem Strand.setPath_eq (st : Strand) (i : Nat) (p : Path) :
    st.setPath i p = { st with path0 := (st.setPath i p).path0, path1 := (st.setPath i p).path1 } := by
  unfold Strand.setPath; split <;> rfl
theorem State.countEvent_eq (s : State) (c w : Nat) : s.countEvent c w = { s with cores := (s.countEvent c w).cores } := rfl
theorem State.countEvent_core (s : State) (c n : Nat) :
    (s.countEvent c 0).core n = { s.core n with evc0 := ((s.countEvent c 0).core n).evc0 } := by
  simp only [State.countEvent, State.onCore, State.core_setCore]
  split
  · subst n; rfl
  · rfl
theorem State.countEvent_core_other (s : State) {c n : Nat} (w : Nat) (h : n ≠ c) : (s.countEvent c w).core n = s.core n := by
  simp only [State.countEvent, State.onCore, State.core_setCore, h, if_false]
theorem State.uncur_eq (s : State) (k pi : Nat) : s.uncur k pi = { s with cur := (s.uncur k pi).cur } := by
  unfold State.uncur; split <;> rfl

/-- The end of an instruction retires it. -/
theorem finish_retires {u : State} {e : Env} {r : Run} (jump : Option Word) (ends : Bool) {st1 : Strand}
    (hc : u.cur = some (e.k, e.pi)) (hs : u.strand e.k = some st1) (hr : (st1.path e.pi).run = some r)
    (hst : st1.stepping = e.st.stepping) :
    Retires u (e.finish jump ends u) e r jump ends st1 ((st1.noteStep e.pi).setPath e.pi (e.pathAfter r jump ends (st1.path e.pi))) := by
  have hpast : (st1.path e.pi).past e.len jump (e.runEnds r ends) = e.pathAfter r jump ends (st1.path e.pi) := by
    unfold Path.past Env.pathAfter
    simp only [hr, Option.map_some]
    cases (st1.path e.pi).reissue <;> rfl
  let s1 := u.setStrand e.k ((st1.noteStep e.pi).setPath e.pi (e.pathAfter r jump ends (st1.path e.pi)))
  let forced := decide (runLimit e.g.hdr.version ≤ r.words + e.len)
  let s2 := if forced && !ends && !boundary e.i then s1.countEvent e.core 0 else s1
  have hfin : e.finish jump ends u = if e.runEnds r ends then s2.uncur e.k e.pi else s2 := by
    unfold Env.finish
    simp only [hs, hr, hst]
    simp only [s2, s1, forced, ← hpast, Env.runEnds]
  have hcore2 : ∀ c, s2.core c = { u.core c with evc0 := (s2.core c).evc0 } := by
    intro c
    simp only [s2]
    split
    · rw [State.countEvent_core]; simp only [s1, State.core_of_setStrand]
    · simp only [s1, State.core_of_setStrand]
  have hcnt : ∀ c, (c ≠ e.core ∨ runLimit e.g.hdr.version > r.words + e.len) → (s2.core c).evc0 = (u.core c).evc0 := by
    intro c hcc
    simp only [s2]
    split
    · rename_i hf
      have hne : c ≠ e.core := by
        rcases hcc with h1 | h1
        · exact h1
        · simp [forced] at hf; omega
      rw [State.countEvent_core_other _ _ hne]; simp only [s1, State.core_of_setStrand]
    · simp only [s1, State.core_of_setStrand]
  have hrest2 : s2 = { u with strands := s1.strands, cores := s2.cores } := by
    simp only [s2]
    split <;> rfl
  have hs2 : s2.strands = s1.strands := by rw [hrest2]
  have hs2c : s2.cur = u.cur := by rw [hrest2]
  have hend : ∀ t, t = (if e.runEnds r ends then s2.uncur e.k e.pi else s2) →
      t.strands = s1.strands ∧ t.cores = s2.cores ∧ t.cur = (if e.runEnds r ends then none else some (e.k, e.pi)) ∧
        t = { u with strands := t.strands, cores := t.cores, cur := t.cur } := by
    rintro t rfl
    split
    · have hcur' : (s2.uncur e.k e.pi).cur = none := by simp [State.uncur, hs2c, hc]
      rw [State.uncur_eq, hcur']
      refine ⟨hs2, rfl, rfl, ?_⟩
      simp only
      rw [hrest2]
    · refine ⟨hs2, rfl, by rw [hs2c, hc], ?_⟩
      conv_lhs => rw [hrest2]
      simp only [hs2, hs2c]
  obtain ⟨hts, htc, htl, htp⟩ := hend _ hfin
  have hk1 : ∀ k, (e.finish jump ends u).strand k = s1.strand k := by intro k; unfold State.strand; rw [hts]
  constructor
  · exact hs
  · rw [hk1]; exact State.strand_setStrand_same u e.k _
  · simp
  · intro hpi
    rcases hpi with h0 | h0 <;> simp [h0, Strand.setPath, Strand.path] <;> (rw [Strand.noteStep_eq])
  · rw [Strand.setPath_eq, Strand.noteStep_eq]
  · intro k hk
    rw [hk1, State.strand_setStrand]; simp [hk]
  · intro c; unfold State.core; rw [htc]; exact hcore2 c
  · intro c hcc; unfold State.core; rw [htc]; exact hcnt c hcc
  · exact htl
  · exact htp

/-- Writing the destination group of an ALU form. -/
theorem Env.put_strand (e : Env) (x : BitVec 1) (d : BitVec 7) (n : Nat) (f : Nat → Nat) (s : State) (st : Strand)
    (h : s.strand e.k = some st) :
    e.put x d n f s = s.setStrand e.k (if x == 1 then st.setSGroup d.toNat n (f (lowest e.act)) else st.setEachGroup d.toNat n e.ts f) := by
  simp [Env.put, State.onStrand, h]

theorem onlyStrand_setStrand (s : State) (k : Nat) (st : Strand) : OnlyStrand s (s.setStrand k st) k st :=
  ⟨State.strand_setStrand_same _ _ _, fun j hj => by rw [State.strand_setStrand]; simp [hj], rfl⟩

/-- An instruction whose body leaves one strand changed and ends in the ordinary way computes. -/
theorem computes_of {i : Instr} {s : State} {e : Env} {r : Run} {nfr : Word} {what : Strand → Strand → Prop} {st1 : Strand}
    (h : envOf i s = some (e, r)) (hx : exec i s = .next (e.next ((paid i e s).setStrand e.k st1)))
    (ho : OnlyRegs e.st st1 e.pi nfr) (hw : what e.st st1) : Computes i s e r nfr what := by
  obtain ⟨hc, -, hpp, hrun, -, -⟩ := envOf_eq h
  have hR := finish_retires (u := (paid i e s).setStrand e.k st1) (e := e) (r := r) none false (st1 := st1) ?_
    (State.strand_setStrand_same _ _ _) ?_ ?_
  · exact ⟨_, _, st1, _, hx, onlyStrand_setStrand _ _ _, ho, hw, hR⟩
  · rw [State.setStrand_cur, paid_eq]; exact hc
  · rw [ho.path, ← hpp]; exact hrun
  · rw [ho.rest]

/-- The strand that a group write leaves. -/
theorem put_onlyRegs (st : Strand) (pi : Nat) (x : BitVec 1) (d n : Nat) (act : Mask) (f : Nat → Nat) :
    OnlyRegs st (if x == 1 then st.setSGroup d n (f (lowest act)) else st.setEachGroup d n (active act) f) pi (st.path pi).nfr := by
  split
  · refine ⟨?_, ?_, ?_⟩ <;> (intros; rw [Strand.setSGroup_rest]) <;> rfl
  · refine ⟨?_, ?_, ?_⟩ <;> (intros; rw [Strand.setEachGroup_rest]) <;> rfl

theorem put_writes (st : Strand) (x : BitVec 1) (d n : Nat) (act : Mask) (f : Nat → Nat) :
    Writes x st (if x == 1 then st.setSGroup d n (f (lowest act)) else st.setEachGroup d n (active act) f) act d n f := by
  unfold Writes
  by_cases hx : x = 1
  · simp only [hx, if_true, beq_self_eq_true]
    refine ⟨fun c => Strand.sreg_setSGroup _ _ _ _ _, fun c t _ => ?_, fun p => ?_⟩ <;> rw [Strand.setSGroup_rest] <;> rfl
  · have hb : ¬ (x == 1) = true := by simpa using hx
    rw [if_neg hx, if_neg hb]
    refine ⟨fun c t ht => ?_, fun c => ?_, fun p => ?_⟩
    · rw [Strand.vreg_setEachGroup _ _ _ _ _ _ _ (fun t ht => (mem_active.1 ht).1) ht]
      simp [mem_active, ht]
    · rw [Strand.setEachGroup_rest]; rfl
    · rw [Strand.setEachGroup_rest]; rfl

/-- No long accumulator changes in a group write. -/
theorem put_accs (st : Strand) (x : BitVec 1) (d n : Nat) (act : Mask) (f : Nat → Nat) :
    SameAccs st (if x == 1 then st.setSGroup d n (f (lowest act)) else st.setEachGroup d n (active act) f) := by
  split
  · refine ⟨?_, ?_, ?_, ?_⟩ <;> rw [Strand.setSGroup_rest]
  · refine ⟨?_, ?_, ?_, ?_⟩ <;> rw [Strand.setEachGroup_rest]

/-- The body `put` then `next` computes: it writes its destination group and nothing else. -/
theorem put_computes {i : Instr} {s : State} {e : Env} {r : Run} (h : envOf i s = some (e, r)) (x : BitVec 1) (d : BitVec 7) (n : Nat)
    (f : Nat → Nat) (hx : exec i s = .next (e.next (e.put x d n f (paid i e s)))) :
    Computes i s e r e.p.nfr fun st st' => Writes x st st' e.act d.toNat n f ∧ SameAccs st st' := by
  obtain ⟨-, -, hpp, -, -, -⟩ := envOf_eq h
  rw [Env.put_strand e x d n f (paid i e s) e.st (paid_strand_same _ _ _)] at hx
  refine computes_of h hx ?_ ⟨put_writes _ _ _ _ _ _, put_accs _ _ _ _ _ _⟩
  rw [hpp]
  exact put_onlyRegs _ _ _ _ _ _ _

/-- Group writes agree where the words they write agree. -/
theorem Writes.congr {x : BitVec 1} {st st' : Strand} {act : Mask} {d n : Nat} {f g : Nat → Nat}
    (h : ∀ t j, j < n → BitVec.ofNat 32 (f t / 2 ^ (32 * j)) = BitVec.ofNat 32 (g t / 2 ^ (32 * j)))
    (w : Writes x st st' act d n f) : Writes x st st' act d n g := by
  unfold Writes at *
  by_cases hx : x = 1
  · rw [if_pos hx] at *
    refine ⟨fun c => ?_, w.vec, w.pred⟩
    rw [w.uni]
    split
    · rename_i hc; rw [h _ _ (by omega)]
    · rfl
  · rw [if_neg hx] at *
    refine ⟨fun c t ht => ?_, w.uni, w.pred⟩
    rw [w.vec c t ht]
    split
    · rename_i hc; rw [h _ _ (by omega)]
    · rfl

/-- An instruction that is issued with a body of `put` and `next` computes what it puts. -/
theorem Issues.computes {i : Instr} {s : State} {e : Env} {r : Run} (h : Issues i s e r) (x : BitVec 1) (d : BitVec 7) (n : Env → Nat)
    (f : Env → Nat → Nat) (hx : exec i s = issue i s fun e s => e.next (e.put x d (n e) (f e) s)) :
    Computes i s e r e.p.nfr fun st st' => Writes x st st' e.act d.toNat (n e) (f e) ∧ SameAccs st st' := by
  rw [issue_body _ h] at hx
  exact put_computes h.1 x d _ _ hx

end Sys2Proof.Machine
end

