-- ==== Sys2Proof/Laws/Stops.lean ====
section
/-!
SUPPORT. Sys2Proof/Laws/Stops.lean: what the other ends of an instruction do, each said once: a stop of its path, a wait, the start of an
operation in flight.
-/

namespace Sys2Proof.Machine

theorem Strand.path_one (st : Strand) : st.path 1 = st.path1 := rfl
theorem Strand.path_ne_one (st : Strand) {i : Nat} (h : i ≠ 1) : st.path i = st.path0 := by simp [Strand.path, h]
theorem Strand.path_setPath_other (st : Strand) {i j : Nat} (p : Path) (h : (i = 1 ∧ j ≠ 1) ∨ (i ≠ 1 ∧ j = 1)) :
    (st.setPath i p).path j = st.path j := by
  rcases h with ⟨h, g⟩ | ⟨h, g⟩ <;> simp [Strand.path, Strand.setPath, h, g]

/-- A path that a fault has stopped. -/
def Path.stopped (p : Path) (f : PathFault) (resume : Word) : Path :=
  if p.stopsBefore f resume then { p.rewind with run := none, fault := some (p.fault.getD f) }
  else { p.rewind with
    run := none, pc := resume, reissue := none, half := p.reissue.any (·.half), awaits := none, fault := some (p.fault.getD f)
    act := match p.reissue with | some r => r.live | none => p.act }
/-- The strand a fault leaves stopped: its path with the fault, the other path without a run. -/
def Strand.stoppedBy (st : Strand) (pi : Nat) (f : PathFault) (resume : Word) (alone : Bool) : Strand :=
  let st1 := st.setPath pi ((st.path pi).stopped f resume)
  let st2 := if alone || !st.divided then st1 else st1.setPath (1 - pi) { (st1.path (1 - pi)).rewind with run := none }
  if alone then st2 else match st.mode with
    | .running => { st2 with mode := .stopping }
    | _ => st2

theorem Strand.stoppedBy_path (st : Strand) (pi : Nat) (f : PathFault) (resume : Word) (alone : Bool) :
    (st.stoppedBy pi f resume alone).path pi = (st.path pi).stopped f resume := by
  have hr : { ((st.path pi).stopped f resume).rewind with run := none } = (st.path pi).stopped f resume := by
    unfold Path.stopped; split <;> rfl
  unfold Strand.stoppedBy
  generalize (st.path pi).stopped f resume = p' at hr ⊢
  cases alone <;> cases hm : st.mode <;> cases hd : st.divided <;> by_cases hp : pi = 1 <;>
    simp [hp, Strand.path, Strand.setPath] <;> (by_cases hq : 1 - pi = 1 <;> simp [hq, hr])

theorem State.faultPath_eq {s : State} {k : Nat} {st : Strand} (pi : Nat) (f : PathFault) (resume : Word) (h : s.strand k = some st) :
    s.faultPath k pi f resume =
      { s.setStrand k (st.stoppedBy pi f resume
          (st.divided && (f.cause == 0xB0 || f.cause == 0xB1) && bits (s.core (coreOf k)).dbgctl.toNat 1 1 == 0)) with cur := none } := by
  simp only [State.faultPath, h]; rfl

/-- A step that leaves the strand a fault stops, and no path issuing, stops the path. -/
theorem stops_of {u t : State} {e : Env} {f : PathFault} {resume : Word} {alone : Bool} {st1 : Strand} (hs : u.strand e.k = some st1)
    (ht : t = { u.setStrand e.k (st1.stoppedBy e.pi f resume alone) with cur := none }) :
    Stops u t e f resume alone st1 (st1.stoppedBy e.pi f resume alone) := by
  subst ht
  refine ⟨hs, State.strand_setStrand_same _ _ _, ?_, ?_, ?_, ?_, ?_, rfl, rfl⟩
  · rw [Strand.stoppedBy_path]
    generalize st1.path e.pi = p
    have hact : (match p.reissue with | some r => r.live | none => p.act) = (p.reissue.map (·.live)).getD p.act := by cases p.reissue <;> rfl
    dsimp only
    rw [← hact]
    rfl
  · intro h
    unfold Strand.stoppedBy
    rcases h with hp | hp <;> cases alone <;> cases hm : st1.mode <;> cases hd : st1.divided <;>
      simp [hp, Strand.path, Strand.setPath, Path.rewind]
  · unfold Strand.stoppedBy
    cases alone <;> cases hm : st1.mode <;> cases hd : st1.divided <;> simp [hm]
  · unfold Strand.stoppedBy
    cases alone <;> cases hm : st1.mode <;> cases hd : st1.divided <;> by_cases hp : e.pi = 1 <;>
      simp [hm, hd, hp, Strand.path, Strand.setPath] <;> (by_cases hq : 1 - e.pi = 1 <;> simp [hq])
  · intro k hk
    show (u.setStrand e.k _).strand k = _
    rw [State.strand_setStrand]; simp [hk]

/-- A fault stops the path, and with it the strand, unless the path alone stops. -/
theorem faultPath_stops {u : State} {e : Env} {st1 : Strand} (f : PathFault) (resume : Word) (hs : u.strand e.k = some st1) :
    ∃ st', Stops u (u.faultPath e.k e.pi f resume) e f resume
      (st1.divided && (f.cause == 0xB0 || f.cause == 0xB1) && bits (u.core (coreOf e.k)).dbgctl.toNat 1 1 == 0) st1 st' :=
  ⟨_, stops_of hs (State.faultPath_eq e.pi f resume hs)⟩

/-- A fault raised for the whole strand stops it, and its path resumes after the instruction (14 R344). -/
theorem raise_stops {u : State} {e : Env} {st1 : Strand} (cause qual addr aux : Nat) (hs : u.strand e.k = some st1) (hc : cause ≠ 0xB0 ∧ cause ≠ 0xB1) :
    ∃ st', Stops u (e.raise u cause qual addr aux) e { cause, qual, emask := e.p.act, whole := true, pc := e.chain, addr, aux } e.after false st1 st' := by
  have h := faultPath_stops (u := u) (e := e) { cause, qual, emask := e.p.act, whole := true, pc := e.chain, addr, aux } e.after hs
  simp only [beq_eq_false_iff_ne.mpr hc.1, beq_eq_false_iff_ne.mpr hc.2, Bool.or_self, Bool.and_false, Bool.false_and] at h
  exact h

/-- A body that only raises a cause stops the strand from the charged state. -/
theorem Issues.raises {i : Instr} {s : State} {e : Env} {r : Run} {body : Env → State → State} (h : Issues i s e r)
    (hx : exec i s = issue i s body) (cause qual addr aux : Nat) (hb : body e (paid i e s) = e.raise (paid i e s) cause qual addr aux)
    (hc : cause ≠ 0xB0 ∧ cause ≠ 0xB1) :
    ∃ t st', exec i s = .next t ∧
      Stops (paid i e s) t e { cause, qual, emask := e.p.act, whole := true, pc := e.chain, addr, aux } e.after false e.st st' := by
  obtain ⟨st', hS⟩ := raise_stops (u := paid i e s) (e := e) cause qual addr aux (paid_strand_same _ _ _) hc
  exact ⟨_, st', by rw [hx, issue_body _ h, hb], hS⟩

/-- A wait ends the run before the chain's first word (12 R285): what a strand looks like then. -/
theorem hold_strand {u : State} {e : Env} {st1 : Strand} (hs : u.strand e.k = some st1) (hc : u.cur = some (e.k, e.pi)) :
    e.hold u = { u with strands := (e.hold u).strands, cur := none } ∧
      (e.hold u).strand e.k = some (st1.setPath e.pi { (st1.path e.pi).rewind with run := none }) ∧
      ∀ k, k ≠ e.k → (e.hold u).strand k = u.strand k := by
  have hh : e.hold u = { u.setStrand e.k (st1.setPath e.pi { (st1.path e.pi).rewind with run := none }) with cur := none } := by
    simp [Env.hold, State.endRun, State.onPath, State.onStrand, hs, State.uncur, hc]
  rw [hh]
  refine ⟨rfl, State.strand_setStrand_same _ _ _, fun k hk => ?_⟩
  show (u.setStrand e.k _).strand k = _
  rw [State.strand_setStrand]; simp [hk]

/-- Starting an operation adds it under the next number, and the path counts it as outstanding (03 R63; 06 R137). -/
theorem start_eq {u : State} {e : Env} {st1 : Strand} (o : Op) (hs : u.strand e.k = some st1) :
    e.start o u = (u.nextId,
      { u with
        ops := upd u.ops u.nextId (some { o with
          strand := e.k, gang := e.st.gang, ctx := e.ctx, core := e.core, path := e.opPath, pc := e.chain, mask := e.act, active := e.p.act
          named := e.vregsNamed, from1 := e.pi == 1, born := u.now })
        nextId := u.nextId + 1
        strands := upd u.strands e.k (some (st1.setPath e.pi { st1.path e.pi with
          outs := (st1.path e.pi).outs ++ [(u.nextId, (st1.path e.pi).words + e.len, lookahead e.i)] })) }) := by
  have h2 : ({ u with nextId := u.nextId + 1 } : State).strand e.k = some st1 := hs
  simp only [Env.start, State.fresh, State.onPath, State.onStrand, State.setOp, State.setStrand]
  show (_, match ({ u with ops := _, nextId := u.nextId + 1 } : State).strand e.k with | some st => _ | none => _) = _
  have h3 : ∀ (x : Tab Op), ({ u with ops := x, nextId := u.nextId + 1 } : State).strand e.k = some st1 := fun _ => hs
  rw [h3]


/-! Lengths of records and images -/

/-- A fault record has 128 bytes and an image 16,384 (14 R347, R353). -/
theorem leBytes_length (n v : Nat) : (leBytes n v).length = n := by
  induction n generalizing v with
  | zero => rfl
  | succ n ih => simp [leBytes, ih]
theorem faultRecord_length (s : State) (k : Nat) (st : Strand) (g : Gang) (pi : Nat) (f : PathFault) (host : Bool) : (faultRecord s k st g pi f host).length = 128 := by
  simp [faultRecord, leBytes_length, zeros, threads]
/-- Entries are put in order and none is lost (14 R353). -/
theorem insertEntry_length (x : StackEntry) (es : List StackEntry) : (insertEntry x es).length = es.length + 1 := by
  induction es with
  | nil => rfl
  | cons y ys ih => unfold insertEntry; split <;> simp [ih]
theorem ownEntries_length (st : Strand) : st.ownEntries.length = st.path0.stack.length + st.path1.stack.length := by
  have h : ∀ xs es : List StackEntry, (xs.foldl (fun es x => insertEntry x es) es).length = es.length + xs.length := by
    intro xs
    induction xs with
    | nil => intro es; rfl
    | cons x xs ih => intro es; rw [List.foldl_cons, ih, insertEntry_length, List.length_cons]; omega
  rw [Strand.ownEntries, h, List.length_append, List.length_reverse, List.length_reverse, List.length_nil, Nat.zero_add]
theorem image_length (st : Strand) (f0 f1 : List Byte) (h0 : f0.length = 128 ∨ f0 = []) (h1 : f1.length = 128 ∨ f1 = [])
    (hd : st.frozen.length + st.path0.stack.length + st.path1.stack.length ≤ 24) : (st.image f0 f1).length = 16384 := by
  have hr : ∀ f : List Byte, f.length = 128 ∨ f = [] → (if f.isEmpty then List.replicate 128 0 else f).length = 128 := by
    rintro f (h | rfl)
    · split
      · simp
      · exact h
    · simp
  have he : ∀ l : List StackEntry, (l.flatMap StackEntry.bytes).length = 16 * l.length := by
    intro l
    induction l with
    | nil => rfl
    | cons x xs ih => simp only [List.flatMap_cons, List.length_append, ih, StackEntry.bytes, leBytes_length, List.length_cons]; omega
  have hf : ∀ (l : List Nat) (k : Nat) (g : Nat → List Byte), (∀ i, (g i).length = k) → (l.flatMap g).length = l.length * k := by
    intro l k g hg
    induction l with
    | nil => simp
    | cons x xs ih => rw [List.flatMap_cons, List.length_append, ih, hg, List.length_cons, Nat.succ_mul, Nat.add_comm]
  have e0 : ∀ v : Nat, (leBytes 4 v).length = 4 := leBytes_length 4
  unfold Strand.image
  simp only [List.length_append, hr f0 h0, hr f1 h1, leBytes_length, he, zeros, List.length_replicate, List.length_reverse, ownEntries_length]
  rw [hf _ 8 _ (fun i => by simp only [List.length_append, e0]), hf _ 4 _ (fun i => e0 _), hf _ 4 _ (fun i => e0 _), hf _ 4 _ (fun i => e0 _), hf _ 128 _ (fun i => hf threads 4 _ fun j => e0 _)]
  simp only [List.length_range]
  omega

end Sys2Proof.Machine
end

