-- ==== Sys2Proof/Laws/Memory.lean ====
section
/-!
SUPPORT. Sys2Proof/Laws/Memory.lean: the operations on storage keep its canonical form (log 2, DESIGN CHOICE), and the operations that touch no storage leave
it as it is.
-/

namespace Sys2Proof.Machine

theorem wf_writeSome (bs : List Byte) (key : Nat → Option Nat) (m : List Host.Cell) (o : Nat) (h : Memory.wf m) : Memory.wf (writeSome m key o bs) := by
  induction bs generalizing m o with
  | nil => exact h
  | cons b bs ih =>
    simp only [writeSome]
    apply ih
    split
    · exact wf_writeByte _ _ _ h
    · exact h

theorem wf_hwWrite (s : State) (d ctx id o : Nat) (bs : List Byte) (h : Memory.wf s.mem) : Memory.wf (hwWrite s d ctx id o bs).mem := by
  unfold hwWrite
  split
  · exact h
  · exact wf_writeSome _ _ _ _ h

theorem wf_sysWrite (s : State) (p : Nat) (bs : List Byte) (h : Memory.wf s.mem) : Memory.wf (s.sysWrite p bs).mem := wf_writeBytes _ _ _ h

theorem wf_slotWrite (s : State) (g : Gang) (o : Nat) (bs : List Byte) (h : Memory.wf s.mem) : Memory.wf (s.slotWrite g o bs).mem := wf_hwWrite _ _ _ _ _ _ h

theorem wf_domainPut (s : State) (id o n v : Nat) (h : Memory.wf s.mem) : Memory.wf (s.domainPut id o n v).mem := wf_writeNat _ _ _ _ h

/-- A trace record joins those in flight in its die's unit (15 R380). -/
theorem State.trace_eq (s : State) (k pi kind : Nat) (pc mask aux : Word) : s.trace k pi kind pc mask aux = { s with dies := (s.trace k pi kind pc mask aux).dies } := by
  unfold State.trace
  split
  · rfl
  · dsimp only
    split
    · rfl
    · split
      · rfl
      · split <;> rfl
@[simp] theorem State.trace_mem (s : State) (k pi kind : Nat) (pc mask aux : Word) : (s.trace k pi kind pc mask aux).mem = s.mem := by rw [State.trace_eq]
theorem wf_writeTrace (s : State) (d : Nat) (r : List Byte) (h : Memory.wf s.mem) : Memory.wf (s.writeTrace d r).mem := by
  unfold State.writeTrace
  dsimp only
  split
  · exact h
  · split
    · exact h
    · exact wf_sysWrite _ _ _ h
/-- The trace units write whole bytes in their places. -/
theorem wf_drainTraces (s : State) (h : Memory.wf s.mem) : Memory.wf s.drainTraces.mem := by
  have hw : ∀ (d : Nat) (rs : List (List Byte)) (s : State), Memory.wf s.mem → Memory.wf (rs.foldl (fun s r => s.writeTrace d r) s).mem := by
    intro d rs
    induction rs with
    | nil => exact fun s h => h
    | cons r rs ih => exact fun s h => ih _ (wf_writeTrace s d r h)
  unfold State.drainTraces
  generalize s.dies = ds
  induction ds generalizing s with
  | nil => exact h
  | cons x xs ih =>
    rw [List.foldl_cons]
    apply ih
    split
    · exact h
    · exact hw _ _ _ h

@[simp] theorem State.onStrand_mem (s : State) (k : Nat) (f : Strand → Strand) : (s.onStrand k f).mem = s.mem := by
  unfold State.onStrand; split <;> rfl
@[simp] theorem State.onPath_mem (s : State) (k pi : Nat) (f : Path → Path) : (s.onPath k pi f).mem = s.mem := State.onStrand_mem _ _ _
@[simp] theorem State.onGang_mem (s : State) (n : Nat) (f : Gang → Gang) : (s.onGang n f).mem = s.mem := by
  unfold State.onGang; split <;> rfl
@[simp] theorem State.onCore_mem (s : State) (n : Nat) (f : Core → Core) : (s.onCore n f).mem = s.mem := rfl
@[simp] theorem State.onOp_mem (s : State) (n : Nat) (f : Op → Op) : (s.onOp n f).mem = s.mem := by
  unfold State.onOp; split <;> rfl
@[simp] theorem State.charge_mem (s : State) (core ctx cls n : Nat) : (s.charge core ctx cls n).mem = s.mem := by rw [State.charge_eq]
@[simp] theorem paid_mem (i : Instr) (e : Env) (s : State) : (paid i e s).mem = s.mem := by rw [paid_eq]; rfl
@[simp] theorem State.uncur_mem (s : State) (k pi : Nat) : (s.uncur k pi).mem = s.mem := by rw [State.uncur_eq]
@[simp] theorem State.endRun_mem (s : State) (k pi : Nat) : (s.endRun k pi).mem = s.mem := by simp [State.endRun]
@[simp] theorem State.faultPath_mem (s : State) (k pi : Nat) (f : PathFault) (resume : Word) : (s.faultPath k pi f resume).mem = s.mem := by
  cases h : s.strand k with
  | none => simp only [State.faultPath, h]
  | some st => rw [State.faultPath_eq pi f resume h]; rfl
@[simp] theorem Env.raise_mem (e : Env) (s : State) (cause qual addr aux : Nat) : (e.raise s cause qual addr aux).mem = s.mem := by simp [Env.raise]
@[simp] theorem Env.raisePath_mem (e : Env) (s : State) (cause qual addr : Nat) (resume : Word) : (e.raisePath s cause qual addr resume).mem = s.mem := by
  simp [Env.raisePath]
@[simp] theorem Env.hold_mem (e : Env) (s : State) : (e.hold s).mem = s.mem := by simp [Env.hold]
@[simp] theorem Env.stall_mem (e : Env) (s : State) : (e.stall s).mem = s.mem := by simp [Env.stall]
@[simp] theorem State.countEvent_mem (s : State) (c w : Nat) : (s.countEvent c w).mem = s.mem := rfl
@[simp] theorem Env.finish_mem (e : Env) (jump : Option Word) (ends : Bool) (s : State) : (e.finish jump ends s).mem = s.mem := by
  unfold Env.finish
  split
  · rfl
  · dsimp only
    split <;> split <;> split <;> simp
@[simp] theorem Env.next_mem (e : Env) (s : State) : (e.next s).mem = s.mem := Env.finish_mem _ _ _ _
@[simp] theorem Env.nextFault_mem (e : Env) (s : State) (cause qual : Nat) (m : Mask) (addr aux : Nat) : (e.nextFault s cause qual m addr aux).mem = s.mem := by
  unfold Env.nextFault; split <;> simp
@[simp] theorem Env.nextFailed_mem (e : Env) (s : State) (fs : List (Nat × Nat × Failed)) : (e.nextFailed s fs).mem = s.mem := by
  unfold Env.nextFailed; split <;> simp
@[simp] theorem Env.put_mem (e : Env) (x : BitVec 1) (d : BitVec 7) (n : Nat) (f : Nat → Nat) (s : State) : (e.put x d n f s).mem = s.mem := by
  simp [Env.put]
@[simp] theorem Env.start_mem (e : Env) (o : Op) (s : State) : (e.start o s).2.mem = s.mem := by
  simp [Env.start, State.fresh, State.setOp]
@[simp] theorem State.invalidate_mem (s : State) (core : Nat) (hit : Nat → Bool) (keep : Bool) : (s.invalidate core hit keep).mem = s.mem := rfl
@[simp] theorem State.acquire_mem (s : State) (core : Nat) : (s.acquire core).mem = s.mem := rfl
@[simp] theorem State.appendFault_mem (s : State) (ctx cause : Nat) (r : List Byte) (h : Bool) : (s.appendFault ctx cause r h).mem = s.mem := rfl
@[simp] theorem State.send_mem (s : State) (m : Msg) : (s.send m).mem = s.mem := rfl
@[simp] theorem State.submit_mem (s : State) (r : TakeReq) : (s.submit r).mem = s.mem := rfl
@[simp] theorem State.pin_mem (s : State) (ctx obj gen : Nat) : (s.pin ctx obj gen).mem = s.mem := rfl
@[simp] theorem State.unpin_mem (s : State) (ctx obj gen : Nat) : (s.unpin ctx obj gen).mem = s.mem := rfl
theorem wf_putEntry (s : State) (q : Nat) (r : QRec) (h : Memory.wf s.mem) : Memory.wf (s.putEntry q r).mem := by
  unfold State.putEntry
  rw [State.setQuad_mem]
  generalize s.entryKey q _ = key
  rw [show ∀ m, (s.setMem m).mem = m from fun _ => rfl]
  exact wf_writeBytes (keysFrom key 64) r.task.bytes s.mem h
theorem wf_enqueue (s : State) (q : Nat) (r : QRec) (h : Memory.wf s.mem) : Memory.wf (s.enqueue q r).mem := by
  unfold State.enqueue
  exact wf_putEntry s.fresh.2 q _ h
@[simp] theorem State.launchEnded_mem (s : State) (l : Nat) : (s.launchEnded l).mem = s.mem := by
  unfold State.launchEnded
  split
  · rfl
  · split <;> simp only [State.setPkg_mem]
@[simp] theorem State.postInterrupt_mem (s : State) (kind ctx info data : Nat) : (s.postInterrupt kind ctx info data).mem = s.mem := by
  unfold State.postInterrupt
  dsimp only
  split
  · rfl
  · split
    · split
      · rfl
      · rw [State.setPkg_mem]
    · rw [State.setPkg_mem]

theorem wf_freeDomain (s : State) (id : Nat) (h : Memory.wf s.mem) : Memory.wf (s.freeDomain id).mem := by
  unfold State.freeDomain; dsimp only; split
  · exact wf_domainPut _ _ _ _ _ h
  · exact h
theorem wf_domainReturned (s : State) (id ctx w : Nat) (broken : Bool) (h : Memory.wf s.mem) : Memory.wf (s.domainReturned id ctx w broken).mem := by
  unfold State.domainReturned; dsimp only; split
  · exact h
  · apply wf_freeDomain
    split <;> (repeat apply wf_domainPut) <;> exact h
theorem wf_spill (s : State) (r : QRec) (h : Memory.wf s.mem) : Memory.wf (s.spill r).mem := by
  unfold State.spill; dsimp only; split
  · exact h
  · exact wf_hwWrite _ _ _ _ _ _ (wf_hwWrite _ _ _ _ _ _ h)
theorem wf_reject (s : State) (t : Task) (origin addr cause qual : Nat) (h : Memory.wf s.mem) : Memory.wf (s.reject t origin addr cause qual).mem := by
  unfold State.reject
  dsimp only
  split_ifs <;> first
    | simpa using h
    | simpa using wf_domainReturned s t.domain t.ctx t.weight true h

@[simp] theorem Env.gate_mem {e : Env} {r : Run} {s s' : State} (h : e.gate r s = some s') : s'.mem = s.mem := by
  unfold Env.gate at h
  dsimp only at h
  split at h
  · cases h; simp
  · split at h
    · cases h; simp
    · split at h
      · cases h; simp
      · cases h

@[simp] theorem Env.payIdle_mem (e : Env) (skipped : Bool) (s : State) : (e.payIdle skipped s).mem = s.mem := by simp [Env.payIdle]
@[simp] theorem Env.await_mem (e : Env) (s : State) : (e.await s).mem = s.mem := by
  unfold Env.await
  dsimp only
  split <;> simp

/-- The body of an instruction decides its memory: holds, stops and ends touch none. -/
theorem wf_issue {i : Instr} {s t : State} {body : Env → State → State} (h : Memory.wf s.mem)
    (hb : ∀ e s, Memory.wf s.mem → Memory.wf (body e s).mem) (hx : issue i s body = .next t) : Memory.wf t.mem := by
  unfold issue at hx
  split at hx
  · cases hx
  · cases hx
    split
    · rename_i hg; rw [Env.gate_mem hg]; exact h
    · split
      · simpa using h
      · simpa using h
      · simpa using h
      · simpa using h
      · simpa using h
      · simpa using h
      · exact hb _ _ (by simpa [Env.pay] using h)

end Sys2Proof.Machine
end

