-- ==== Sys2Proof/Laws/PerInstr.lean ====
section
/-!
SUPPORT. Sys2Proof/Laws/PerInstr.lean: a law of the syntax, one lemma for each constructor: a well-formed instruction has a word. The steps
of the units have none, and are not well-formed as words.
-/

/-- A well-formed instruction has a word of encoding version 3 (06 R132, R143). -/
def Sys2Proof.Laws.Encoding.Statement (i : Sys2Proof.Instr) : Prop := i.wf = true → (Sys2Proof.encode i).isSome = true


theorem Sys2Proof.Laws.Encoding.iadd (z : BitVec 1) (d : BitVec 7) (a : BitVec 7) (b : BitVec 7) (x : BitVec 1) : Statement (.iadd z d a b x) := fun _ => rfl
theorem Sys2Proof.Laws.Encoding.isub (z : BitVec 1) (d : BitVec 7) (a : BitVec 7) (b : BitVec 7) (x : BitVec 1) : Statement (.isub z d a b x) := fun _ => rfl
theorem Sys2Proof.Laws.Encoding.imul (z : BitVec 1) (d : BitVec 7) (a : BitVec 7) (b : BitVec 7) (x : BitVec 1) : Statement (.imul z d a b x) := fun _ => rfl
theorem Sys2Proof.Laws.Encoding.imulh (z : BitVec 1) (d : BitVec 7) (a : BitVec 7) (b : BitVec 7) (x : BitVec 1) : Statement (.imulh z d a b x) := fun _ => rfl
theorem Sys2Proof.Laws.Encoding.imad (z : BitVec 1) (d : BitVec 7) (a : BitVec 7) (b : BitVec 7) (x : BitVec 1) : Statement (.imad z d a b x) := fun _ => rfl
theorem Sys2Proof.Laws.Encoding.min (z : BitVec 1) (d : BitVec 7) (a : BitVec 7) (b : BitVec 7) (x : BitVec 1) : Statement (.min z d a b x) := fun _ => rfl
theorem Sys2Proof.Laws.Encoding.max (z : BitVec 1) (d : BitVec 7) (a : BitVec 7) (b : BitVec 7) (x : BitVec 1) : Statement (.max z d a b x) := fun _ => rfl
theorem Sys2Proof.Laws.Encoding.lea (z : BitVec 1) (d : BitVec 7) (a : BitVec 7) (b : BitVec 7) (x : BitVec 1) : Statement (.lea z d a b x) := fun _ => rfl
theorem Sys2Proof.Laws.Encoding.shl (z : BitVec 1) (d : BitVec 7) (a : BitVec 7) (b : BitVec 7) (x : BitVec 1) : Statement (.shl z d a b x) := fun _ => rfl
theorem Sys2Proof.Laws.Encoding.shr (z : BitVec 1) (d : BitVec 7) (a : BitVec 7) (b : BitVec 7) (x : BitVec 1) : Statement (.shr z d a b x) := fun _ => rfl
theorem Sys2Proof.Laws.Encoding.sar (z : BitVec 1) (d : BitVec 7) (a : BitVec 7) (b : BitVec 7) (x : BitVec 1) : Statement (.sar z d a b x) := fun _ => rfl
theorem Sys2Proof.Laws.Encoding.and (z : BitVec 1) (d : BitVec 7) (a : BitVec 7) (b : BitVec 7) (x : BitVec 1) : Statement (.and z d a b x) := fun _ => rfl
theorem Sys2Proof.Laws.Encoding.or (z : BitVec 1) (d : BitVec 7) (a : BitVec 7) (b : BitVec 7) (x : BitVec 1) : Statement (.or z d a b x) := fun _ => rfl
theorem Sys2Proof.Laws.Encoding.xor (z : BitVec 1) (d : BitVec 7) (a : BitVec 7) (b : BitVec 7) (x : BitVec 1) : Statement (.xor z d a b x) := fun _ => rfl
theorem Sys2Proof.Laws.Encoding.andn (z : BitVec 1) (d : BitVec 7) (a : BitVec 7) (b : BitVec 7) (x : BitVec 1) : Statement (.andn z d a b x) := fun _ => rfl
theorem Sys2Proof.Laws.Encoding.iabs (z : BitVec 1) (d : BitVec 7) (a : BitVec 7) (x : BitVec 1) : Statement (.iabs z d a x) := fun _ => rfl
theorem Sys2Proof.Laws.Encoding.clz (z : BitVec 1) (d : BitVec 7) (a : BitVec 7) (x : BitVec 1) : Statement (.clz z d a x) := fun _ => rfl
theorem Sys2Proof.Laws.Encoding.popc (z : BitVec 1) (d : BitVec 7) (a : BitVec 7) (x : BitVec 1) : Statement (.popc z d a x) := fun _ => rfl
theorem Sys2Proof.Laws.Encoding.brev (z : BitVec 1) (d : BitVec 7) (a : BitVec 7) (x : BitVec 1) : Statement (.brev z d a x) := fun _ => rfl
theorem Sys2Proof.Laws.Encoding.mov (z : BitVec 1) (d : BitVec 7) (a : BitVec 7) (x : BitVec 1) : Statement (.mov z d a x) := fun _ => rfl
theorem Sys2Proof.Laws.Encoding.bfx (z : BitVec 1) (d : BitVec 7) (a : BitVec 7) (b : BitVec 7) (x : BitVec 1) : Statement (.bfx z d a b x) := fun _ => rfl
theorem Sys2Proof.Laws.Encoding.bfi (z : BitVec 1) (d : BitVec 7) (a : BitVec 7) (b : BitVec 7) (x : BitVec 1) : Statement (.bfi z d a b x) := fun _ => rfl
theorem Sys2Proof.Laws.Encoding.icmp (z : BitVec 1) (c : BitVec 3) (d : BitVec 7) (a : BitVec 7) (b : BitVec 7) (x : BitVec 1) : Statement (.icmp z c d a b x) := fun _ => rfl
theorem Sys2Proof.Laws.Encoding.sel (z : BitVec 1) (p : BitVec 3) (d : BitVec 7) (a : BitVec 7) (b : BitVec 7) (x : BitVec 1) : Statement (.sel z p d a b x) := fun _ => rfl
theorem Sys2Proof.Laws.Encoding.movi (z : BitVec 1) (d : BitVec 7) (i : BitVec 8) : Statement (.movi z d i) := fun _ => rfl
theorem Sys2Proof.Laws.Encoding.iaddI (z : BitVec 1) (d : BitVec 7) (a : BitVec 7) (i : BitVec 8) : Statement (.iaddI z d a i) := fun _ => rfl
theorem Sys2Proof.Laws.Encoding.shlI (z : BitVec 1) (d : BitVec 7) (a : BitVec 7) (i : BitVec 8) : Statement (.shlI z d a i) := fun _ => rfl
theorem Sys2Proof.Laws.Encoding.shrI (z : BitVec 1) (d : BitVec 7) (a : BitVec 7) (i : BitVec 8) : Statement (.shrI z d a i) := fun _ => rfl
theorem Sys2Proof.Laws.Encoding.sarI (z : BitVec 1) (d : BitVec 7) (a : BitVec 7) (i : BitVec 8) : Statement (.sarI z d a i) := fun _ => rfl
theorem Sys2Proof.Laws.Encoding.andI (z : BitVec 1) (d : BitVec 7) (a : BitVec 7) (i : BitVec 8) : Statement (.andI z d a i) := fun _ => rfl
theorem Sys2Proof.Laws.Encoding.orI (z : BitVec 1) (d : BitVec 7) (a : BitVec 7) (i : BitVec 8) : Statement (.orI z d a i) := fun _ => rfl
theorem Sys2Proof.Laws.Encoding.xorI (z : BitVec 1) (d : BitVec 7) (a : BitVec 7) (i : BitVec 8) : Statement (.xorI z d a i) := fun _ => rfl
theorem Sys2Proof.Laws.Encoding.moviU (z : BitVec 1) (d : BitVec 7) (i : BitVec 8) : Statement (.moviU z d i) := fun _ => rfl
theorem Sys2Proof.Laws.Encoding.iaddIu (z : BitVec 1) (d : BitVec 7) (a : BitVec 7) (i : BitVec 8) : Statement (.iaddIu z d a i) := fun _ => rfl
theorem Sys2Proof.Laws.Encoding.shlIu (z : BitVec 1) (d : BitVec 7) (a : BitVec 7) (i : BitVec 8) : Statement (.shlIu z d a i) := fun _ => rfl
theorem Sys2Proof.Laws.Encoding.shrIu (z : BitVec 1) (d : BitVec 7) (a : BitVec 7) (i : BitVec 8) : Statement (.shrIu z d a i) := fun _ => rfl
theorem Sys2Proof.Laws.Encoding.sarIu (z : BitVec 1) (d : BitVec 7) (a : BitVec 7) (i : BitVec 8) : Statement (.sarIu z d a i) := fun _ => rfl
theorem Sys2Proof.Laws.Encoding.andIu (z : BitVec 1) (d : BitVec 7) (a : BitVec 7) (i : BitVec 8) : Statement (.andIu z d a i) := fun _ => rfl
theorem Sys2Proof.Laws.Encoding.orIu (z : BitVec 1) (d : BitVec 7) (a : BitVec 7) (i : BitVec 8) : Statement (.orIu z d a i) := fun _ => rfl
theorem Sys2Proof.Laws.Encoding.xorIu (z : BitVec 1) (d : BitVec 7) (a : BitVec 7) (i : BitVec 8) : Statement (.xorIu z d a i) := fun _ => rfl
theorem Sys2Proof.Laws.Encoding.fadd (z : BitVec 1) (d : BitVec 7) (a : BitVec 7) (b : BitVec 7) (x : BitVec 1) : Statement (.fadd z d a b x) := fun _ => rfl
theorem Sys2Proof.Laws.Encoding.fsub (z : BitVec 1) (d : BitVec 7) (a : BitVec 7) (b : BitVec 7) (x : BitVec 1) : Statement (.fsub z d a b x) := fun _ => rfl
theorem Sys2Proof.Laws.Encoding.fmul (z : BitVec 1) (d : BitVec 7) (a : BitVec 7) (b : BitVec 7) (x : BitVec 1) : Statement (.fmul z d a b x) := fun _ => rfl
theorem Sys2Proof.Laws.Encoding.ffma (z : BitVec 1) (d : BitVec 7) (a : BitVec 7) (b : BitVec 7) (x : BitVec 1) : Statement (.ffma z d a b x) := fun _ => rfl
theorem Sys2Proof.Laws.Encoding.fmin (z : BitVec 1) (d : BitVec 7) (a : BitVec 7) (b : BitVec 7) (x : BitVec 1) : Statement (.fmin z d a b x) := fun _ => rfl
theorem Sys2Proof.Laws.Encoding.fmax (z : BitVec 1) (d : BitVec 7) (a : BitVec 7) (b : BitVec 7) (x : BitVec 1) : Statement (.fmax z d a b x) := fun _ => rfl
theorem Sys2Proof.Laws.Encoding.frnd (z : BitVec 1) (d : BitVec 7) (a : BitVec 7) (x : BitVec 1) : Statement (.frnd z d a x) := fun _ => rfl
theorem Sys2Proof.Laws.Encoding.fcls (z : BitVec 1) (d : BitVec 7) (a : BitVec 7) (x : BitVec 1) : Statement (.fcls z d a x) := fun _ => rfl
theorem Sys2Proof.Laws.Encoding.fcmp (z : BitVec 1) (c : BitVec 3) (d : BitVec 7) (a : BitVec 7) (b : BitVec 7) (x : BitVec 1) : Statement (.fcmp z c d a b x) := fun _ => rfl
theorem Sys2Proof.Laws.Encoding.hadd2 (z : BitVec 1) (h : BitVec 1) (d : BitVec 7) (a : BitVec 7) (b : BitVec 7) (x : BitVec 1) : Statement (.hadd2 z h d a b x) := fun _ => rfl
theorem Sys2Proof.Laws.Encoding.hmul2 (z : BitVec 1) (h : BitVec 1) (d : BitVec 7) (a : BitVec 7) (b : BitVec 7) (x : BitVec 1) : Statement (.hmul2 z h d a b x) := fun _ => rfl
theorem Sys2Proof.Laws.Encoding.hfma2 (z : BitVec 1) (h : BitVec 1) (d : BitVec 7) (a : BitVec 7) (b : BitVec 7) (x : BitVec 1) : Statement (.hfma2 z h d a b x) := fun _ => rfl
theorem Sys2Proof.Laws.Encoding.fdot2 (z : BitVec 1) (h : BitVec 1) (d : BitVec 7) (a : BitVec 7) (b : BitVec 7) (x : BitVec 1) : Statement (.fdot2 z h d a b x) := fun _ => rfl
theorem Sys2Proof.Laws.Encoding.cvt (z : BitVec 1) (s : BitVec 5) (d : BitVec 7) (a : BitVec 7) (t : BitVec 6) : Statement (.cvt z s d a t) := fun _ => rfl
theorem Sys2Proof.Laws.Encoding.pack (z : BitVec 1) (m : BitVec 3) (d : BitVec 7) (a : BitVec 7) (b : BitVec 7) (x : BitVec 1) : Statement (.pack z m d a b x) := fun _ => rfl
theorem Sys2Proof.Laws.Encoding.unpk (z : BitVec 1) (m : BitVec 3) (d : BitVec 7) (a : BitVec 7) (b : BitVec 7) (x : BitVec 1) : Statement (.unpk z m d a b x) := fun _ => rfl
theorem Sys2Proof.Laws.Encoding.fmt (z : BitVec 1) (s : BitVec 5) (d : BitVec 7) (a : BitVec 7) (t : BitVec 6) : Statement (.fmt z s d a t) := fun _ => rfl
theorem Sys2Proof.Laws.Encoding.shfl (z : BitVec 1) (m : BitVec 3) (d : BitVec 7) (a : BitVec 7) (b : BitVec 7) : Statement (.shfl z m d a b) := fun _ => rfl
theorem Sys2Proof.Laws.Encoding.vote (z : BitVec 1) (m : BitVec 3) (d : BitVec 7) (a : BitVec 7) : Statement (.vote z m d a) := fun _ => rfl
theorem Sys2Proof.Laws.Encoding.rdfl (z : BitVec 1) (d : BitVec 7) (a : BitVec 7) (b : BitVec 7) : Statement (.rdfl z d a b) := fun _ => rfl
theorem Sys2Proof.Laws.Encoding.prfx (z : BitVec 1) (d : BitVec 7) (a : BitVec 7) (b : BitVec 7) : Statement (.prfx z d a b) := fun _ => rfl
theorem Sys2Proof.Laws.Encoding.conf (z : BitVec 1) (d : BitVec 7) (a : BitVec 7) (b : BitVec 7) : Statement (.conf z d a b) := fun _ => rfl
theorem Sys2Proof.Laws.Encoding.kcomb (z : BitVec 1) (d : BitVec 7) (a : BitVec 7) (b : BitVec 7) : Statement (.kcomb z d a b) := fun _ => rfl
theorem Sys2Proof.Laws.Encoding.rebal (z : BitVec 1) (d : BitVec 7) (a : BitVec 7) (b : BitVec 7) : Statement (.rebal z d a b) := fun _ => rfl
theorem Sys2Proof.Laws.Encoding.mask (z : BitVec 1) (d : BitVec 7) (b : BitVec 7) : Statement (.mask z d b) := fun _ => rfl
theorem Sys2Proof.Laws.Encoding.sfe (z : BitVec 1) (d : BitVec 7) (a : BitVec 7) (f : BitVec 5) (l : BitVec 4) (u : BitVec 4) : Statement (.sfe z d a f l u) := fun _ => rfl
theorem Sys2Proof.Laws.Encoding.stbl (z : BitVec 1) (t : BitVec 7) (p : BitVec 7) (l : BitVec 4) : Statement (.stbl z t p l) := fun _ => rfl
theorem Sys2Proof.Laws.Encoding.tswp (z : BitVec 1) (t : BitVec 7) (l : BitVec 4) : Statement (.tswp z t l) := fun _ => rfl
theorem Sys2Proof.Laws.Encoding.lz (z : BitVec 1) (e : BitVec 1) : Statement (.lz z e) := fun _ => rfl
theorem Sys2Proof.Laws.Encoding.ladd (z : BitVec 1) (a : BitVec 7) (e : BitVec 1) (q : BitVec 1) : Statement (.ladd z a e q) := fun _ => rfl
theorem Sys2Proof.Laws.Encoding.lmrg (z : BitVec 1) (a : BitVec 7) (e : BitVec 1) (q : BitVec 1) (l : BitVec 4) : Statement (.lmrg z a e q l) := fun _ => rfl
theorem Sys2Proof.Laws.Encoding.lst (z : BitVec 1) (a : BitVec 7) (e : BitVec 1) (q : BitVec 1) (l : BitVec 4) : Statement (.lst z a e q l) := fun _ => rfl
theorem Sys2Proof.Laws.Encoding.lrd (z : BitVec 1) (d : BitVec 7) (e : BitVec 1) : Statement (.lrd z d e) := fun _ => rfl
theorem Sys2Proof.Laws.Encoding.lvar (z : BitVec 1) (d : BitVec 7) (a : BitVec 7) : Statement (.lvar z d a) := fun _ => rfl
theorem Sys2Proof.Laws.Encoding.srg (z : BitVec 1) (j : BitVec 16) (l : BitVec 4) : Statement (.srg z j l) := fun _ => rfl
theorem Sys2Proof.Laws.Encoding.sjn (z : BitVec 1) : Statement (.sjn z) := fun _ => rfl
theorem Sys2Proof.Laws.Encoding.sld (z : BitVec 1) (s : BitVec 7) (p : BitVec 7) (l : BitVec 4) : Statement (.sld z s p l) := fun _ => rfl
theorem Sys2Proof.Laws.Encoding.ssw (z : BitVec 1) (s : BitVec 7) (l : BitVec 4) : Statement (.ssw z s l) := fun _ => rfl
theorem Sys2Proof.Laws.Encoding.qset (z : BitVec 1) (u : BitVec 7) (l : BitVec 4) : Statement (.qset z u l) := fun _ => rfl
theorem Sys2Proof.Laws.Encoding.sctr (z : BitVec 1) (u : BitVec 7) (o : BitVec 2) (l : BitVec 4) : Statement (.sctr z u o l) := fun _ => rfl
theorem Sys2Proof.Laws.Encoding.sdis (z : BitVec 1) : Statement (.sdis z) := fun _ => rfl
theorem Sys2Proof.Laws.Encoding.ldG (z : BitVec 1) (s : BitVec 2) (d : BitVec 7) (a : BitVec 7) (k : BitVec 5) (l : BitVec 4) (u : BitVec 4) : Statement (.ldG z s d a k l u) := fun _ => rfl
theorem Sys2Proof.Laws.Encoding.ldGExt (z : BitVec 1) (s : BitVec 2) (d : BitVec 7) (a : BitVec 7) (k : BitVec 5) (l : BitVec 4) (u : BitVec 4) : Statement (.ldGExt z s d a k l u) := fun _ => rfl
theorem Sys2Proof.Laws.Encoding.ldS (z : BitVec 1) (s : BitVec 2) (d : BitVec 7) (a : BitVec 7) (o : BitVec 5) (l : BitVec 4) (u : BitVec 4) : Statement (.ldS z s d a o l u) := fun _ => rfl
theorem Sys2Proof.Laws.Encoding.ldSExt (z : BitVec 1) (s : BitVec 2) (d : BitVec 7) (a : BitVec 7) (o : BitVec 5) (l : BitVec 4) (u : BitVec 4) : Statement (.ldSExt z s d a o l u) := fun _ => rfl
theorem Sys2Proof.Laws.Encoding.stG (z : BitVec 1) (s : BitVec 2) (d : BitVec 7) (a : BitVec 7) (k : BitVec 5) (l : BitVec 4) (u : BitVec 4) : Statement (.stG z s d a k l u) := fun _ => rfl
theorem Sys2Proof.Laws.Encoding.stS (z : BitVec 1) (s : BitVec 2) (d : BitVec 7) (a : BitVec 7) (o : BitVec 5) (l : BitVec 4) (u : BitVec 4) : Statement (.stS z s d a o l u) := fun _ => rfl
theorem Sys2Proof.Laws.Encoding.atom (z : BitVec 1) (o : BitVec 4) (d : BitVec 7) (a : BitVec 7) (k : BitVec 2) (l : BitVec 4) : Statement (.atom z o d a k l) := fun _ => rfl
theorem Sys2Proof.Laws.Encoding.red (z : BitVec 1) (o : BitVec 4) (d : BitVec 7) (a : BitVec 7) (k : BitVec 2) (l : BitVec 4) : Statement (.red z o d a k l) := fun _ => rfl
theorem Sys2Proof.Laws.Encoding.stGB128 (z : BitVec 1) (d : BitVec 7) (a : BitVec 7) (k : BitVec 2) (l : BitVec 4) : Statement (.stGB128 z d a k l) := fun _ => rfl
theorem Sys2Proof.Laws.Encoding.stSB128 (z : BitVec 1) (d : BitVec 7) (a : BitVec 7) (l : BitVec 4) : Statement (.stSB128 z d a l) := fun _ => rfl
theorem Sys2Proof.Laws.Encoding.aoaddB32 (z : BitVec 1) (d : BitVec 7) (a : BitVec 7) (l : BitVec 4) : Statement (.aoaddB32 z d a l) := fun _ => rfl
theorem Sys2Proof.Laws.Encoding.aoaddB64 (z : BitVec 1) (d : BitVec 7) (a : BitVec 7) (l : BitVec 4) : Statement (.aoaddB64 z d a l) := fun _ => rfl
theorem Sys2Proof.Laws.Encoding.ldsumB32 (z : BitVec 1) (d : BitVec 7) (a : BitVec 7) (q : BitVec 2) (l : BitVec 4) : Statement (.ldsumB32 z d a q l) := fun _ => rfl
theorem Sys2Proof.Laws.Encoding.ldsumB64 (z : BitVec 1) (d : BitVec 7) (a : BitVec 7) (q : BitVec 2) (l : BitVec 4) : Statement (.ldsumB64 z d a q l) := fun _ => rfl
theorem Sys2Proof.Laws.Encoding.ldsumG (z : BitVec 1) (d : BitVec 7) (a : BitVec 7) (q : BitVec 2) (l : BitVec 4) : Statement (.ldsumG z d a q l) := fun _ => rfl
theorem Sys2Proof.Laws.Encoding.ldsumF32 (z : BitVec 1) (d : BitVec 7) (a : BitVec 7) (q : BitVec 2) (l : BitVec 4) : Statement (.ldsumF32 z d a q l) := fun _ => rfl
theorem Sys2Proof.Laws.Encoding.lduB32 (z : BitVec 1) (d : BitVec 7) (a : BitVec 7) (k : BitVec 2) (l : BitVec 4) : Statement (.lduB32 z d a k l) := fun _ => rfl
theorem Sys2Proof.Laws.Encoding.lduB64 (z : BitVec 1) (d : BitVec 7) (a : BitVec 7) (k : BitVec 2) (l : BitVec 4) : Statement (.lduB64 z d a k l) := fun _ => rfl
theorem Sys2Proof.Laws.Encoding.pref (z : BitVec 1) (a : BitVec 7) (k : BitVec 2) : Statement (.pref z a k) := fun _ => rfl
theorem Sys2Proof.Laws.Encoding.cpySFromG (z : BitVec 1) (s : BitVec 2) (d : BitVec 7) (a : BitVec 7) (k : BitVec 5) (l : BitVec 4) (u : BitVec 4) : Statement (.cpySFromG z s d a k l u) := fun _ => rfl
theorem Sys2Proof.Laws.Encoding.cpyGFromS (z : BitVec 1) (s : BitVec 2) (d : BitVec 7) (a : BitVec 7) (k : BitVec 5) (l : BitVec 4) (u : BitVec 4) : Statement (.cpyGFromS z s d a k l u) := fun _ => rfl
theorem Sys2Proof.Laws.Encoding.cpySFromS (z : BitVec 1) (s : BitVec 2) (d : BitVec 7) (a : BitVec 7) (l : BitVec 4) : Statement (.cpySFromS z s d a l) := fun _ => rfl
theorem Sys2Proof.Laws.Encoding.cpyGFromGB4 (z : BitVec 1) (d : BitVec 7) (a : BitVec 7) (k : BitVec 2) (l : BitVec 4) : Statement (.cpyGFromGB4 z d a k l) := fun _ => rfl
theorem Sys2Proof.Laws.Encoding.cpyGFromGB8 (z : BitVec 1) (d : BitVec 7) (a : BitVec 7) (k : BitVec 2) (l : BitVec 4) : Statement (.cpyGFromGB8 z d a k l) := fun _ => rfl
theorem Sys2Proof.Laws.Encoding.cpyGFromGB16 (z : BitVec 1) (d : BitVec 7) (a : BitVec 7) (k : BitVec 2) (l : BitVec 4) : Statement (.cpyGFromGB16 z d a k l) := fun _ => rfl
theorem Sys2Proof.Laws.Encoding.cpyvG (z : BitVec 1) (d : BitVec 7) (a : BitVec 7) (k : BitVec 2) (l : BitVec 4) : Statement (.cpyvG z d a k l) := fun _ => rfl
theorem Sys2Proof.Laws.Encoding.cpyvS (z : BitVec 1) (d : BitVec 7) (a : BitVec 7) (k : BitVec 2) (l : BitVec 4) : Statement (.cpyvS z d a k l) := fun _ => rfl
theorem Sys2Proof.Laws.Encoding.seal (z : BitVec 1) (p : BitVec 2) : Statement (.seal z p) := fun _ => rfl
theorem Sys2Proof.Laws.Encoding.wait (z : BitVec 1) (u : BitVec 7) (p : BitVec 2) : Statement (.wait z u p) := fun _ => rfl
theorem Sys2Proof.Laws.Encoding.pub (z : BitVec 1) (d : BitVec 7) (s : BitVec 3) (k : BitVec 2) (l : BitVec 4) : Statement (.pub z d s k l) := fun _ => rfl
theorem Sys2Proof.Laws.Encoding.gathE (z : BitVec 1) (s : BitVec 2) (d : BitVec 7) (a : BitVec 7) (k : BitVec 2) (l : BitVec 4) : Statement (.gathE z s d a k l) := fun _ => rfl
theorem Sys2Proof.Laws.Encoding.gathXB16 (z : BitVec 1) (d : BitVec 7) (a : BitVec 7) (k : BitVec 2) (l : BitVec 4) : Statement (.gathXB16 z d a k l) := fun _ => rfl
theorem Sys2Proof.Laws.Encoding.gathXB32 (z : BitVec 1) (d : BitVec 7) (a : BitVec 7) (k : BitVec 2) (l : BitVec 4) : Statement (.gathXB32 z d a k l) := fun _ => rfl
theorem Sys2Proof.Laws.Encoding.gathXB64 (z : BitVec 1) (d : BitVec 7) (a : BitVec 7) (k : BitVec 2) (l : BitVec 4) : Statement (.gathXB64 z d a k l) := fun _ => rfl
theorem Sys2Proof.Laws.Encoding.tlook (z : BitVec 1) (d : BitVec 7) (a : BitVec 7) : Statement (.tlook z d a) := fun _ => rfl
theorem Sys2Proof.Laws.Encoding.tset (z : BitVec 1) (a : BitVec 7) (b : BitVec 7) : Statement (.tset z a b) := fun _ => rfl
theorem Sys2Proof.Laws.Encoding.tinv (z : BitVec 1) (b : BitVec 7) : Statement (.tinv z b) := fun _ => rfl
theorem Sys2Proof.Laws.Encoding.hclaim (z : BitVec 1) (d : BitVec 7) (i : BitVec 5) (j : BitVec 5) (u : BitVec 3) : Statement (.hclaim z d i j u) := fun _ => rfl
theorem Sys2Proof.Laws.Encoding.hrel (z : BitVec 1) (h : BitVec 3) : Statement (.hrel z h) := fun _ => rfl
theorem Sys2Proof.Laws.Encoding.hins (z : BitVec 1) (d : BitVec 7) (a : BitVec 7) (p : BitVec 3) (h : BitVec 3) : Statement (.hins z d a p h) := fun _ => rfl
theorem Sys2Proof.Laws.Encoding.hprb (z : BitVec 1) (d : BitVec 7) (a : BitVec 7) (p : BitVec 3) (h : BitVec 3) : Statement (.hprb z d a p h) := fun _ => rfl
theorem Sys2Proof.Laws.Encoding.hdel (z : BitVec 1) (d : BitVec 7) (a : BitVec 7) (p : BitVec 3) (h : BitVec 3) : Statement (.hdel z d a p h) := fun _ => rfl
theorem Sys2Proof.Laws.Encoding.haccAdd (z : BitVec 1) (d : BitVec 7) (a : BitVec 7) (p : BitVec 3) (h : BitVec 3) : Statement (.haccAdd z d a p h) := fun _ => rfl
theorem Sys2Proof.Laws.Encoding.haccMin (z : BitVec 1) (d : BitVec 7) (a : BitVec 7) (p : BitVec 3) (h : BitVec 3) : Statement (.haccMin z d a p h) := fun _ => rfl
theorem Sys2Proof.Laws.Encoding.haccMax (z : BitVec 1) (d : BitVec 7) (a : BitVec 7) (p : BitVec 3) (h : BitVec 3) : Statement (.haccMax z d a p h) := fun _ => rfl
theorem Sys2Proof.Laws.Encoding.haccOr (z : BitVec 1) (d : BitVec 7) (a : BitVec 7) (p : BitVec 3) (h : BitVec 3) : Statement (.haccOr z d a p h) := fun _ => rfl
theorem Sys2Proof.Laws.Encoding.haccFadd (z : BitVec 1) (d : BitVec 7) (a : BitVec 7) (p : BitVec 3) (h : BitVec 3) : Statement (.haccFadd z d a p h) := fun _ => rfl
theorem Sys2Proof.Laws.Encoding.hdrn (z : BitVec 1) (d : BitVec 7) (a : BitVec 7) (p : BitVec 3) (h : BitVec 3) : Statement (.hdrn z d a p h) := fun _ => rfl
theorem Sys2Proof.Laws.Encoding.hdrnDel (z : BitVec 1) (d : BitVec 7) (a : BitVec 7) (p : BitVec 3) (h : BitVec 3) : Statement (.hdrnDel z d a p h) := fun _ => rfl
theorem Sys2Proof.Laws.Encoding.pln (z : BitVec 1) (a : BitVec 7) (u : BitVec 6) (p : BitVec 4) (e : BitVec 1) (s : BitVec 2) : Statement (.pln z a u p e s) := fun _ => rfl
theorem Sys2Proof.Laws.Encoding.upln (z : BitVec 1) (d : BitVec 7) (u : BitVec 6) (t : BitVec 2) : Statement (.upln z d u t) := fun _ => rfl
theorem Sys2Proof.Laws.Encoding.mz (z : BitVec 1) (n : BitVec 3) (w : BitVec 9) : Statement (.mz z n w) := fun _ => rfl
theorem Sys2Proof.Laws.Encoding.mrd (z : BitVec 1) (d : BitVec 7) (n : BitVec 3) (r : BitVec 4) (l : BitVec 3) (h : BitVec 1) (f : BitVec 1) : Statement (.mrd z d n r l h f) := fun _ => rfl
theorem Sys2Proof.Laws.Encoding.mld (z : BitVec 1) (n : BitVec 3) (u : BitVec 6) (g : BitVec 1) (l : BitVec 4) : Statement (.mld z n u g l) := fun _ => rfl
theorem Sys2Proof.Laws.Encoding.mma (z : BitVec 1) (n : BitVec 3) (u : BitVec 5) (a : BitVec 1) (b : BitVec 1) (p : BitVec 4) (l : BitVec 4) : Statement (.mma z n u a b p l) := fun _ => rfl
theorem Sys2Proof.Laws.Encoding.mmt (z : BitVec 1) (n : BitVec 3) (u : BitVec 5) (a : BitVec 1) (b : BitVec 1) (p : BitVec 4) (l : BitVec 4) : Statement (.mmt z n u a b p l) := fun _ => rfl
theorem Sys2Proof.Laws.Encoding.br (z : BitVec 1) (o : BitVec 20) : Statement (.br z o) := fun _ => rfl
theorem Sys2Proof.Laws.Encoding.brc (z : BitVec 1) (p : BitVec 3) (o : BitVec 20) : Statement (.brc z p o) := fun _ => rfl
theorem Sys2Proof.Laws.Encoding.brd (z : BitVec 1) (p : BitVec 3) (o : BitVec 20) : Statement (.brd z p o) := fun _ => rfl
theorem Sys2Proof.Laws.Encoding.call (z : BitVec 1) (k : BitVec 3) (o : BitVec 20) : Statement (.call z k o) := fun _ => rfl
theorem Sys2Proof.Laws.Encoding.join (z : BitVec 1) : Statement (.join z) := fun _ => rfl
theorem Sys2Proof.Laws.Encoding.brx (z : BitVec 1) (i : BitVec 6) (o : BitVec 14) : Statement (.brx z i o) := fun _ => rfl
theorem Sys2Proof.Laws.Encoding.lpad (z : BitVec 1) (c : BitVec 1) (l : BitVec 12) : Statement (.lpad z c l) := fun _ => rfl
theorem Sys2Proof.Laws.Encoding.callx (z : BitVec 1) (k : BitVec 7) (t : BitVec 7) : Statement (.callx z k t) := fun _ => rfl
theorem Sys2Proof.Laws.Encoding.ret (z : BitVec 1) (k : BitVec 7) : Statement (.ret z k) := fun _ => rfl
theorem Sys2Proof.Laws.Encoding.exit (z : BitVec 1) : Statement (.exit z) := fun _ => rfl
theorem Sys2Proof.Laws.Encoding.yld (z : BitVec 1) : Statement (.yld z) := fun _ => rfl
theorem Sys2Proof.Laws.Encoding.nop (z : BitVec 1) : Statement (.nop z) := fun _ => rfl
theorem Sys2Proof.Laws.Encoding.barArrive (z : BitVec 1) (n : BitVec 7) (d : BitVec 1) (s : BitVec 3) (t : BitVec 6) : Statement (.barArrive z n d s t) := fun _ => rfl
theorem Sys2Proof.Laws.Encoding.barWait (z : BitVec 1) (s : BitVec 3) (t : BitVec 6) : Statement (.barWait z s t) := fun _ => rfl
theorem Sys2Proof.Laws.Encoding.barArriveWait (z : BitVec 1) (n : BitVec 7) (d : BitVec 1) (s : BitVec 3) (t : BitVec 6) : Statement (.barArriveWait z n d s t) := fun _ => rfl
theorem Sys2Proof.Laws.Encoding.bart (z : BitVec 1) (v : BitVec 7) (i : BitVec 1) (s : BitVec 5) : Statement (.bart z v i s) := fun _ => rfl
theorem Sys2Proof.Laws.Encoding.fence (z : BitVec 1) (s : BitVec 3) (k : BitVec 2) : Statement (.fence z s k) := fun _ => rfl
theorem Sys2Proof.Laws.Encoding.spwn (z : BitVec 1) (a : BitVec 7) (h : BitVec 1) (c : BitVec 1) (l : BitVec 4) : Statement (.spwn z a h c l) := fun _ => rfl
theorem Sys2Proof.Laws.Encoding.take (z : BitVec 1) (d : BitVec 7) (a : BitVec 7) (l : BitVec 4) : Statement (.take z d a l) := fun _ => rfl
theorem Sys2Proof.Laws.Encoding.done (z : BitVec 1) (a : BitVec 7) (s : BitVec 1) : Statement (.done z a s) := fun _ => rfl
theorem Sys2Proof.Laws.Encoding.waitq (z : BitVec 1) (d : BitVec 7) : Statement (.waitq z d) := fun _ => rfl
theorem Sys2Proof.Laws.Encoding.qdom (z : BitVec 1) (d : BitVec 7) : Statement (.qdom z d) := fun _ => rfl
theorem Sys2Proof.Laws.Encoding.give (z : BitVec 1) (n : BitVec 4) : Statement (.give z n) := fun _ => rfl
theorem Sys2Proof.Laws.Encoding.claim (z : BitVec 1) (n : BitVec 4) : Statement (.claim z n) := fun _ => rfl
theorem Sys2Proof.Laws.Encoding.srd (z : BitVec 1) (d : BitVec 7) (i : BitVec 8) : Statement (.srd z d i) := fun _ => rfl
theorem Sys2Proof.Laws.Encoding.srdU (z : BitVec 1) (d : BitVec 7) (i : BitVec 8) : Statement (.srdU z d i) := fun _ => rfl
theorem Sys2Proof.Laws.Encoding.swr (z : BitVec 1) (a : BitVec 7) (i : BitVec 8) : Statement (.swr z a i) := fun _ => rfl
theorem Sys2Proof.Laws.Encoding.trap (z : BitVec 1) (i : BitVec 16) : Statement (.trap z i) := fun _ => rfl
theorem Sys2Proof.Laws.Encoding.rsm (z : BitVec 1) (r : BitVec 1) : Statement (.rsm z r) := fun _ => rfl
theorem Sys2Proof.Laws.Encoding.kill (z : BitVec 1) (a : BitVec 1) : Statement (.kill z a) := fun _ => rfl
theorem Sys2Proof.Laws.Encoding.bkpt (z : BitVec 1) : Statement (.bkpt z) := fun _ => rfl
theorem Sys2Proof.Laws.Encoding.hx (z : BitVec 1) : Statement (.hx z) := fun _ => rfl
theorem Sys2Proof.Laws.Encoding.hintWide (w : BitVec 21) : Statement (.hintWide w) := fun _ => rfl
theorem Sys2Proof.Laws.Encoding.hintMod (e : BitVec 1) (c : BitVec 2) (n : BitVec 1) (m : BitVec 1) (a : BitVec 1) (s : BitVec 1) (r : BitVec 1) (q : BitVec 2) : Statement (.hintMod e c n m a s r q) := fun _ => rfl
theorem Sys2Proof.Laws.Encoding.hintThird (t : BitVec 7) : Statement (.hintThird t) := fun _ => rfl
theorem Sys2Proof.Laws.Encoding.hintGuard (n : BitVec 1) (p : BitVec 3) : Statement (.hintGuard n p) := fun _ => rfl
theorem Sys2Proof.Laws.Encoding.hintRtag (r : BitVec 8) : Statement (.hintRtag r) := fun _ => rfl
theorem Sys2Proof.Laws.Encoding.hintTtag (t : BitVec 16) : Statement (.hintTtag t) := fun _ => rfl
theorem Sys2Proof.Laws.Encoding.hintCredit (s : BitVec 5) : Statement (.hintCredit s) := fun _ => rfl
theorem Sys2Proof.Laws.Encoding.laneRunStart (core : Nat) (lane : Nat) : Statement (.laneRunStart core lane) := fun h => nomatch h
theorem Sys2Proof.Laws.Encoding.stallCapExpiry (strand : Nat) (path : Nat) : Statement (.stallCapExpiry strand path) := fun h => nomatch h
theorem Sys2Proof.Laws.Encoding.loadDataReturn (op : Nat) : Statement (.loadDataReturn op) := fun h => nomatch h
theorem Sys2Proof.Laws.Encoding.l1FillReturn (core : Nat) (line : Nat) : Statement (.l1FillReturn core line) := fun h => nomatch h
theorem Sys2Proof.Laws.Encoding.storeAtHome (op : Nat) : Statement (.storeAtHome op) := fun h => nomatch h
theorem Sys2Proof.Laws.Encoding.storeAck (op : Nat) : Statement (.storeAck op) := fun h => nomatch h
theorem Sys2Proof.Laws.Encoding.sliceAtomicLineOp (op : Nat) (line : Nat) : Statement (.sliceAtomicLineOp op line) := fun h => nomatch h
theorem Sys2Proof.Laws.Encoding.atomicResultReturn (op : Nat) : Statement (.atomicResultReturn op) := fun h => nomatch h
theorem Sys2Proof.Laws.Encoding.aoaddSliceApply (op : Nat) : Statement (.aoaddSliceApply op) := fun h => nomatch h
theorem Sys2Proof.Laws.Encoding.aoaddResend (op : Nat) : Statement (.aoaddResend op) := fun h => nomatch h
theorem Sys2Proof.Laws.Encoding.keySpillAppend (op : Nat) : Statement (.keySpillAppend op) := fun h => nomatch h
theorem Sys2Proof.Laws.Encoding.copyEngineAccept (op : Nat) (line : Nat) : Statement (.copyEngineAccept op line) := fun h => nomatch h
theorem Sys2Proof.Laws.Encoding.copyLineOpComplete (op : Nat) (line : Nat) : Statement (.copyLineOpComplete op line) := fun h => nomatch h
theorem Sys2Proof.Laws.Encoding.cpyvTileOp (op : Nat) (line : Nat) : Statement (.cpyvTileOp op line) := fun h => nomatch h
theorem Sys2Proof.Laws.Encoding.gatherUnitRequest (op : Nat) (part : Nat) : Statement (.gatherUnitRequest op part) := fun h => nomatch h
theorem Sys2Proof.Laws.Encoding.gatherForward (op : Nat) (part : Nat) : Statement (.gatherForward op part) := fun h => nomatch h
theorem Sys2Proof.Laws.Encoding.gatherBurstReturn (op : Nat) (part : Nat) : Statement (.gatherBurstReturn op part) := fun h => nomatch h
theorem Sys2Proof.Laws.Encoding.ldsumRequest (op : Nat) : Statement (.ldsumRequest op) := fun h => nomatch h
theorem Sys2Proof.Laws.Encoding.ldsumMemberRequest (tag : Nat) : Statement (.ldsumMemberRequest tag) := fun h => nomatch h
theorem Sys2Proof.Laws.Encoding.ldsumPartial (tag : Nat) (child : Nat) : Statement (.ldsumPartial tag child) := fun h => nomatch h
theorem Sys2Proof.Laws.Encoding.ldsumResult (op : Nat) : Statement (.ldsumResult op) := fun h => nomatch h
theorem Sys2Proof.Laws.Encoding.ldsumTimeout (op : Nat) : Statement (.ldsumTimeout op) := fun h => nomatch h
theorem Sys2Proof.Laws.Encoding.ldsumEntryTimeout (tag : Nat) : Statement (.ldsumEntryTimeout tag) := fun h => nomatch h
theorem Sys2Proof.Laws.Encoding.publishRequest (pub : Nat) : Statement (.publishRequest pub) := fun h => nomatch h
theorem Sys2Proof.Laws.Encoding.publishSwap (pub : Nat) : Statement (.publishSwap pub) := fun h => nomatch h
theorem Sys2Proof.Laws.Encoding.publishInvalidateDie (pub : Nat) (die : Nat) : Statement (.publishInvalidateDie pub die) := fun h => nomatch h
theorem Sys2Proof.Laws.Encoding.publishComplete (pub : Nat) : Statement (.publishComplete pub) := fun h => nomatch h
theorem Sys2Proof.Laws.Encoding.generationRetired (ctx : Nat) (obj : Nat) : Statement (.generationRetired ctx obj) := fun h => nomatch h
theorem Sys2Proof.Laws.Encoding.publishPortRequest (value : Nat) : Statement (.publishPortRequest value) := fun h => nomatch h
theorem Sys2Proof.Laws.Encoding.pinRelease (ctx : Nat) (obj : Nat) (gen : Nat) : Statement (.pinRelease ctx obj gen) := fun h => nomatch h
theorem Sys2Proof.Laws.Encoding.dieLinkFailure (link : Nat) : Statement (.dieLinkFailure link) := fun h => nomatch h
theorem Sys2Proof.Laws.Encoding.wilmoPortFailure (port : Nat) : Statement (.wilmoPortFailure port) := fun h => nomatch h
theorem Sys2Proof.Laws.Encoding.l1SoftError (core : Nat) (line : Nat) : Statement (.l1SoftError core line) := fun h => nomatch h
theorem Sys2Proof.Laws.Encoding.correctedError (die : Nat) (cls : Nat) (unit : Nat) : Statement (.correctedError die cls unit) := fun h => nomatch h
theorem Sys2Proof.Laws.Encoding.softErrorWindow (die : Nat) : Statement (.softErrorWindow die) := fun h => nomatch h
theorem Sys2Proof.Laws.Encoding.hclaimClearDone (op : Nat) : Statement (.hclaimClearDone op) := fun h => nomatch h
theorem Sys2Proof.Laws.Encoding.stblCopyDone (op : Nat) : Statement (.stblCopyDone op) := fun h => nomatch h
theorem Sys2Proof.Laws.Encoding.sldCopyDone (op : Nat) : Statement (.sldCopyDone op) := fun h => nomatch h
theorem Sys2Proof.Laws.Encoding.bankSwapNotice (op : Nat) (core : Nat) : Statement (.bankSwapNotice op core) := fun h => nomatch h
theorem Sys2Proof.Laws.Encoding.bankSwapComplete (op : Nat) : Statement (.bankSwapComplete op) := fun h => nomatch h
theorem Sys2Proof.Laws.Encoding.recoveryStrandForm (core : Nat) (slot : Nat) : Statement (.recoveryStrandForm core slot) := fun h => nomatch h
theorem Sys2Proof.Laws.Encoding.regionCounterUpdate (upd : Nat) : Statement (.regionCounterUpdate upd) := fun h => nomatch h
theorem Sys2Proof.Laws.Encoding.regionDisableNotice (core : Nat) (ctx : Nat) (region : Nat) : Statement (.regionDisableNotice core ctx region) := fun h => nomatch h
theorem Sys2Proof.Laws.Encoding.regenWrite (value : Nat) : Statement (.regenWrite value) := fun h => nomatch h
theorem Sys2Proof.Laws.Encoding.regionEnableNotice (core : Nat) (ctx : Nat) (region : Nat) : Statement (.regionEnableNotice core ctx region) := fun h => nomatch h
theorem Sys2Proof.Laws.Encoding.qsetComplete (op : Nat) : Statement (.qsetComplete op) := fun h => nomatch h
theorem Sys2Proof.Laws.Encoding.jointOpCommit (op : Nat) : Statement (.jointOpCommit op) := fun h => nomatch h
theorem Sys2Proof.Laws.Encoding.mldComplete (op : Nat) : Statement (.mldComplete op) := fun h => nomatch h
theorem Sys2Proof.Laws.Encoding.claimGrant (core : Nat) (lane : Nat) : Statement (.claimGrant core lane) := fun h => nomatch h
theorem Sys2Proof.Laws.Encoding.claimStarvation (core : Nat) (lane : Nat) : Statement (.claimStarvation core lane) := fun h => nomatch h
theorem Sys2Proof.Laws.Encoding.tkportWrite (off : Nat) (size : Nat) (data : Nat) : Statement (.tkportWrite off size data) := fun h => nomatch h
theorem Sys2Proof.Laws.Encoding.dispatcherTake : Statement (.dispatcherTake) := fun h => nomatch h
theorem Sys2Proof.Laws.Encoding.launchExpand (launch : Nat) : Statement (.launchExpand launch) := fun h => nomatch h
theorem Sys2Proof.Laws.Encoding.taskSpillTake (quad : Nat) (ctx : Nat) : Statement (.taskSpillTake quad ctx) := fun h => nomatch h
theorem Sys2Proof.Laws.Encoding.overflowBufferRetry : Statement (.overflowBufferRetry) := fun h => nomatch h
theorem Sys2Proof.Laws.Encoding.gangPlace (quad : Nat) : Statement (.gangPlace quad) := fun h => nomatch h
theorem Sys2Proof.Laws.Encoding.oldestRecordHold (quad : Nat) : Statement (.oldestRecordHold quad) := fun h => nomatch h
theorem Sys2Proof.Laws.Encoding.quantumExpiry (core : Nat) : Statement (.quantumExpiry core) := fun h => nomatch h
theorem Sys2Proof.Laws.Encoding.gangSwapSave (gang : Nat) : Statement (.gangSwapSave gang) := fun h => nomatch h
theorem Sys2Proof.Laws.Encoding.stealStart (quad : Nat) : Statement (.stealStart quad) := fun h => nomatch h
theorem Sys2Proof.Laws.Encoding.stealCopyArrive (steal : Nat) : Statement (.stealCopyArrive steal) := fun h => nomatch h
theorem Sys2Proof.Laws.Encoding.stealAckArrive (steal : Nat) : Statement (.stealAckArrive steal) := fun h => nomatch h
theorem Sys2Proof.Laws.Encoding.stealHandoffTimeout (steal : Nat) : Statement (.stealHandoffTimeout steal) := fun h => nomatch h
theorem Sys2Proof.Laws.Encoding.stealConfirmArrive (steal : Nat) : Statement (.stealConfirmArrive steal) := fun h => nomatch h
theorem Sys2Proof.Laws.Encoding.stealRefuseArrive (steal : Nat) : Statement (.stealRefuseArrive steal) := fun h => nomatch h
theorem Sys2Proof.Laws.Encoding.successorDecrement (msg : Nat) : Statement (.successorDecrement msg) := fun h => nomatch h
theorem Sys2Proof.Laws.Encoding.domainReturn (msg : Nat) : Statement (.domainReturn msg) := fun h => nomatch h
theorem Sys2Proof.Laws.Encoding.strandStop (strand : Nat) : Statement (.strandStop strand) := fun h => nomatch h
theorem Sys2Proof.Laws.Encoding.faultQueueAppend (ctx : Nat) : Statement (.faultQueueAppend ctx) := fun h => nomatch h
theorem Sys2Proof.Laws.Encoding.hrsmRsm (value : Nat) : Statement (.hrsmRsm value) := fun h => nomatch h
theorem Sys2Proof.Laws.Encoding.hrsmRsmRx (value : Nat) : Statement (.hrsmRsmRx value) := fun h => nomatch h
theorem Sys2Proof.Laws.Encoding.hrsmKill (value : Nat) : Statement (.hrsmKill value) := fun h => nomatch h
theorem Sys2Proof.Laws.Encoding.hrsmKillAll (value : Nat) : Statement (.hrsmKillAll value) := fun h => nomatch h
theorem Sys2Proof.Laws.Encoding.ctxctlNone (value : Nat) : Statement (.ctxctlNone value) := fun h => nomatch h
theorem Sys2Proof.Laws.Encoding.ctxctlStop (value : Nat) : Statement (.ctxctlStop value) := fun h => nomatch h
theorem Sys2Proof.Laws.Encoding.ctxctlStart (value : Nat) : Statement (.ctxctlStart value) := fun h => nomatch h
theorem Sys2Proof.Laws.Encoding.ctxctlKill (value : Nat) : Statement (.ctxctlKill value) := fun h => nomatch h
theorem Sys2Proof.Laws.Encoding.ctxctlComplete : Statement (.ctxctlComplete) := fun h => nomatch h
theorem Sys2Proof.Laws.Encoding.energyWindow (core : Nat) : Statement (.energyWindow core) := fun h => nomatch h
theorem Sys2Proof.Laws.Encoding.dstopStop (value : Nat) : Statement (.dstopStop value) := fun h => nomatch h
theorem Sys2Proof.Laws.Encoding.dstopStep (value : Nat) : Statement (.dstopStep value) := fun h => nomatch h
theorem Sys2Proof.Laws.Encoding.interruptRecordAppend : Statement (.interruptRecordAppend) := fun h => nomatch h
theorem Sys2Proof.Laws.Encoding.apertureAccess (write : Nat) (addr : Nat) (size : Nat) (data : Nat) : Statement (.apertureAccess write addr size data) := fun h => nomatch h
theorem Sys2Proof.Laws.Encoding.registerWrite (off : Nat) (size : Nat) (value : Nat) : Statement (.registerWrite off size value) := fun h => nomatch h
theorem Sys2Proof.Laws.Encoding.clkctlRateWrite (value : Nat) : Statement (.clkctlRateWrite value) := fun h => nomatch h
theorem Sys2Proof.Laws.Encoding.clockChangeEffective : Statement (.clockChangeEffective) := fun h => nomatch h
theorem Sys2Proof.Laws.Encoding.powerWindow (watts : Nat) : Statement (.powerWindow watts) := fun h => nomatch h
theorem Sys2Proof.Laws.Encoding.sensorSample (quad : Nat) (tcd : Nat) (tbd : Nat) : Statement (.sensorSample quad tcd tbd) := fun h => nomatch h
theorem Sys2Proof.Laws.Encoding.thermalHoldEnd : Statement (.thermalHoldEnd) := fun h => nomatch h
theorem Sys2Proof.Laws.Encoding.packageReset : Statement (.packageReset) := fun h => nomatch h
theorem Sys2Proof.Laws.Encoding.bootclrClear (value : Nat) : Statement (.bootclrClear value) := fun h => nomatch h
theorem Sys2Proof.Laws.Encoding.bootclrReset (value : Nat) : Statement (.bootclrReset value) := fun h => nomatch h
theorem Sys2Proof.Laws.Encoding.attestRequest (value : Nat) : Statement (.attestRequest value) := fun h => nomatch h
theorem Sys2Proof.Laws.Encoding.attestDone : Statement (.attestDone) := fun h => nomatch h
theorem Sys2Proof.Laws.Encoding.sidebandRequest (off : Nat) (write : Nat) (value : Nat) : Statement (.sidebandRequest off write value) := fun h => nomatch h
theorem Sys2Proof.Laws.Encoding.pcieCompletionTimeout (op : Nat) : Statement (.pcieCompletionTimeout op) := fun h => nomatch h
theorem Sys2Proof.Laws.Encoding.hardFault (quad : Nat) (item : Nat) : Statement (.hardFault quad item) := fun h => nomatch h
theorem Sys2Proof.Laws.Encoding.podBarrierArrival (ctx : Nat) (slot : Nat) (expected : Nat) : Statement (.podBarrierArrival ctx slot expected) := fun h => nomatch h
end

