-- ==== Sys2Proof/Tests/Slice0.lean ====
section
/-!
SUPPORT. Sys2Proof/Tests/Slice0.lean: words of the spec's examples and what they decode to, ill-formed terms, single steps on small
states whose results come from the spec's rules and worked examples, and for each statement states that meet its hypotheses.
-/

namespace Sys2Proof.Tests

open Sys2Proof Sys2Proof.Machine

set_option Elab.async false

/-! Words printed or spelled out in the spec, by chapter -/

/-- The decoder reads each word as the instruction beside it, and the encoder gives the word back. -/
def reads (l : List (BitVec 32 × Instr)) : Bool := l.all fun p => decide (decode 3 p.1 = .ok p.2) && decide (encode p.2 = some p.1) && p.2.wf

/-- 06, the worked lines: SRD v0, thread; LD.g.b32 v1, [s6 + v0 + 0] la:2; MOVI v2, 3; FMUL v3, v1, v2 ^; WIDE 16. -/
theorem test_words_encoding : reads [(0x78000000, .srd 0 0 0), (0x41010032, .ldG 0 2 1 0 3 2 0), (0x0A010003, .movi 0 2 3),
    (0x90818104, .fmul 1 3 1 2 0), (0x7E000010, .hintWide 16), (0x7E000186, .hintWide 0x186), (0x0A0200A0, .movi 0 4 0xA0)] = true := by decide

/-- 07, the worked lines: CPY, LD.s, ST.g, ATOM.add, RED.g, LDSUM.f32, SEAL, WAIT, PUB, TLOOK, HCLAIM's form by fields. -/
theorem test_words_memory : reads [(0x51040432, .cpySFromG 0 2 4 2 3 2 0), (0x45840410, .ldS 0 3 4 2 1 0 0), (0x49030030, .stG 0 2 3 0 3 0 0),
    (0x4C00A0B1, .atom 0 0 5 2 3 1), (0x4DE0E0E0, .red 0 14 7 3 2 0), (0x4E708090, .ldsumF32 0 4 2 1 0), (0x54800001, .seal 0 1), (0xD4912001, .wait 1 9 1),
    (0x54A14130, .pub 0 10 4 3 0), (0x58030200, .tlook 0 6 2)] = true := by decide

/-- 08, the table of encodings but FFMA, whose printed word disagrees with its fields (log 23): its fields give 0x10C18104. -/
theorem test_words_vector : reads [(0x00040607, .iadd 0 8 6 3 1), (0x01C40607, .lea 0 8 6 3 1), (0x10C18104, .ffma 0 3 1 2 0), (0x06810108, .icmp 0 2 2 1 4 0),
    (0x1583850C, .hfma2 0 1 7 5 6 0), (0x28C284E2, .shfl 0 3 5 4 113), (0x2A830200, .vote 0 2 6 2), (0x2C060302, .rdfl 0 12 3 1),
    (0x2C848406, .conf 0 9 4 3), (0x21006053, .cvt 0 0x10 3 1 0x13)] = true := by decide

/-- 09: SFE.exp2 v5, v4 la:3; SFE.tbl2 v7, v6; LADD.sq l1, v6; LRD s12, l0; RTAG 7; SRG with its join 12 words on; SJN. -/
theorem test_words_functions : reads [(0x30050803, .sfe 0 5 4 0 3 0), (0x323001B0, .ladd 0 6 1 1), (0x32618000, .lrd 0 12 0), (0x7E800007, .hintRtag 7),
    (0x380000C2, .srg 0 12 2), (0x38100000, .sjn 0), (0xB8100000, .sjn 1)] = true := by decide

/-- 10: PLN.f32 [s9], v3, 4; UPLN v5, [s9]; MZ a2, -30; MLD.f32 a2, [s9] la:1; MRD.f32 v16, a2, 0, 4, 1; TTAG 5; MMA.rb; MMT. -/
theorem test_words_matrix : reads [(0x5C0064A0, .pln 0 3 9 4 0 0), (0x5C10A480, .upln 0 5 9 0), (0x5C25E200, .mz 0 2 0x1E2), (0x5C444801, .mld 0 2 9 0 1),
    (0x5C320814, .mrd 0 16 2 0 2 1 0), (0x7EA00005, .hintTtag 5), (0x5E04A442, .mma 0 2 10 0 1 4 2), (0x5E10C021, .mmt 0 0 12 0 0 2 1)] = true := by decide

/-- 11 and 12: FENCE by kind and scope; the control-flow table. -/
theorem test_words_control : reads [(0x704000C0, .fence 0 3 0), (0x70400103, .fence 0 4 3), (0x70400143, .fence 0 5 3), (0x640FFFFD, .br 0 0xFFFFD), (0x64A00005, .brc 0 2 5),
    (0x65100003, .brd 0 1 3), (0x65F00040, .call 0 7 64), (0x66000000, .join 0), (0x66110006, .brx 0 4 6), (0x662002A5, .lpad 0 0 0x2A5), (0x66201000, .lpad 0 1 0),
    (0x6630E240, .callx 0 7 9), (0x664001C0, .ret 0 7), (0x66500000, .exit 0), (0x66600000, .yld 0), (0x66700000, .nop 0), (0x72500004, .give 0 4), (0x72600002, .claim 0 2)] = true := by
  decide

/-- 13: SPWN.local, TAKE, DONE, DONE.s, WAITQ, QDOM; BAR; BART and BART.init. -/
theorem test_words_tasks : reads [(0x72000111, .spwn 0 4 0 1 1), (0x72128240, .take 0 20 9 0), (0x72200000, .done 0 0 0), (0x72200260, .done 0 9 1), (0x72318000, .waitq 0 12),
    (0x72414000, .qdom 0 10), (0x70201042, .barArriveWait 0 0 1 1 2), (0x700120C5, .barArrive 0 9 0 3 5), (0x70100107, .barWait 0 4 7), (0x7030C002, .bart 0 6 0 2),
    (0x7030C022, .bart 0 6 1 2)] = true := by decide

/-- 14 and 15: RSM, RSM.rx, KILL, KILL.all, HX, TRAP 0x2A, SRD v5, die, SRD.u s12, cyclo, SWR nfr, s5, SWR rsel, s7, BKPT. -/
theorem test_words_system : reads [(0x7A100000, .rsm 0 0), (0x7A100001, .rsm 0 1), (0x7A200000, .kill 0 0), (0x7A200001, .kill 0 1), (0x7A400000, .hx 0), (0x7A00002A, .trap 0 0x2A),
    (0x78028006, .srd 0 5 6), (0x78460010, .srdU 0 12 0x10), (0x78800518, .swr 0 5 0x18), (0x7880071F, .swr 0 7 0x1F), (0x7A300000, .bkpt 0), (0xFA300000, .bkpt 1)] = true := by decide

/-! Ill-formed terms, one for each check of WellFormed -/

/-- A broadcast destination; an odd pair; a uniform code of 64; a predicate code of 8; a reserved mode, size, scope, function or special code; a group out of line; the zero word. -/
theorem test_ill_formed : ([.iadd 0 112 1 2 0, .iadd 0 64 1 2 1, .iadd 0 0 0 0 0, .lea 0 3 2 1 0, .mov 0 112 1 0, .icmp 0 0 8 1 2 0, .icmp 0 0 1 64 2 1, .sel 0 1 112 1 2 0, .movi 0 112 0,
    .moviU 0 64 0, .cvt 0 0 3 1 0x10, .cvt 0 7 3 1 0x10, .unpk 0 6 1 2 3 0, .fmt 0 0x10 2 4 0x10, .shfl 0 5 1 2 3, .vote 0 5 1 2, .vote 0 0 8 2, .rdfl 0 1 2 2, .prfx 0 1 2 4, .conf 0 1 2 8,
    .kcomb 0 1 2 4, .rebal 0 3 1 2, .mask 0 1 4] : List Instr).all (fun i => !i.wf) = true := by decide
theorem test_ill_formed_memory : ([.sfe 0 112 1 0 0 0, .stbl 0 8 0 0, .tswp 0 8 0, .lmrg 0 64 0 0 0, .lrd 0 64 0, .lvar 0 1 64, .srg 0 0 0, .sld 0 64 0 0, .ssw 0 64 0, .qset 0 62 0, .sctr 0 0 3 0,
    .ldG 0 3 1 2 3 0 0, .ldGExt 0 3 1 2 3 0 0, .stG 0 3 1 2 3 0 0, .stGB128 0 2 0 0 0, .atom 0 15 4 0 0 0, .atom 0 1 5 0 0 0, .aoaddB32 0 1 0 0, .aoaddB64 0 3 112 0, .ldsumB32 0 112 0 0 0,
    .lduB32 0 64 0 0 0, .lduB64 0 3 0 0 0, .cpySFromG 0 3 1 2 3 0 0, .wait 0 64 0, .pub 0 64 0 0 0, .gathE 0 3 1 0 0 0, .tlook 0 1 3, .hclaim 0 64 0 0 0, .hins 0 1 2 0 0] : List Instr).filter
    (fun i => i.wf) = [] := by decide
theorem test_ill_formed_more : ([.haccAdd 0 3 2 0 0, .haccMin 0 2 3 0 0, .haccMax 0 3 2 0 0, .haccOr 0 2 3 0 0, .haccFadd 0 3 2 0 0, .hprb 0 3 2 0 0, .hdel 0 2 3 0 0, .hdrn 0 2 0 0 0, .hdrnDel 0 4 64 0 0,
    .pln 0 0 0 4 0 3, .upln 0 112 0 0, .mrd 0 112 0 0 0 0 0, .mrd 0 0 0 0 5 0 0, .mrd 0 0 0 15 1 0 0, .mrd 0 0 0 0 0 1 1, .brx 0 0 0, .callx 0 112 0, .barArrive 0 0 0 0 0, .barArrive 0 0 0 6 0,
    .barArrive 0 0 1 3 0, .barArriveWait 0 1 1 1 0, .barArriveWait 0 64 0 1 0, .barWait 0 0 0, .barWait 0 6 0, .bart 0 64 0 0, .fence 0 6 0, .take 0 64 0 0, .done 0 64 1, .done 0 1 0, .waitq 0 64, .qdom 0 64] : List Instr).filter
    (fun i => i.wf) = [] := by decide
theorem test_ill_formed_last : ([.give 0 0, .give 0 14, .claim 0 0, .claim 0 14, .srd 0 112 0, .srd 0 0 0xFF, .srdU 0 64 0, .srdU 0 0 0xFF, .swr 0 64 0x18, .swr 0 0 0, .hintMod 0 3 0 0 0 0 0 0, .ldsumB64 0 3 0 0 0,
    .ldsumG 0 2 0 0 0, .ldsumF32 0 0 1 0 0, .cpyGFromS 0 3 0 0 0 0 0, .cpySFromS 0 3 0 0 0, .cpyvG 0 3 0 0 0, .cpyvS 0 112 0 0 0, .gathXB16 0 112 0 0 0, .gathXB64 0 3 0 0 0, .tset 0 1 0, .red 0 9 0 0 0 0, .stSB128 0 2 0 0,
    .ldS 0 0 112 0 0 0 0, .ldSExt 0 0 2 0 0 0 0, .stS 0 3 1 0 0 0 0, .lst 0 1 0 1 0, .packageReset] : List Instr).filter (fun i => i.wf) = [] := by decide
/-- The unit steps have no word. -/
theorem test_units_have_no_word : ([.laneRunStart 0 0, .publishSwap 0, .packageReset, .hrsmKillAll 0, .podBarrierArrival 0 0 0] : List Instr).all (fun i => (encode i).isNone && !i.wf) = true := by decide

/-! Small states: one strand, in slot 0 of core 0, about to issue at offset 64 -/

/-- A strand of gang 1 with two threads on its path. -/
def strand0 : Strand := { gang := 1, path0 := { pc := 64, act := 5, run := some {} } }
def gang0 : Gang := { task := { entry := 2 ^ 40 }, live := 1, launch := 1 }
def kit (st : Strand) (g : Gang) : State := { cur := some (0, 0), strands := [(0, st)], gangs := [(1, g)] }
/-- A strand with vector registers, uniform registers and predicates. -/
def regs (v s p : Tab Word) : Strand := { strand0 with v, s, p }
/-- The strand with the hints of a chain of one hint word. -/
def hint (h : Hints) (st : Strand) : Strand := { st with path0 := { st.path0 with pc := 68, hints := h, chainPc := 64, chainLen := 1 } }
/-- The strand's path with a field changed. -/
def onPath0 (f : Path → Path) (st : Strand) : Strand := { st with path0 := f st.path0 }
/-- What exec leaves of strand k. -/
def leaves {α : Type} (d : α) (o : Host.Outcome State Fault Refusal) (f : State → α) : α := match o with
  | .next t => f t
  | _ => d
def got (i : Instr) (s : State) (f : Strand → Nat) : Nat := leaves 0 (exec i s) fun t => (t.strand 0).elim 0 f
def faults (i : Instr) (s : State) : List (Nat × Nat × Nat × Bool × Nat) := leaves [] (exec i s) fun t => (t.strand 0).elim [] fun st =>
  match st.path0.fault with
  | some f => [(f.cause, f.qual, f.emask.toNat, f.whole, f.pc.toNat)]
  | none => []

/-- i issues in s, and what it issues with meets p. -/
def meets (i : Instr) (s : State) (p : Env → Run → Bool) : Bool := match envOf i s with
  | none => false
  | some (e, r) =>
    let u := begun s e
    decide (r.words + e.len ≤ runLimit e.g.hdr.version ∧ lookaheadHeld u e.p e.len = false ∧ breakpoints u e = [] ∧ guardHeld u e = false ∧
      deferredStop u e = none ∧ decodeFault e = none ∧ dependHeld u e = false ∧ e.skips = false ∧ waits u e = .go) && p e r
/-- A state that meets `meets` meets the hypotheses of a statement about an instruction that issues. -/
theorem issues_of_meets {i : Instr} {s : State} {p : Env → Run → Bool} (h : meets i s p = true) : ∃ e r, Issues i s e r ∧ p e r = true := by
  unfold meets at h
  split at h
  · cases h
  · rename_i e r he
    have h' := (Bool.and_eq_true _ _).mp h
    exact ⟨e, r, ⟨he, of_decide_eq_true h'.1⟩, h'.2⟩
/-- Each instruction of a list issues in s, and meets p. -/
def allMeet (s : State) (p : Env → Run → Bool) (is : List Instr) : Bool := is.all fun i => meets i s p

/-! Integer, floating-point and cross-lane instructions -/

/-- Threads 0 and 2: v0 is 5 and 7, v1 3 and 0xFFFFFFFF; the register file as large as it can be. -/
def ints : State := kit { regs [(0, 5), (2, 7), (32, 3), (34, 0xFFFFFFFF), (64, 2), (98, 1)] [(1, 9), (2, 0x101), (3, 4)] [(1, 1)] with allot := 112 } gang0
def wideHint : Hints := { mod := some { d64 := true, sat := true } }
def ints64 : State := kit (hint wideHint { regs [(0, 5), (2, 7), (32, 3), (34, 0xFFFFFFFF)] [(1, 9), (2, 0x101), (3, 4)] [(1, 1)] with allot := 112 }) gang0

theorem witness_IntegerResults_wide : allMeet ints (fun e _ => (wideBinary e.i).isSome) [.iadd 0 8 0 1 0, .isub 0 111 127 111 0, .imul 0 8 0 1 0, .min 0 8 0 1 0, .max 0 8 0 1 0,
    .and 0 8 0 1 0, .or 0 8 0 1 0, .xor 0 8 0 1 0, .andn 0 8 0 1 0, .iadd 0 63 0 1 1, .andn 1 0 1 2 1] = true := by decide +kernel
theorem witness_IntegerResults_pairs : allMeet ints64 (fun e _ => (wideBinary e.i).isSome) [.iadd 0 110 0 126 0, .isub 0 8 110 0 0, .isub 0 62 0 2 1] &&
    allMeet (kit (hint { mod := some { d64 := true } } { strand0 with allot := 112 }) gang0) (fun e _ => (wideBinary e.i).isSome)
      [.min 0 8 0 2 0, .max 0 8 0 2 0, .and 0 8 0 2 0, .or 0 8 0 2 0, .xor 0 8 0 2 0, .andn 0 8 0 2 0] = true := by decide +kernel
theorem witness_IntegerResults : allMeet ints (fun e _ => (integerValue e e.i).isSome) [.imulh 0 8 0 1 0, .imad 0 8 0 1 0, .lea 0 110 0 1 0, .iabs 0 8 0 0, .clz 0 8 0 0, .popc 0 8 0 0,
    .brev 0 8 0 0, .mov 0 111 127 0, .bfx 0 8 0 1 0, .bfi 0 8 0 1 0, .sel 0 1 8 0 1 0, .shl 0 8 0 1 0, .shr 0 8 0 1 0, .sar 0 8 0 1 0, .mov 0 63 0 1, .lea 0 62 0 1 1] = true := by decide +kernel
theorem witness_IntegerResults_immediate : allMeet ints (fun e _ => (immediateOp e.i).isSome) [.movi 0 111 255, .moviU 0 63 0, .iaddI 0 8 0 1, .iaddIu 0 8 1 1, .shlI 0 8 0 64, .shlIu 0 8 1 32,
    .shrI 0 8 0 31, .shrIu 0 8 1 31, .sarI 0 8 0 31, .sarIu 0 8 1 31, .andI 0 8 0 255, .andIu 0 8 1 255, .orI 0 8 0 255, .orIu 0 8 1 255, .xorI 0 8 0 255, .xorIu 0 8 1 255] = true := by
  decide +kernel
theorem witness_Comparisons : allMeet ints (fun _ _ => true) [.icmp 0 0 0 0 1 0, .icmp 0 1 7 0 1 0, .icmp 0 2 1 1 2 1, .icmp 0 3 2 0 1 0, .icmp 0 4 2 0 1 0, .icmp 0 5 2 0 1 0, .icmp 0 6 2 0 1 0,
    .icmp 0 7 2 0 1 0] = true := by decide +kernel

/-- Threads 0 and 2: v0 is 1.0 and a signalling NaN, v1 2.0 and 0.5; no flag traps. -/
def reals : State := kit { regs [(0, 0x3F800000), (2, 0x7F800001), (32, 0x40000000), (34, 0x3F000000)] [(1, 0x3F800000), (2, 0x40000000)] [] with allot := 112 } gang0
/-- The flags an instruction raises in threads that are enabled to trap. -/
def caughtBy (s : State) (e : Env) : List Nat := match flaggedValue s e e.i with
  | some (x, m, _, _, f) => if x = 1 then [trapped e.p.nfr (f (lowest e.act)).2] else (active m).map fun t => trapped e.p.nfr (f t).2
  | none => [1]
theorem witness_FlaggedResults : allMeet reals (fun e _ => (caughtBy reals e).all (· == 0)) [.fadd 0 8 0 1 0, .fadd 0 63 1 2 1, .fsub 0 8 0 1 0, .fmul 0 8 0 1 0, .ffma 0 8 0 1 0, .fmin 0 8 0 1 0,
    .fmax 0 8 0 1 0, .frnd 0 8 0 0, .hadd2 0 0 8 0 1 0, .hmul2 0 1 8 0 1 0, .hfma2 0 0 8 0 1 0, .fdot2 0 1 8 0 1 0, .cvt 0 0x10 111 0 0x11, .cvt 0 0x10 8 0 7, .fmt 0 0x10 8 0 0x11,
    .fmt 0 0x11 8 0 0x13] = true := by decide +kernel
theorem witness_FlaggedResults_units : allMeet reals (fun e _ => (caughtBy reals e).all (· == 0)) [.kcomb 0 8 0 0, .kcomb 0 8 0 3, .sfe 0 8 1 0 0 0, .sfe 0 8 1 11 15 0, .lrd 0 63 0, .lrd 0 0 1,
    .lvar 0 5 1] = true := by decide +kernel
/-- The strand with every flag enabled to trap (05 R104). -/
def trapping (s : State) : State := { s with strands := s.strands.map fun x => (x.1, onPath0 (fun p => { p with nfr := p.nfr ||| 0x3E00 }) x.2) }
theorem witness_NumericTraps : allMeet (trapping reals) (fun e _ => (caughtBy reals e).any (· != 0)) [.fadd 0 8 0 1 0, .fadd 0 8 0 0 0, .fmul 0 8 0 1 0] &&
    meets (.fadd 0 8 3 2 1) (trapping (kit (regs [] [(2, 0x7F800001)] []) gang0)) (fun e _ => caughtBy reals e != [0]) = true := by decide +kernel
theorem witness_LaneResults : allMeet ints (fun e _ => (laneValue e e.i).isSome) [.fcls 0 8 0 0, .fcls 0 8 1 1, .pack 0 0 8 0 1 0, .pack 0 7 8 0 1 0, .unpk 0 5 8 0 1 0, .unpk 0 0 8 0 1 0,
    .shfl 0 0 8 0 1, .shfl 0 4 8 0 127, .vote 0 2 8 1, .vote 0 4 111 7, .rdfl 0 8 0 0, .rdfl 0 63 0 1, .prfx 0 8 0 0, .prfx 0 8 0 3, .rebal 0 110 0 1, .mask 0 8 0, .mask 0 8 3] = true := by
  decide +kernel
theorem witness_LaneResults_predicates : allMeet ints (fun _ _ => true) [.vote 0 0 1 1, .vote 0 1 7 1, .vote 0 3 0 127, .conf 0 8 0 0, .conf 0 111 0 7] &&
    meets (.rdfl 0 8 0 0) (kit (onPath0 (fun p => { p with act := 0 }) strand0) gang0) (fun e _ => decide (e.act = 0)) = true := by decide +kernel
theorem witness_Comparisons_floats : allMeet reals (fun _ _ => true) [.fcmp 0 0 1 0 1 0, .fcmp 0 7 7 0 1 0, .fcmp 0 2 0 1 2 1] &&
    meets (.fcmp 0 2 1 0 1 0) reals (fun e _ => e.ts.all fun t => trapped e.p.nfr (floatCompare 2 (e.fp32In 0 0 false t) (e.fp32In 0 1 false t)).2 == 0) = true := by decide +kernel
theorem witness_LongAccumulators : allMeet reals (fun _ _ => true) [.lz 0 0, .lz 1 1, .ladd 0 0 0 0, .ladd 0 127 1 1] = true := by decide +kernel

/-! Loads, stores, atomics: objects 1 (in the Onyx SRAM of die 0) and 2 (in stack 0), the object table in that SRAM -/

/-- The cells of bytes at a key. -/
def cellsAt (k : Nat) (bs : List Byte) : List Host.Cell := ((List.range bs.length).zip bs).filterMap fun x => if x.2 = 0 then none else some (k + x.1, x.2)
/-- A record of 1,024 elements of 4 bytes: placement of its slots, their bases (01 R19). -/
def recordOf (place base base' : Nat) : List Byte := leBytes 8 (1 + 64 * 5 + 2 ^ 16 * 16) ++ leBytes 8 4096 ++ leBytes 16 (1024 + 2 ^ 32 + 2 ^ 64 + 2 ^ 96) ++ leBytes 16 1 ++ leBytes 16 0 ++
  leBytes 16 (base + 2 ^ 64 * 4096) ++ leBytes 8 (2 ^ 32 * (15 + 16 * place)) ++ leBytes 8 0 ++ leBytes 16 (base' + 2 ^ 64 * 4096) ++ leBytes 8 (2 ^ 32 * (15 + 16 * place))
/-- The two records of the table. -/
def object1 : List Host.Cell := [(65664, 65), (65665, 1), (65666, 16), (65673, 16), (65681, 4), (65684, 1), (65688, 1), (65692, 1), (65696, 1), (65730, 2), (65737, 16), (65748, 63), (65761, 32),
  (65762, 2), (65769, 16), (65780, 63)].map fun x => (2 ^ 41 + x.1, x.2)
def object2 : List Host.Cell := [(65792, 65), (65793, 1), (65794, 16), (65801, 16), (65809, 4), (65812, 1), (65816, 1), (65820, 1), (65824, 1), (65858, 2), (65865, 16), (65876, 47), (65889, 32),
  (65890, 2), (65897, 16), (65908, 47)].map fun x => (2 ^ 41 + x.1, x.2)
def objectTable : List Host.Cell := object1 ++ object2
theorem test_objectTable : objectTable = cellsAt (onyxKey 0 0x10080) (recordOf 3 0x20000 0x22000) ++ cellsAt (onyxKey 0 0x10100) (recordOf 2 0x20000 0x22000) := by decide +kernel
/-- Die 0 with its stacks, its gather unit and a port to a pod; the system space in its Onyx SRAM. -/
def win0 : Window := { caps := 0x0301_0F10, bootstat := 0xD }
def objects (st : Strand) (g : Gang) : State := { kit st g with
  mem := objectTable
  ctxs := [(0, { otbase := 0x10000, otlen := 4 })], pkg := { win := win0 } }
/-- s0 and s1 name object 1, s2 and s3 object 2; v0 is 0 and 4 in threads 0 and 2, v1 is 4092, v2 and v3 address object 2. -/
def loads : State := objects { regs [(2, 4), (32, 4092), (34, 4092), (96, 512), (98, 512)] [(1, 256), (3, 512)] [] with allot := 112 } gang0
def allLocated (s : State) (e : Env) : Bool := match objectAccess e e.i with
  | none => false
  | some x => e.ts.all fun t => match translate (paid e.i e s) e.die e.ctx (x.addr t) x.bytes x.kind with | .ok _ => true | .error _ => false
def someFail (s : State) (e : Env) : Bool := match objectAccess e e.i with
  | none => false
  | some x => e.ts.any fun t => match translate (paid e.i e s) e.die e.ctx (x.addr t) x.bytes x.kind with | .ok _ => false | .error _ => true
def wordAccesses : List Instr := [.ldG 0 2 8 0 0 15 0, .ldG 0 0 111 0 1 0 0, .ldGExt 0 1 8 0 0 0 0, .stG 0 2 8 0 0 0 0, .stG 0 1 127 0 1 0 0, .atom 0 0 8 0 0 0, .red 0 8 8 0 0 0]
def wideAccesses : List Instr := [.ldG 0 3 8 4 0 0 0, .ldGExt 0 0 8 4 0 0 0, .ldGExt 0 2 8 4 0 0 0, .stGB128 0 8 4 0 0, .atom 0 11 8 4 0 0, .atom 0 12 8 4 1 0, .atom 0 14 8 4 0 0, .red 0 14 8 4 0 0]
theorem witness_ObjectAccesses : allMeet loads (fun e _ => allLocated loads e) wordAccesses = true := by decide +kernel
theorem witness_ObjectAccesses_wide : allMeet loads (fun e _ => allLocated loads e) wideAccesses = true := by decide +kernel
theorem witness_ObjectAccesses_last : meets (.ldG 0 2 8 1 0 0 0) loads (fun e _ => allLocated loads e) = true := by decide +kernel
theorem witness_ObjectAccesses_idle : meets (.ldG 0 2 8 1 0 0 0) (objects (onPath0 (fun p => { p with act := 0 }) strand0) gang0) (fun e _ => decide (e.act = 0)) = true := by decide +kernel
/-- One thread beyond the object's end and one inside, then both beyond. -/
theorem witness_ObjectAccessFaults : meets (.ldG 0 3 8 1 0 0 0) loads (fun e _ => someFail loads e) && meets (.stG 0 2 8 0 0 0 0) (objects (regs [(2, 4096)] [(1, 256)] []) gang0)
    (fun e _ => someFail (objects (regs [(2, 4096)] [(1, 256)] []) gang0) e && !(e.ts.all fun t => decide (e.objectAt 0 0 0 t ≠ 2 ^ 40))) = true := by decide +kernel

/-! Scratchpad, uniform and pod accesses, copies and gathers -/

/-- A gang with 4 KiB of scratchpad, two blocks of keys and every barrier slot; s3 is the last 4 bytes, s4 the last 64, s5 just past them. -/
def gangS : Gang := { gang0 with hdr := { direct := 4096, keyu := 2, nbcore := 16, nbquad := 32, nbdie := 64, nbpkg := 64, nbpod := 16 } }
def scratches : State := objects { regs [(0, 0), (2, 4092), (64, 4032), (66, 4032)] [(1, 256), (2, 4096), (4, 4032), (5, 4096)] [] with allot := 112 } gangS
def inScratch (e : Env) (a n : Nat) : Bool := match scratch e.g a n with | .ok _ => true | .error _ => false
theorem witness_ScratchAccesses : allMeet scratches (fun e _ => match scratchLoad e e.i with | some (_, a, n, off, _) => e.ts.all fun t => inScratch e (e.scratchAt a off t) n | none => false)
    [.ldS 0 2 8 0 0 0 0, .ldS 0 0 8 0 1 0 0, .ldSExt 0 1 111 0 3 15 0, .ldSExt 0 0 8 2 3 0 0, .ldS 0 3 110 2 7 0 0] &&
  allMeet scratches (fun e _ => match scratchStore e e.i with | some (_, a, n, off) => e.ts.all fun t => inScratch e (e.scratchAt a off t) n | none => false)
    [.stS 0 2 8 0 0 0 0, .stS 0 0 127 0 3 0 0, .stSB128 0 8 2 0] = true := by decide +kernel
def uniformPlace (e : Env) : Nat × Nat × Kind := match e.i with
  | .lduB32 _ _ a k _ => (e.uniformAt k a, 4, .read)
  | .lduB64 _ _ a k _ => (e.uniformAt k a, 8, .read)
  | .lmrg _ a _ _ _ => (e.st.upair a.toNat, 64, .read)
  | .lst _ a _ _ _ => (e.st.upair a.toNat, 64, .write)
  | _ => (0, 1, .read)
def uniformLies (s : State) (e : Env) : Bool := match translate (paid e.i e s) e.die e.ctx (uniformPlace e).1 (uniformPlace e).2.1 (uniformPlace e).2.2 with
  | .ok _ => true
  | .error _ => false
theorem witness_UniformAccesses : allMeet scratches (fun e _ => uniformLies scratches e) [.lduB32 0 8 0 0 0, .lduB64 0 62 4 0 15, .lmrg 0 0 0 1 0, .lst 0 0 1 1 0] = true := by decide +kernel
/-- Past the object, a write of a misaligned place, object 0. -/
theorem witness_UniformAccesses_fail : allMeet scratches (fun e _ => !uniformLies scratches e) [.lduB32 0 8 5 0 0, .lduB64 0 8 5 0 0, .lmrg 0 2 0 1 0, .lst 0 6 1 1 0] = true := by decide +kernel
theorem witness_LongAccumulators_scratch : allMeet scratches (fun e _ => inScratch e (e.st.sreg 4).toNat 64 && !inScratch e (e.st.sreg 5).toNat 64)
    [.lmrg 0 4 0 0 0, .lst 0 4 1 0 0, .lmrg 0 5 1 0 0, .lst 0 5 0 0 0] = true := by decide +kernel
/-- Object 2 lies in a stack, object 1 does not; under the bypass policy nothing is fetched. -/
theorem witness_FillsAndOrderedAdds_prefetch : allMeet loads (fun e _ => (e.ts.all fun t => match translate loads e.die e.ctx (e.objectAt (if e.i = .pref 0 0 1 then 1 else 0) 0 0 t) 1 .read with
      | .ok l => decide (isStack ((memKeys l.bytes).headD 0) = true ↔ e.i = .pref 0 0 1)
      | .error _ => false)) [.pref 0 0 0, .pref 0 0 1] &&
    meets (.pref 0 0 1) (objects (hint { mod := some { cache := 2 } } strand0) gang0) (fun e _ => decide (e.h.cache = 2)) = true := by decide +kernel
/-- v8 is added to the cell at s0, s1; the same of a divided strand, of a recovery strand, and at s2, s3, which name no object. -/
def adds : Strand := { regs [(256, 3), (258, 4)] [(1, 256), (3, 256 * 9)] [] with allot := 32 }
def cellLies (a : BitVec 7) (e : Env) : Bool := match translate (objects adds gang0) e.die e.ctx (e.pairAt a 0 0) 16 .atomic with | .ok _ => true | .error _ => false
theorem witness_FillsAndOrderedAdds_adds : allMeet (objects adds gang0) (fun e _ => cellLies 112 e && !e.st.divided && e.st.recov.isNone) [.aoaddB32 0 31 112 0, .aoaddB64 0 8 112 15] &&
    meets (.aoaddB32 0 8 112 0) (objects (onPath0 (fun p => { p with act := 0 }) adds) gang0) (fun e _ => cellLies 112 e) &&
    allMeet (objects adds gang0) (fun e _ => !cellLies 114 e && !e.st.divided && e.st.recov.isNone) [.aoaddB32 0 8 114 0, .aoaddB64 0 8 114 0] &&
    meets (.aoaddB32 0 8 112 0) (objects { adds with divided := true } gang0) (fun e _ => e.st.divided) &&
    meets (.aoaddB64 0 8 112 0) (objects { adds with recov := some [] } gang0) (fun e _ => !e.st.divided && e.st.recov.isSome) = true := by decide +kernel
/-- Object 1 made a replica: bit 22 of its record's first word set, its set of one member at offset 0x8000 of the SRAM. -/
def pods : State := let s := objects (onPath0 (fun p => { p with act := 4 }) { regs [(34, 256), (98, 256)] [] [] with allot := 112 }) gang0
  { s with mem := writeBytes (writeByte s.mem (onyxKey 0 0x10082) 0x50) (keysFrom (onyxKey 0 0x8000) 8) [1, 0, 0, 0, 1, 0, 1, 0]
           pkg := { win := { win0 with rstoff := 0x1_0000_8000 } } }
def replicated (s : State) (e : Env) : Bool := s.wilmo && e.ts.all fun t => match record s e.die e.ctx (e.pairAt 0 0 t / 2 ^ 40 % 2 ^ 24) with
  | some r => r.repl && (replicaSet s r.rset).isSome && (match translate s e.die e.ctx (e.pairAt 0 0 t) (match e.i with | .ldsumB64 .. => 8 | .ldsumG .. => 16 | _ => 4) .read with | .ok _ => true | .error _ => false)
  | none => false
theorem witness_FillsAndOrderedAdds_pod : allMeet pods (fun e _ => replicated pods e) [.ldsumB32 0 111 0 0 0, .ldsumB64 0 8 0 3 0, .ldsumG 0 8 0 1 0, .ldsumF32 0 8 0 2 15] &&
    allMeet { pods with pkg := { win := { win0 with caps := 0x100F10 } } } (fun _ _ => !({ pods with pkg := { win := { win0 with caps := 0x100F10 } } } : State).wilmo)
      [.ldsumB32 0 8 0 0 0, .ldsumB64 0 8 0 3 0, .ldsumG 0 8 0 1 0, .ldsumF32 0 8 0 2 0] &&
    meets (.ldsumB32 0 8 0 0 0) (objects (onPath0 (fun p => { p with act := 0 }) strand0) gang0) (fun e _ => e.act == 0 && (objects strand0 gang0).wilmo) = true := by decide +kernel
/-- v0 and v1 address 128-byte tiles of scratchpad and objects 1 and 2 by s0 to s3. -/
def copier : Strand := onPath0 (fun p => { p with act := 4 }) { regs [(2, 128), (34, 128)] [(1, 256), (3, 512)] [] with allot := 112 }
def copies : State := objects copier gangS
def sides (s : State) (e : Env) : Bool := match copySides e e.i with
  | some (x, y, _, _) => e.ts.all fun t => (match x.lies s e t with | .ok _ => true | .error _ => false) && (match y.lies s e t with | .ok _ => true | .error _ => false)
  | none => false
theorem witness_CopiesAndGathersStart_objects : allMeet copies (fun e _ => sides (paid e.i e copies) e) [.cpySFromG 0 2 1 0 0 0 0, .cpyGFromS 0 0 1 0 0 15 0, .cpyGFromGB4 0 1 0 0 0,
    .cpyGFromGB8 0 1 0 0 0, .cpyGFromGB16 0 1 0 0 0] = true := by decide +kernel
theorem witness_CopiesAndGathersStart_tiles : allMeet copies (fun e _ => sides (paid e.i e copies) e) [.cpySFromS 0 2 1 0 0, .cpyvG 0 8 0 0 0, .cpyvS 0 8 0 0 0] = true := by decide +kernel
/-- The strand with a CREDIT hint of a slot. -/
def credited (c : BitVec 5) (s : State) : State := { s with strands := s.strands.map fun x => (x.1, hint { credit := some c } x.2) }
theorem witness_CopiesAndGathersStart_credit : allMeet (credited 15 copies) (fun e _ => decide (e.h.credit = some 15 ∧ 15 < e.g.hdr.nbcore)) [.cpySFromG 0 2 1 0 0 0 0, .cpySFromS 0 2 1 0 0] &&
    allMeet (credited 16 copies) (fun e _ => decide (e.h.credit = some 16)) [.cpySFromG 0 2 1 0 0 0 0, .cpyGFromS 0 0 1 0 0 0 0] &&
    allMeet (kit (onPath0 (fun p => { p with act := 0 }) strand0) gangS) (fun e _ => decide (e.act = 0)) [.cpySFromG 0 2 1 0 0 0 0, .cpyGFromS 0 0 1 0 0 0 0] = true := by decide +kernel
def gathers (s : State) (e : Env) : Bool := match gatherForm e e.i with
  | some (_, n, w, a, vs) => s.gather && (e.ts.all fun t => (match translate s e.die e.ctx (a t) w .read with | .ok _ => true | .error _ => false) &&
      (match e.h.third with | some c => (match scratch e.g (e.scratchAt c 0 t) n with | .ok _ => true | .error _ => false) | none => true)) && match vs with
    | some (b, _) => (match record s e.die e.ctx (b / 2 ^ 40 % 2 ^ 24) with
      | some rec => recordBad s e.die e.ctx rec rec.current == none && rec.current.place == 2
      | none => false)
    | none => true
  | none => false
theorem witness_CopiesAndGathersStart_gather : allMeet copies (fun e _ => gathers (paid e.i e copies) e) [.gathE 0 0 111 0 0 0, .gathE 0 2 8 0 1 0, .gathXB16 0 8 0 1 0, .gathXB64 0 8 0 1 15] &&
    meets (.gathXB32 0 0 0 1 0) { copies with strands := [(0, hint { third := some 1 } copier)] } (fun e _ => e.h.third.isSome && gathers copies e) &&
    meets (.gathE 0 0 8 0 0 0) { copies with pkg := {} } (fun _ _ => !({ copies with pkg := {} } : State).gather) &&
    meets (.gathE 0 0 8 0 0 0) (credited 16 copies) (fun e _ => (credited 16 copies).gather && e.h.credit == some 16) = true := by decide +kernel

/-! Batches, publishes, tags and key tables -/

/-- s8 is 0, the batch count a WAIT names; a strand with 15 batches sealed and 15 unfinished may seal the sixteenth. -/
def batched : State := kit { regs [] [(1, 256)] [] with sealedB := [(1, 15)] } gang0
theorem witness_BatchesAndPublishes : allMeet batched (fun e _ => decide (rd 0 e.st.sealedB 1 = 15)) [.seal 0 0, .seal 1 1, .wait 0 63 0, .wait 0 1 1] &&
    allMeet (objects (regs [] [(1, 256), (3, 512)] []) gang0) (fun e _ => match e.i with
      | .pub _ _ c k _ => decide ((pubFault (paid e.i e (objects (regs [] [(1, 256), (3, 512)] []) gang0)) e.die e.ctx c (e.st.upair (2 * k.toNat) / 2 ^ 40 % 2 ^ 24)).isNone = (k.toNat < 2))
      | _ => false) [.pub 0 8 0 0 0, .pub 0 63 5 1 15, .pub 0 8 3 2 0] = true := by decide +kernel
/-- A carve-out of 1,536 tags: slot 0 is of the set of address 0, slot 1535 the last, slot 1536 none. -/
def tagged (a b : Word) : State := kit (regs [(64, a), (66, b)] [] []) { gang0 with hdr := { carve := 3 } }
theorem witness_TagTable : allMeet (tagged 0 0) (fun e _ => e.ts.all fun t => decide ((e.st.src 2 t).toNat < tagEntries e.g.hdr.carve)) [.tlook 0 8 0, .tset 0 0 2, .tinv 0 2] &&
    allMeet (tagged 0 1536) (fun e _ => (e.ts.any fun t => decide (tagEntries e.g.hdr.carve ≤ (e.st.src 2 t).toNat))) [.tset 0 0 2, .tinv 0 2] &&
    allMeet (tagged 1535 1535) (fun e _ => decide (tagEntries e.g.hdr.carve = 1536)) [.tset 0 0 2, .tinv 0 2] &&
    meets (.tlook 0 31 0) (kit strand0 gang0) (fun e _ => tagEntries e.g.hdr.carve == 0) = true := by decide +kernel
/-- Gang 1 has claimed table 0 of one block; s56 is its handle, s57 names none. Memory lists nothing, so every entry has key 0. -/
def gangK : Gang := { gangS with keys := [(0, { serial := 5 })], claims := 6 }
def keyed (v : Tab Word) : State := kit { regs v [(4, 1022), (56, 5 * 2 ^ 16), (57, 1)] [] with allot := 112 } gangK
def tableFound (h : BitVec 3) (e : Env) : Bool := (tableOf e.g (e.st.sreg (56 + h.toNat)).toNat).isSome
/-- Each thread's application answers, with the first thread's memory as it was; keys 0 are present, keys 5 not. -/
def applies (s : State) (e : Env) : Bool := match keyForm e.i with
  | some (f, d, a, _, _) => e.ts.all fun t => match applyKey s e.g e.core e.ctx none { serial := 5 } f (e.get 0 a 2 t) (if f = 1 ∨ f = 2 then 0 else e.get 0 d 2 t) with
    | .done _ present _ => present == (e.get 0 a 2 t == 0)
    | _ => false
  | none => false
theorem witness_KeyTableResults : allMeet (keyed []) (fun e _ => tableFound 0 e && applies (keyed []) e) [.hins 0 8 0 1 0, .hprb 0 110 0 7 0, .hdel 0 8 0 0 0, .haccAdd 0 8 0 1 0, .haccMin 0 8 0 1 0,
    .haccMax 0 8 0 1 0, .haccOr 0 8 0 1 0, .haccFadd 0 8 0 1 0] && allMeet (keyed [(0, 5), (2, 5)]) (fun e _ => tableFound 0 e && applies (keyed []) e) [.hprb 0 8 0 1 0, .hdel 0 8 0 1 0] &&
    allMeet (keyed []) (fun e _ => !tableFound 1 e) [.hins 0 8 0 1 1, .hprb 0 8 0 1 1, .haccFadd 0 8 0 1 1] = true := by decide +kernel
/-- The first entry of key 5's bucket is empty. -/
def roomy : State := { keyed [] with mem := setEntry [] (entryKeys gangK { serial := 5 } (({ serial := 5 } : KeyDesc).probe 5).head!) emptyKey 0 }
theorem witness_InsertedKeyIsFound : (match applyKey roomy gangK 0 0 none { serial := 5 } 0 5 7 with | .done _ present _ => !present | _ => false) = true := by decide +kernel
theorem test_key_inserted : (match applyKey roomy gangK 0 0 none { serial := 5 } 0 5 7 with
    | .done m _ _ => decide (applyKey (roomy.setMem m) gangK 0 0 none { serial := 5 } 1 5 0 = .done m true 7)
    | _ => false) = true := by decide +kernel
theorem witness_KeyTableClaims : allMeet (keyed []) (fun e _ => match e.i with
      | .hclaim _ _ _ _ w => if 5 < w.toNat then true else (freeRun e.g.keys e.g.hdr.keyu (2 ^ w.toNat)).isSome == (w == 0)
      | .hrel _ h => tableFound h e == (h == 0)
      | _ => tableFound 0 e) [.hclaim 0 8 0 1 0, .hclaim 0 63 0 1 5, .hclaim 0 8 0 1 1, .hclaim 0 8 31 31 6, .hrel 0 0, .hrel 0 1] && allMeet (keyed []) (fun e _ => match e.i with
      | .hdrn _ _ a _ _ | .hdrnDel _ _ a _ _ => decide ((drain (keyed []) e.g e.core e.ctx none { serial := 5 } (e.i matches .hdrnDel ..) 2 { pos := (e.st.sreg a.toNat).toNat, mem := [] }).failed = none)
      | _ => false) [.hdrn 0 108 4 1 0, .hdrnDel 0 8 4 7 0] && allMeet (keyed []) (fun e _ => !tableFound 1 e) [.hdrn 0 8 4 1 1, .hdrnDel 0 8 4 1 1] = true := by decide +kernel

/-! Control flow: the chain at offset 64 of object 1, which holds the words given -/

def coded (ws : List (Nat × Nat)) (st : Strand) : State := { objects st gangS with mem := object1 ++ ws.flatMap fun w => cellsAt (onyxKey 0 (0x20000 + w.1)) (leBytes 4 w.2) }
/-- v1 is 112 in thread 0, v2 116, v3 120, v4 6, v5 4096; s5 is 1. -/
def jumper : Strand := { regs [(32, 112), (64, 116), (96, 120), (128, 6), (160, 4096)] [(5, 1)] [(1, 5), (2, 4)] with allot := 112 }
/-- LPAD with label 5, and the same for calls, at 112 and 116; a NOP at 120. -/
def pads : List (Nat × Nat) := [(112, 0x66200005), (116, 0x66201005), (120, 0x66700000)]
theorem witness_Branches : allMeet (coded [] jumper) (fun _ _ => true) [.br 0 0, .br 1 0x80000, .brc 0 1 5, .call 0 0 5, .call 0 7 0xFFFFF, .ret 0 1, .ret 0 111, .ret 0 4] &&
    meets (.brc 0 1 5) (coded [] jumper) (fun e _ => e.st.pred 1 (lowest e.p.act)) && meets (.brc 0 2 5) (coded [] jumper) (fun e _ => !e.st.pred 2 (lowest e.p.act)) &&
    allMeet (coded pads jumper) (fun _ _ => true) [.callx 0 7 1, .callx 0 111 2, .callx 0 7 3, .callx 0 7 5] = true := by decide +kernel
theorem test_branch_targets : (got (.br 0 0xFFFFF) (coded [] jumper) fun st => st.path0.pc.toNat) = 60 ∧ (got (.brc 0 2 5) (coded [] jumper) fun st => st.path0.pc.toNat) = 68 ∧
    (got (.call 0 7 5) (coded [] jumper) fun st => st.path0.pc.toNat * 2 ^ 64 + (st.vreg 7 2).toNat) = 84 * 2 ^ 64 + 68 ∧ (got (.ret 0 1) (coded [] jumper) fun st => st.path0.pc.toNat) = 112 ∧
    (faults (.ret 0 4) (coded [] jumper)).map (·.1) = [0x24] := by decide +kernel
/-- CALLX to a pad for calls goes there; to another pad, to a word that is none and beyond the object it stops. -/
theorem test_callx : (got (.callx 0 7 2) (coded pads jumper) fun st => st.path0.pc.toNat) = 116 ∧ [1, 3, 5].map (fun t => (faults (.callx 0 7 t) (coded pads jumper)).map (·.1)) = [[0x06], [0x06], [0x21]] := by
  decide +kernel
/-- Tables at 80 (two entries, label 5), 160 (a reserved bit), 200 (no entry), 4092 (its entry beyond the object), 240 (a target beyond it), 280 (a target that is no pad) and 320 (a pad of another label). -/
def tables : State := coded ([(80, 0x2005), (88, 8), (112, 0x66200005), (160, 0x1001005), (200, 5), (240, 0x2005), (248, 0x1000), (280, 0x2005), (288, 0), (320, 0x2006), (328, 0xFFFFFFCC), (4092, 0x1005)]) jumper
theorem witness_Branches_indexed : allMeet tables (fun _ _ => true) [.brx 0 5 4, .brx 0 5 0x3FFF, .brx 0 5 24, .brx 0 5 34, .brx 0 6 1007, .brx 0 5 44, .brx 0 5 54, .brx 0 5 64] = true := by decide +kernel
theorem test_brx : (got (.brx 0 5 4) tables fun st => st.path0.pc.toNat) = 112 ∧
    [0x3FFF, 24, 34, 44, 54, 64].map (fun o => (faults (.brx 0 5 o) tables).map fun f => (f.1, f.2.1)) =
      [[(0x21, 0)], [(0x07, 0x1E)], [(0x07, 0)], [(0x21, 0)], [(0x06, 0)], [(0x06, 0)]] ∧
    (faults (.brx 0 6 1007) tables).map (·.1) = [0x21] := by decide +kernel
theorem witness_PathEnds : allMeet (coded [] jumper) (fun _ _ => true) [.nop 0, .lpad 0 0 0, .lpad 1 1 4095, .yld 0, .yld 1] && meets (.brc 0 2 0) (coded [] jumper) (fun e _ => !e.st.pred 2 (lowest e.p.act)) = true := by
  decide +kernel
/-- A level whose other side is thread 1, pending, and one whose other side, thread 1, is done. -/
def level : StackEntry := { fmask := 5, pmask := 2, ppc := 200, nfrs := 0x13000001 }
def levelDone : StackEntry := { fmask := 2, pmask := 0, ppc := 100, side := true, nfrs := 0x13000002 }
def stacked (es : List StackEntry) (st : Strand) : Strand := onPath0 (fun p => { p with stack := es }) st
def plainPath (e : Env) : Bool := !e.st.divided && e.pi == 0 && e.p.reissue.isNone && !e.p.ended
/-- EXIT of thread 0 alone under a guard, of the last threads, and of those above a level with a side pending. -/
theorem witness_PathEnds_exit : meets (.exit 0) (coded [] (hint { guard := some (true, 2) } jumper)) (fun e _ => plainPath e && decide (e.p.act &&& ~~~e.act ≠ 0)) &&
    meets (.exit 0) (coded [] jumper) (fun e r => plainPath e && decide (e.p.act &&& ~~~e.act = 0) && (unwind (e.pathAfter r (some (e.pc + 4)) true e.p) []).isNone) &&
    meets (.exit 1) (coded [] (stacked [level] jumper)) (fun e _ => plainPath e && decide (level.pmask &&& ~~~e.act ≠ 0)) = true := by decide +kernel
theorem test_exit : (got (.exit 0) (coded [] (hint { guard := some (true, 2) } jumper)) fun st => st.path0.act.toNat) = 4 ∧
    (got (.exit 1) (coded [] (stacked [level] jumper)) fun st => st.path0.act.toNat * 2 ^ 32 + st.path0.pc.toNat) = 2 * 2 ^ 32 + 200 := by decide +kernel
/-- BRD with both kinds, with a full stack, in a divided strand, with one kind. -/
def split (st : Strand) : Strand := { st with divided := true, path1 := { pc := 100, act := 2, run := some {} } }
def onOff (q : Nat) (e : Env) : Bool × Bool := (decide (e.act &&& e.st.pmask q ≠ 0), decide (e.p.act &&& ~~~(e.act &&& e.st.pmask q) ≠ 0))
theorem witness_Divergence : meets (.brd 0 2 5) (coded [] jumper) (fun e _ => !e.st.divided && onOff 2 e == (true, true)) &&
    meets (.brd 0 0 5) (coded [] (stacked (List.replicate 24 level) jumper)) (fun e _ => decide (24 ≤ e.st.path0.stack.length)) &&
    meets (.brd 0 2 5) (coded [] (split { jumper with role := 3, frozen := List.replicate 16 level })) (fun e _ => decide (16 ≤ e.st.frozen.length) && e.st.role == 3) &&
    meets (.brd 0 2 5) (coded [] (split jumper)) (fun e _ => e.st.divided && onOff 2 e == (true, true)) &&
    meets (.brd 0 2 5) { coded [] (split { jumper with p := [(2, 2)] }) with cur := some (0, 1) } (fun e _ => e.st.divided && e.pi == 1 && onOff 2 e == (true, false)) &&
    meets (.brd 0 0 5) (coded [] jumper) (fun e _ => onOff 0 e == (true, false)) && meets (.brd 0 7 5) (coded [] jumper) (fun e _ => onOff 7 e == (false, true)) = true := by decide +kernel
theorem test_brd : (leaves none (exec (.brd 0 2 5) (coded [] jumper)) fun t => (t.strand 0).map fun st => (st.divided, st.path0.act, st.path0.pc, st.path1.act, st.path1.pc)) = some (true, 1, 68, 4, 84) ∧
    (faults (.brd 0 0 5) (coded [] (stacked (List.replicate 24 level) jumper))).map (·.1) = [0x0E] := by decide +kernel
theorem witness_Rejoins : meets (.join 0) (coded [] (stacked [level] jumper)) (fun e _ => decide (e.p.stack = [level])) && meets (.join 0) (coded [] (stacked [levelDone] jumper)) (fun e _ => decide (e.p.stack = [levelDone])) &&
    meets (.join 1) (coded [] jumper) (fun e _ => e.p.stack.isEmpty && !e.st.divided) && meets (.join 0) (coded [] (split jumper)) (fun e _ => e.p.stack.isEmpty && e.st.divided && !e.st.path1.arrived && !e.st.path1.ended) &&
    meets (.join 0) (coded [] (split { jumper with frozen := [level] } |> fun st => { st with path1 := { st.path1 with arrived := true, run := none } }))
      (fun e _ => e.st.divided && e.st.path1.arrived && decide (e.p.act ≠ 0 ∧ lowest e.p.act < lowest e.st.path1.act)) &&
    meets (.join 0) { coded [] (split jumper |> fun st => { st with path0 := { st.path0 with arrived := true, run := none } }) with cur := some (0, 1) }
      (fun e _ => e.st.divided && e.pi == 1 && e.st.path0.arrived && decide (e.p.act ≠ 0 ∧ lowest e.st.path0.act < lowest e.p.act)) = true := by decide +kernel
/-- The pending side runs next; the last side to come joins both. -/
theorem test_join : (got (.join 0) (coded [] (stacked [level] jumper)) fun st => st.path0.act.toNat * 2 ^ 32 + st.path0.pc.toNat) = 2 * 2 ^ 32 + 200 ∧
    (got (.join 0) (coded [] (stacked [levelDone] jumper)) fun st => st.path0.act.toNat * 2 ^ 32 + st.path0.pc.toNat) = 7 * 2 ^ 32 + 68 ∧ (faults (.join 0) (coded [] jumper)).map (·.1) = [0x0F] := by decide +kernel
/-- Every hint word begins a chain; a second of its kind does not join it. -/
def hintWords : List Instr := [.hintWide 0x1FFFFF, .hintMod 1 2 1 1 1 1 1 3, .hintThird 127, .hintGuard 1 7, .hintRtag 255, .hintTtag 65535, .hintCredit 31]
def full : Hints := { wide := some 0, mod := some {}, third := some 0, guard := some (true, 0), rtag := some 0, ttag := some 0, credit := some 0 }
theorem witness_HintWords : (hintWords.all fun i => (envOf i (coded [] jumper)).any fun (e, _) => i.wf && (hinted e.h i).any fun h => !h.2) &&
    (hintWords.all fun i => (envOf i (coded [] (hint full jumper))).any fun (e, _) => i.wf && (hinted e.h i).any fun h => h.2) = true := by decide +kernel
theorem test_hint_words : (got (.hintWide 0x1FFFFF) (coded [] jumper) fun st => (if st.path0.hints.wide = some 0x1FFFFF then 1 else 0) + st.path0.pc.toNat) = 69 ∧
    hintWords.map (fun i => (faults i (coded [] (hint full jumper))).map (·.1)) = List.replicate 7 [3] := by decide +kernel
/-- A core that sends records to a die that takes all kinds of context 0, wrapping and not; no unit; a full buffer. -/
def traced (c d len head : Dword) : State := { kit strand0 gang0 with cores := [(0, { dbgctl := c })], dies := [(0, { trctl := d, trlen := len, trhead := head })], pkg := { win := win0 } }
def wantsTrace (s : State) (kind : Nat) : Bool := (s.core 0).dbgctl.getLsbD 2 && (s.die 0).trctl.getLsbD 0 && (s.die 0).trctl.getLsbD (2 + kind) && ((s.die 0).trctl.getLsbD 16 || (s.die 0).trctl.toNat / 2 ^ 10 % 2 ^ 6 == 0)
theorem witness_LanesAndWindows_trace : !wantsTrace (traced 3 0x3FF 4 0) 7 && wantsTrace (traced 4 0x3FF 4 4) 7 && wantsTrace (traced 4 0x3FD 4 3) 0 && wantsTrace (traced 4 0x3FD 4 4) 0 &&
    ((List.range 32).Nodup && (((List.range 32).map fun i => (traced 4 0x3FF 4 4).sysKey i).Nodup : Bool)) = true := by decide +kernel

/-! Matrix, barrier, task and system instructions -/

/-- A team gang with 64 KiB of scratchpad; s1 is aligned and inside, s2 misaligned, s3 past the end. -/
def gangT : Gang := { gang0 with hdr := { direct := 65536, team := true, nbcore := 16, nbquad := 32 } }
def team : State := kit { regs [(0, 0x3F800000), (2, 0xC0000000)] [(1, 128), (2, 8), (3, 65536)] [] with allot := 112 } gangT
theorem witness_PlaneBlocks : allMeet team (fun e _ => match e.i with
      | .pln _ a u p d c => (match scratchRange e.g (e.st.sreg u.toNat).toNat (e.planes a p d c).1.length 16 with | .ok _ => u == 1 && trapped e.p.nfr (e.planes a p d c).2 == 0 | .error _ => u != 1)
      | _ => false) [.pln 0 0 1 4 0 0, .pln 0 0 1 0 1 1, .pln 0 0 1 15 0 2, .pln 0 0 1 8 0 3, .pln 0 0 2 4 0 0, .pln 0 0 3 4 0 0] = true := by decide +kernel
/-- A block of 4 planes whose header is legal stands at 128, and one that says 17 planes at 256. -/
def blocks : State := { kit { regs [] [(1, 128), (2, 8), (3, 65536), (4, 256)] [] with allot := 112 } gangT with
  mem := cellsAt (scratchKey 0 128) [0, 4, 0x10, 1] ++ cellsAt (scratchKey 0 256) [0, 17, 0x10, 1] }
theorem witness_PlaneBlocks_unpack : allMeet blocks (fun e _ => match e.i with
      | .upln _ _ u _ => (match scratchRange e.g (e.st.sreg u.toNat).toNat 16 16 with
        | .ok k => decide (u = 1 ∨ u = 4) && (parseBlock (readAt blocks.mem k 16)).ok == (u == 1)
        | .error _ => decide (u = 2 ∨ u = 3))
      | _ => false) [.upln 0 111 1 0, .upln 0 8 1 2, .upln 0 8 4 0, .upln 0 8 2 0, .upln 0 8 3 0] && meets (.upln 0 8 1 0) blocks (fun e _ => e.ts.all fun q =>
      trapped e.p.nfr (blockElement e.p.nfr e.rm (parseBlock (readAt blocks.mem (scratchKey 0 128) 32)) 0x10 q).2 == 0) = true := by decide +kernel
theorem witness_AccumulatorTiles : allMeet team (fun e _ => e.team) [.mz 0 0 0, .mz 0 7 0x100, .mrd 0 8 0 0 0 0 0, .mrd 0 96 7 0 4 1 0, .mrd 0 8 0 15 0 0 1, .mld 0 7 1 0 0, .mld 0 0 1 1 15, .mld 0 0 2 0 0, .mld 0 0 3 1 0] &&
    allMeet (kit { strand0 with allot := 112 } gang0) (fun e _ => !e.team) [.mz 0 0 0, .mrd 0 8 0 0 0 0 0, .mld 0 0 1 0 0] && meets (.mrd 0 8 0 0 0 0 0) team (fun e _ =>
      e.ts.all fun t => trapped e.p.nfr (readElem fp32 e.rm e.fz32 (e.g.elem 0 0 t) (e.g.window 0)).2 == 0) &&
    meets (.mld 0 0 1 1 0) team (fun e _ => match scratchRange e.g 128 16384 128 with | .ok _ => true | .error _ => false) = true := by decide +kernel
/-- Cores 0 to 3 of quad 0: a strand of each team gang, all threads active. The first three entries that MMA and MMT make stand in their match lists. -/
def member (c : Nat) : Strand := { gang := c + 1, path0 := { pc := 64, act := 0xFFFFFFFF, run := if c = 3 then some {} else none }, s := [(0, 0x80)] }
def entryBy (mmt : Bool) (c : Nat) : Op := { kind := .mma 1 mmt 0x80 0 true true 4 0 false, strand := c * 512, gang := c + 1, core := c, mask := 0xFFFFFFFF, pc := 64 }
def quadOfTeams (mmt : Bool) (n : Nat) (w : Nat) : State := {
  mem := object1 ++ cellsAt (onyxKey 0 0x20040) (leBytes 4 w), ctxs := [(0, { otbase := 0x10000, otlen := 4 })], pkg := { win := win0 }, cur := some (1536, 0), nextId := 9
  strands := (List.range 4).map fun c => (c * 512, member c)
  gangs := (List.range 4).map fun c => (c + 1, { gangT with core := c, bufA := some { ts8 := mmt, planes := 8, k512 := mmt }, bufB := some { ts8 := false, planes := 4, k512 := mmt } })
  cores := (List.range n).map fun c => (c, { matchList := [c + 1] }), ops := (List.range n).map fun c => (c + 1, entryBy mmt c) }
def joins : Bool → Instr
  | false => .mma 0 1 0 1 1 4 0
  | true => .mmt 0 1 0 1 1 4 0
theorem test_joint_words : [false, true].map (fun b => encode (joins b)) = [some 0x5E020C40, some 0x5E120C40] := by decide
theorem witness_JointOperations : ([false, true].all fun b => meets (joins b) (quadOfTeams b 2 0) (fun e _ => e.team && (jointForm e.i).isSome && decide (((quadOfTeams b 2 0).core 2).matchList = []))) &&
    ([false, true].all fun b => meets (joins b) (kit { member 0 with path0 := { (member 0).path0 with run := some {} } } gang0) fun e _ => !e.team) = true := by decide +kernel
/-- All that the acceptance of a joint operation asks of the four first entries. -/
def accepted (b : Bool) (w : Nat) : Bool := let s := quadOfTeams b 3 w
  meets (joins b) s fun e _ =>
    let v := e.joined (e.entry b 1 0 1 1 4 s.now) s
    e.team && ((List.range 4).all fun c => (v.core c).matchList.head? == some (if c = 3 then 9 else c + 1) && (match v.op (if c = 3 then 9 else c + 1), v.gang (c + 1) with
      | some o, some g => o.core == c && o.gang == c + 1 && decide (o.kind = .mma 1 b 0x80 0 true true 4 0 false) && (match memberCheck v c g b 0x80 0 true true 4 with | .ok _ => true | .error _ => false)
      | _, _ => false)) && decide (peek v e.core e.g 8 e.p = (some e.i, e.p)) && (List.range 4).all fun c => (v.core c).queue.isEmpty
theorem witness_JointOperations_accepted : accepted false 0x5E020C40 && accepted true 0x5E120C40 = true := by decide +kernel

/-- A gang of a team with slots of every scope: s2 is the count 2, s3 too large a one at CORE scope, s4 at every scope; a phase is a slot's number of completions. -/
def barred (bars : Tab BarSlot) (tg : Tab Word) : State := { kit { regs [] [(2, 2), (3, 33), (4, 0x1000001)] [] with targets := tg } { gangS with hdr := { gangS.hdr with team := true, nstr := 2 } } with
  bars, ctxs := [(0, { podmap := 0xFFFF })], pkg := { win := win0 } }
def slotOfBar (c q : Nat) (s : State) (e : Env) : BarSlot := s.bar (barKey c (barOwner e.g e.st.gang c) q)
def ok0 (s : State) (e : Env) : Bool := match e.i with
  | .barArrive _ n d c q | .barArriveWait _ n d c q => (e.slotFault s c.toNat q.toNat).isNone && decide (mayArriveB (slotOfBar c.toNat q.toNat s e) c.toNat
      (if d = 1 then (if c.toNat = 1 then e.g.hdr.nstr else 4 * e.g.hdr.nstr) else (e.st.sreg n.toNat).toNat))
  | .barWait _ c q => (e.slotFault s c.toNat q.toNat).isNone && !(slotOfBar c.toNat q.toNat s e).err
  | _ => false
where mayArriveB (b : BarSlot) (scope n : Nat) : Bool := decide (1 ≤ n ∧ n ≤ countLimit scope) && !b.err && (b.arr == 0 || (n == b.exp && b.arr != b.exp))
/-- An arrival at every scope, at the first and the last slot, explicit and default; the one that completes the phase. -/
theorem witness_BarriersAndFences_arrive : allMeet (barred [] []) (fun e _ => ok0 (barred [] []) e) [.barArrive 0 2 0 1 0, .barArrive 0 0 1 1 15, .barArrive 1 2 0 2 31, .barArrive 0 0 1 2 0, .barArrive 0 3 0 3 63,
    .barArrive 0 2 0 4 63, .barArrive 0 2 0 5 15, .barArriveWait 0 2 0 1 0, .barArriveWait 0 2 0 5 15] &&
    allMeet (barred [(barKey 1 1 0, { arr := 1, exp := 2 })] []) (fun e _ => ok0 (barred [(barKey 1 1 0, { arr := 1, exp := 2 })] []) e) [.barArrive 0 2 0 1 0, .barArriveWait 0 2 0 1 0] = true := by decide +kernel
/-- Arrivals that raise: no such slot; a count of 0, above the scope's, in the error state, unlike the first, beyond the last. -/
theorem witness_BarriersAndFences_refused : allMeet (barred [] []) (fun e _ => match e.i with | .barArrive _ _ _ c q | .barWait _ c q | .barArriveWait _ _ _ c q => (e.slotFault (barred [] []) c.toNat q.toNat).isSome | _ => false)
      [.barArrive 0 2 0 1 16, .barWait 0 2 32, .barArriveWait 0 2 0 5 16] && allMeet (barred [] []) (fun e _ => !ok0 (barred [] []) e) [.barArrive 0 0 0 1 0, .barArrive 0 3 0 1 0, .barArriveWait 0 4 0 3 0] &&
    allMeet (barred [(barKey 1 1 0, { err := true }), (barKey 1 1 1, { arr := 1, exp := 3 }), (barKey 1 1 2, { arr := 2, exp := 2, pend := 4 })] []) (fun e _ =>
      !ok0 (barred [(barKey 1 1 0, { err := true }), (barKey 1 1 1, { arr := 1, exp := 3 }), (barKey 1 1 2, { arr := 2, exp := 2, pend := 4 })] []) e)
      [.barArrive 0 2 0 1 0, .barArrive 0 2 0 1 1, .barArrive 0 2 0 1 2, .barArriveWait 0 2 0 1 0, .barWait 0 1 0] = true := by decide +kernel
/-- A wait whose target phase 0 has completed, one without a target, and the waiting half of an arrive-wait. -/
theorem witness_BarriersAndFences_wait : meets (.barWait 0 1 0) (barred [(barKey 1 1 0, { phase := 1 })] [(0, 0)]) (fun e _ => look e.st.targets 0 == some 0) && meets (.barWait 0 5 15) (barred [] []) (fun e _ =>
      (look e.st.targets (targetBit 5 15)).isNone && ok0 (barred [] []) e) && meets (.barArriveWait 0 2 0 1 0) { barred [(barKey 1 1 0, { phase := 1 })] [(0, 0)] with
        strands := [(0, onPath0 (fun p => { p with half := true }) { regs [] [(2, 2)] [] with targets := [(0, 0)] })] } (fun e _ => e.p.half && look e.st.targets 0 == some 0) = true := by decide +kernel
theorem test_barrier_completes : leaves {} (exec (.barArrive 0 2 0 1 0) (barred [(barKey 1 1 0, { arr := 1, exp := 2, phase := 4 })] [])) (fun t => t.bar (barKey 1 1 0)) = { phase := 5, arr := 0, exp := 2 } := by
  decide +kernel
theorem witness_BarriersAndFences_rest : allMeet (barred [] []) (fun _ _ => true) [.bart 0 2 0 0, .bart 0 3 1 15, .bart 0 2 0 16, .fence 0 1 0, .fence 0 5 3, .fence 1 2 2, .fence 0 0 1] &&
    meets (.bart 0 2 0 0) (kit strand0 gang0) (fun e _ => e.g.hdr.nbcore == 0) && meets (.bart 0 2 0 0) (barred [(barKey 1 1 0, { pend := 2 ^ 31 - 1 })] []) (fun _ _ => true) &&
    meets (.fence 0 5 2) (kit strand0 gang0) (fun _ _ => !(kit strand0 gang0).wilmo) = true := by decide +kernel
theorem test_joint_accepted : leaves [] (exec (joins false) (quadOfTeams false 3 0x5E020C40)) (fun t => (List.range 4).map fun c => ((t.core c).queue, (t.core c).matchList)) = [([1], []), ([2], []), ([3], []), ([9], [])] := by
  decide +kernel

/-! Tasks, loans, special registers and traps -/

/-- A gang with weight 2^40 in domain 0; s1 names a record in its scratchpad at 64, s2 is past its end; v0 names records at 64 and 128. The die's domain table lies at 0x9000. -/
def gangD (p : Holding) (sec : Option Holding) : Gang := { gangS with prim := p, sec }
def held : Holding := { domain := 0, weight := 2 ^ 40 }
def tasks (p : Holding) (sec : Option Holding) (st : Strand) : State := { objects { st with v := [(0, 64), (2, 128)], s := [(1, 64), (2, 4096)] } (gangD p sec) with
  dies := [(0, { tqcfg := 0x9000_0000_0000 })], ctxs := [(0, { otbase := 0x10000, otlen := 4, tspill := 2 ^ 40 })] }
def recordsLie (e : Env) : Bool := e.ts.all fun t => match scratch e.g (e.st.src 0 t).toNat 64 with | .ok _ => true | .error _ => false
/-- SPWN in either queue's scope, of a gang without a domain and of one that has a secondary; by a returned holding; by a recovery strand. -/
theorem witness_TasksAndLoans_spawn : allMeet (tasks held (some held) strand0) (fun e _ => recordsLie e && e.st.recov.isNone && spillRoom (tasks held (some held) strand0) e.ctx) [.spwn 0 0 0 1 0, .spwn 0 0 1 0 15] &&
    meets (.spwn 0 0 0 1 0) (tasks {} none strand0) (fun e _ => recordsLie e && e.g.prim.domain == noDomain) && meets (.spwn 0 0 0 0 0) (tasks { held with returned := true } none strand0) (fun e _ =>
      recordsLie e && e.act != 0) && meets (.spwn 0 0 0 0 0) (tasks held none { strand0 with recov := some [] }) (fun e _ => e.st.recov.isSome) = true := by decide +kernel
/-- Two records are formed, of a half and a quarter of the weight. -/
theorem test_spawn : leaves [] (exec (.spwn 0 0 0 1 0) (tasks held none strand0)) (fun t => t.pkg.port.map (·.task.weight) ++ [((t.gang 1).map (·.prim.weight)).getD 0]) = [2 ^ 39, 2 ^ 38, 2 ^ 38] := by decide +kernel
def queued1 : State := { tasks held none strand0 with quads := [(0, { queue := [{ task := { entry := 2 ^ 40, domain := 0, weight := 3 }, id := 7 }] })] }
theorem witness_TasksAndLoans_take : allMeet (tasks held none strand0) (fun e _ => (takeable (tasks held none strand0) e.g 0).isNone && e.st.recov.isNone && !e.g.prim.returned) [.take 0 8 1 0, .take 0 63 2 0] &&
    meets (.take 0 8 1 15) queued1 (fun e _ => (takeable queued1 e.g (quadOf e.core)).isSome) && meets (.take 0 8 1 0) (tasks { held with returned := true } none strand0) (fun e _ => e.g.prim.returned) &&
    meets (.take 0 8 1 0) (tasks held none { strand0 with recov := some [] }) (fun e _ => e.st.recov.isSome) = true := by decide +kernel
theorem test_take : (got (.take 0 8 1 0) queued1 fun st => (st.sreg 8).toNat) = 1 ∧ leaves 0 (exec (.take 0 8 1 0) queued1) (fun t => ((t.gang 1).map (·.prim.weight)).getD 0 + (t.quad 0).queue.length) = 2 ^ 40 + 3 := by
  decide +kernel
/-- The gang's successor counter is at the start of object 1. -/
def followed (p : Holding) : State := { tasks p none strand0 with gangs := [(1, { gangD p none with task := { entry := 2 ^ 40, succ := 2 ^ 40 } })] }
def recovering (s : State) : State := { s with strands := [(0, { strand0 with recov := some [] })] }
theorem witness_Domains_done : meets (.done 0 0 0) (tasks held none strand0) (fun e _ => !e.g.prim.returned && e.g.task.succ == 0) && meets (.done 0 0 0) (tasks {} none strand0) (fun e _ => e.g.prim.domain == noDomain) &&
    meets (.done 0 0 0) (followed held) (fun e _ => match checkCounter (paid e.i e (followed held)) e.die e.ctx e.g.task.succ none with | .ok _ => true | .error _ => false) &&
    meets (.done 0 0 0) (tasks { held with returned := true } none strand0) (fun e _ => e.g.prim.returned) && meets (.done 0 1 1) (tasks { held with weight := 2 } none strand0) (fun e _ =>
      (match scratch e.g (e.st.sreg 1).toNat 64 with | .ok ks => (parseTask (ks.map (readByte (tasks { held with weight := 2 } none strand0).mem))).succ == 0 | .error _ => false) && decide (2 ≤ e.g.prim.weight)) &&
    allMeet (recovering (tasks held none strand0)) (fun e _ => e.st.recov.isSome) [.done 0 0 0, .done 0 1 1, .waitq 0 8, .qdom 0 8] = true := by decide +kernel
/-- A secondary of domain 5, not yet returned; returned, and quiet since both its sums are 0. -/
def sec5 (r : Bool) : Option Holding := some { domain := 5, weight := 9, returned := r }
theorem witness_Domains_wait : meets (.waitq 0 8) (tasks held none strand0) (fun e _ => e.g.sec.isNone) && meets (.waitq 0 63) (tasks held (sec5 true) strand0) (fun e _ => !e.st.divided && (e.g.sec.any (·.returned))) &&
    meets (.waitq 0 8) (tasks held (sec5 false) strand0) (fun e _ => !(e.g.sec.any (·.returned)) && !domainUnk (tasks held (sec5 false) strand0) 5) &&
    meets (.waitq 0 8) (tasks held (sec5 false) (split strand0)) (fun e _ => e.st.divided) = true := by decide +kernel
theorem witness_Domains_qdom : meets (.qdom 0 8) (tasks held (sec5 false) strand0) (fun e _ => e.g.sec.isSome) &&
    meets (.qdom 0 63) (tasks held none strand0) (fun e _ => e.g.sec.isNone && decide (domainNat (tasks held none strand0) 0 24 4 % 2 = 0 ∧ e.die < 4)) = true := by decide +kernel
/-- Every one of the 4,096 domain records of the die is in use. -/
def fullMemory : List Host.Cell := (List.range 4096).map fun j => (onyxKey 0 (32 * j + 24), 1)
theorem test_fullMemory (j : Nat) (hj : j < 4096) : readByte fullMemory (onyxKey 0 (32 * j + 24)) = 1 := by
  have h : ∀ (l : List Nat) (a : Nat), a ∈ l → look (l.map fun j => (onyxKey 0 (32 * j + 24), (1 : Byte))) (onyxKey 0 (32 * a + 24)) = some 1 := by
    intro l a ha
    induction l with
    | nil => cases ha
    | cons x xs ih =>
      simp only [List.map_cons, look]
      split
      · rfl
      · rename_i hne
        rcases List.mem_cons.mp ha with h | h
        · exact absurd (by rw [h]) hne
        · exact ih h
  unfold readByte rd fullMemory
  rw [h _ j (List.mem_range.mpr hj)]
  rfl
theorem witness_Domains_full (s : State) (hm : s.mem = fullMemory) (hd : s.dies = []) (j : Nat) (hj : j < 4096) : ¬ domainNat s (j + 0 * 4096) 24 4 % 2 = 0 := by
  have h1 : bits (j + 0 * 4096) 12 2 = 0 := by unfold bits; omega
  have h2 : bits (j + 0 * 4096) 0 12 = j := by unfold bits; omega
  have h3 : domainAt s (j + 0 * 4096) = (0, 32 * j) := by
    unfold domainAt State.die
    rw [h1, h2, hd]
    simp [rd, look]
  have h4 : ∀ k, readNat s.mem k 4 % 2 = (readByte s.mem k).toNat % 2 := by
    intro k
    simp only [readNat, readAt, keysFrom, List.range, List.range.loop, List.map_cons, List.map_nil, leNat, Nat.add_zero]
    omega
  unfold domainNat State.onyxNat
  rw [h3]
  show ¬ readNat s.mem (onyxKey 0 (32 * j + 24)) 4 % 2 = 0
  rw [h4, hm, test_fullMemory j hj]
  decide
theorem witness_Domains_full_issues : meets (.qdom 0 8) { tasks held none strand0 with mem := fullMemory, dies := [] } (fun e _ => e.g.sec.isNone) = true := by decide +kernel
/-- A strand of 32 registers, alone on lane 0 of its core; one of 16; one whose lane holds all its blocks. -/
def alone (a : Nat) : State := { kit { strand0 with allot := a } gang0 with ctxs := [(0, { qvreg := 2047 })] }
def crowded : State := { alone 32 with strands := [(0, strand0), (1, { gang := 2, allot := 96 })], gangs := [(1, gang0), (2, gang0)] }
theorem witness_TasksAndLoans_loans : allMeet (alone 32) (fun e _ => match e.i with
      | .give _ n => decide (8 * n.toNat + 8 ≤ e.st.allot)
      | .claim _ n => (claimFault (alone 32) e.k e.st n.toNat).isNone && decide ((alone 32).laneBlocks e.core e.st.lane + n.toNat ≤ lanePool e.st.lane)
      | _ => false) [.give 0 1, .give 0 3, .claim 0 1, .claim 0 4] &&
    meets (.give 0 4) (alone 32) (fun e _ => decide (e.st.allot < 8 * 4 + 8)) && meets (.claim 0 13) (alone 32) (fun e _ => (claimFault (alone 32) e.k e.st 13).isSome) &&
    meets (.claim 0 1) crowded (fun e _ => (claimFault crowded e.k e.st 1).isNone && decide (lanePool e.st.lane < crowded.laneBlocks e.core e.st.lane + 1)) &&
    allMeet (kit { strand0 with recov := some [] } gang0) (fun e _ => e.st.recov.isSome) [.give 0 1, .claim 0 1] && allMeet (kit (split strand0) gang0) (fun e _ => e.st.divided) [.give 0 1, .claim 0 1] = true := by decide +kernel
def specials : List (BitVec 8) := (List.range 256).filterMap fun c => if specialRegister c then some (BitVec.ofNat 8 c) else none
theorem witness_SpecialRegisters : allMeet (kit strand0 gang0) (fun _ _ => true) (specials.map fun m => .srd 0 31 m) && allMeet (kit strand0 gang0) (fun _ _ => true) (specials.map fun m => .srdU 0 63 m) &&
    allMeet (kit strand0 gang0) (fun _ _ => true) [.swr 0 63 0x18, .swr 1 0 0x1F] && meets (.srd 0 8 0x11) (kit { strand0 with latch := [(0x11, 7)] } gang0) (fun e _ => look e.st.latch 0x11 == some 7) = true := by
  decide +kernel
theorem witness_Traps : meets (.trap 0 0xFFFF) (kit strand0 gang0) (fun e _ => decide (e.act ≠ 0)) && meets (.trap 0 0) (kit (onPath0 (fun p => { p with act := 0 }) strand0) gang0) (fun e _ => decide (e.act = 0)) &&
    allMeet (kit strand0 gang0) (fun e _ => ((kit strand0 gang0).core e.core).dbgctl.getLsbD 0) [.bkpt 0, .bkpt 1] && meets (.bkpt 0) { kit (split strand0) gang0 with cores := [(0, { dbgctl := 1 })] } (fun e _ => e.st.divided) &&
    meets (.bkpt 0) { kit strand0 gang0 with cores := [(0, { dbgctl := 0 })] } (fun e _ => decide ((({ kit strand0 gang0 with cores := [(0, { dbgctl := 0 })] } : State).core e.core).dbgctl = 0)) = true := by decide +kernel
/-- TRAP stops after itself for the threads its guard lets through; BKPT stops the strand at once, or only ends its run. -/
theorem test_traps : faults (.trap 0 0x2A) (kit (regs [] [] []) gang0) = [(0xBF, 0, 5, false, 64)] ∧ faults (.bkpt 0) (kit strand0 gang0) = [(0xB0, 0, 5, true, 64)] ∧
    faults (.bkpt 0) { kit strand0 gang0 with cores := [(0, { dbgctl := 0 })] } = [] := by decide +kernel

/-! Handlers, function and model units, recovery, decoding -/

/-- Bytes of an object beyond its end read zero. -/
theorem hwRead_end (s : State) (d c id o a b : Nat) (r : ObjRec) (hr : hwRecord s d c id = some r) (he : r.extent ≤ o + a) :
    hwRead s d c id o (a + b) = hwRead s d c id o a ++ List.replicate b 0 := by
  simp only [hwRead, hr, List.range_add, List.map_append, List.map_map]
  congr 1
  refine List.eq_replicate_iff.mpr ⟨by simp, fun x hx => ?_⟩
  obtain ⟨i, -, rfl⟩ := List.mem_map.mp hx
  have : hwAt s r (o + (a + i)) = none := by unfold hwAt; exact if_pos (Or.inl (by omega))
  simp [this]
/-- A handler strand whose save slot, in object 1 of 4,608 bytes, holds the image of an undivided strand of two live threads with its record: cause 0x40 of thread 0, at 200. -/
def handler (sv : Saved) (m : Mode := .handler) (resident : Bool := true) : State := { kit { strand0 with mode := m } { gang0 with saved := [(0, sv)], resident, stopped := [0] } with
  mem := writeBytes object1 ([0x10089, 0x10090, 0x10091, 0x100C9].map (onyxKey 0)) [0x12, 0x80, 4, 0x12] ++ [(0, 0x40), (4, 200), (8, 1), (256, 220), (264, 5), (284, 8)].map fun x => (onyxKey 0 (0x21000 + x.1), x.2)
  ctxs := [(0, { otbase := 0x10000, otlen := 4, gsobj := 1 })], pkg := { win := win0 } }
def plain : Saved := { live0 := 5, allot := 0 }
/-- The image, in pieces. -/
def image (sv : Saved) (m : Mode := .handler) (res : Bool := true) : List Byte := hwRead (handler sv m res) 0 0 1 4096 512 ++ List.replicate 15872 0
def spare : Saved := { live0 := 1, allot := 0 }
theorem handler_image (sv : Saved) (m : Mode) (res : Bool) (hs : sv = plain ∨ sv = spare) (hm : m = .handler ∨ m = .stopped) :
    (handler sv m res).slotRead { gang0 with saved := [(0, sv)], resident := res, stopped := [0] } (imageOff 0) 16384 = image sv m res := by
  have h : ∃ r, hwRecord (handler sv m res) 0 0 1 = some r ∧ r.extent = 4608 := by
    have : ((hwRecord (handler sv m res) 0 0 1).any fun r => r.extent == 4608) = true := by rcases hs with rfl | rfl <;> rcases hm with rfl | rfl <;> cases res <;> decide +kernel
    obtain ⟨r, h1, h2⟩ := Option.any_eq_true _ _ |>.mp this
    exact ⟨r, h1, by simpa using h2⟩
  obtain ⟨r, h1, h2⟩ := h
  have ha : (handler sv m res).gsobj 0 = 1 := rfl
  have hb : 0 * 2097152 + imageOff 0 = 4096 := rfl
  show hwRead (handler sv m res) 0 0 ((handler sv m res).gsobj 0) (0 * 2097152 + imageOff 0) 16384 = _
  rw [ha, hb]
  exact hwRead_end (handler sv m res) 0 0 1 4096 512 15872 r h1 (by rw [h2])
/-- What RSM, KILL and HX ask of the image: it passes its checks, holds a record of a cause that may be issued again, and its mask leaves a live thread and takes one. -/
theorem witness_HandlerEnds : let bs := image plain
    decide (imgCheck bs plain = none ∧ imgFv bs 0 = true ∧ imgFlags bs % 2 = 0 ∧ recMask (imgRec bs 0) &&& imgLive bs 0 ≠ 0 ∧ imgLive bs 0 &&& ~~~recMask (imgRec bs 0) ≠ 0 ∧ reissues (imgRec bs 0) = true ∧
      plain.recov = none ∧ plain.aoadds = []) = true := by decide +kernel
theorem witness_HandlerEnds_refused : imgCheck (image spare) spare = some 3 := by decide +kernel
theorem witness_HandlerEnds_issues : [plain, spare].all (fun sv => allMeet (handler sv) (fun e _ => (handler sv).ops.isEmpty && !e.st.stopReq && decide (e.g = { gang0 with saved := [(0, sv)], stopped := [0] } ∧ imageNo e.k e.st.index = 0))
    [.rsm 0 0, .rsm 1 1, .kill 0 0, .kill 1 1, .hx 0]) = true := by decide +kernel

/-- Object 1 holds at 0 a table of one segment, at 256 one with none, at 512 one with a reserved bit, at 1024 a model of two points, at 1280 one with no output, at 1536 one whose second point is no number. -/
def tableImages : List Host.Cell := [(4, 1), (512, 8), (516, 1)].map fun x => (onyxKey 0 (0x20000 + x.1), x.2)
def modelImages : List Host.Cell := [(1024, 0x11), (1025, 1), (1028, 140), (1032, 2), (1034, 1), (1036, 1), (1280, 0x11), (1284, 140), (1288, 2), (1290, 1), (1292, 1),
  (1536, 0x11), (1537, 1), (1540, 140), (1544, 2), (1546, 1), (1548, 1), (1670, 0x80), (1671, 0x7F)].map fun x => (onyxKey 0 (0x20000 + x.1), x.2)
def banks (a : Word) : State := { objects (regs [] [(0, a), (1, 256)] []) gang0 with
  mem := object1 ++ (if a.toNat < 1024 then tableImages else modelImages.filter fun x => onyxKey 0 (0x20000 + a.toNat) ≤ x.1 && decide (x.1 < onyxKey 0 (0x20100 + a.toNat)))
  ctxs := [(0, { otbase := 0x10000, otlen := 4, tfilled := 2, mfilled := 2 })] }
/-- The n pieces of 4 bytes at o from the address are these. -/
def holds (s : State) (e : Env) (o n : Nat) (bs : List Byte) : Bool := match readObject (paid e.i e s) e.die e.ctx (e.st.upair 0 + o) 4 n with
  | .ok hd => hd == bs
  | .error _ => false
def tableHead (flags segs : Byte) : List Byte := [flags, 0, 0, 0, segs, 0] ++ List.replicate 58 0
def modelHead (outs : Byte) : List Byte := [0x11, outs, 0, 0, 140, 0, 0, 0, 2, 0, 1, 0, 1, 0] ++ List.replicate 114 0
theorem witness_BankLoads_table : meets (.stbl 0 7 0 0) (banks 0) (fun e _ => holds (banks 0) e 0 16 (tableHead 0 1) && holds (banks 0) e 64 4 (List.replicate 16 0)) &&
    meets (.stbl 0 0 0 15) (banks 256) (fun e _ => holds (banks 256) e 0 16 (tableHead 0 0)) && meets (.stbl 0 0 0 0) (banks 512) (fun e _ => holds (banks 512) e 0 16 (tableHead 8 1)) = true := by decide +kernel
theorem test_table_images : (parseTable (tableHead 0 1)).nseg = 1 ∧ tableValid (tableHead 0 1 ++ List.replicate 16 0) = true ∧ (parseTable (tableHead 0 0)).nseg = 0 ∧
    tableValid (tableHead 8 1 ++ List.replicate 16 0) = false := by decide +kernel
theorem witness_BankLoads_model : meets (.sld 0 63 0 0) (banks 1024) (fun e _ => holds (banks 1024) e 0 32 (modelHead 1) && holds (banks 1024) e 128 3 (List.replicate 12 0)) &&
    meets (.sld 0 0 0 0) (banks 1280) (fun e _ => holds (banks 1280) e 0 32 (modelHead 0)) && meets (.sld 0 0 0 0) (banks 1536) (fun e _ => holds (banks 1536) e 128 3 ([0, 0, 0, 0, 0, 0, 0x80, 0x7F] ++ List.replicate 4 0)) = true := by
  decide +kernel
theorem test_model_images : (parseModel (modelHead 1)).headerOk = true ∧ (parseModel (modelHead 1)).size = 140 ∧ (parseModel (modelHead 1 ++ List.replicate 12 0)).bodyOk = true ∧
    (parseModel (modelHead 0)).headerOk = false ∧ (parseModel (modelHead 1 ++ ([0, 0, 0, 0, 0, 0, 0x80, 0x7F] ++ List.replicate 4 0))).bodyOk = false := by decide +kernel
theorem witness_BankLoads_swap : allMeet (banks 0) (fun e _ => (match (banks 0).ctx 0, e.i with
      | some c, .tswp _ n _ => c.tfilled.getLsbD (2 * n.toNat + (1 - (c.tactive.getLsbD n.toNat).toNat)) == (n == 0)
      | some c, .ssw _ n _ => c.mfilled.getLsbD (2 * n.toNat + (1 - (c.mactive.getLsbD n.toNat).toNat)) == (n == 0)
      | _, _ => false)) [.tswp 0 0 0, .tswp 0 7 0, .ssw 0 0 15, .ssw 0 63 0] = true := by decide +kernel

/-- Region 0: argument v0, result v1, the model at 0x18000 of the system space, its record at 0x1A000 with bound 0, enabled; the SRG is at 68, its join at 76. v0 is 1.0 in thread 0 and no number in thread 2. -/
def regional (f : Strand → Strand) (q : List RecEntry) (d : List (Nat × Nat)) : State := { objects (f (hint { rtag := some 0 } (regs [(0, 0x3F800000), (2, 0x7FC00000)] [(4, 0x3F800000)] []))) { gang0 with hdr := { regtab := 2 ^ 40 + 1024 } } with
  mem := object1 ++ [(0x18000, 0x11), (0x18001, 1), (0x18004, 140), (0x18008, 2), (0x1800A, 1), (0x1800C, 1), (0x1A038, 1), (0x2004E, 0x10), (0x2004F, 0x38), (0x20400, 0x81), (0x20401, 8), (0x2040C, 1)].map fun x => (onyxKey 0 x.1, x.2)
  ctxs := [(0, { otbase := 0x10000, otlen := 4, mdarea := 0x18000, regarea := 0x1A000, mfilled := 1 })], cores := [(0, { recq := q, disabled := d })] }
def answers (s : State) : Bool := meets (.srg 0 2 0) s fun e _ => (match e.srgCheck 2 (paid e.i e s) with | .ok x => x.1 == 0 | .error _ => false) && decide (s.regionNat 0 0 56 8 % 2 = 1)
theorem witness_Regions_srg : answers (regional id [] []) && answers (regional id (List.replicate 200 {}) []) && answers (regional (fun st => { st with recov := some [] }) [] []) &&
    meets (.srg 0 3 0) (regional id [] []) (fun e _ => match e.srgCheck 3 (paid e.i e (regional id [] [])) with | .ok _ => false | .error x => x.2.1 == 0x22) &&
    meets (.srg 1 0xFFFF 15) (kit strand0 gang0) (fun e _ => match e.srgCheck 0xFFFF (paid e.i e (kit strand0 gang0)) with | .ok _ => false | .error x => x.1 == 0xA0) = true := by decide +kernel
/-- Thread 0 has its answer at the join; thread 2 waits in the recovery queue. -/
theorem test_srg : leaves none (exec (.srg 0 2 0) (regional id [] [])) (fun t => (t.strand 0).map fun st => (st.path0.pc.toNat, st.pending, (st.vreg 1 0).toNat, (t.core 0).recq.map (·.srcThread))) = some (76, 1, 0, [2]) := by decide +kernel
theorem witness_Regions_records : allMeet (regional id [] []) (fun e _ => e.h.rtag == some 0) [.qset 0 4 0, .qset 0 60 15, .sctr 0 8 0 0, .sctr 0 60 1 0, .sctr 0 0 2 0, .sdis 0] &&
    allMeet (kit strand0 gang0) (fun e _ => e.h.rtag.isNone) [.qset 0 4 0, .sctr 0 8 0 0, .sdis 1] && meets (.qset 0 4 0) (regional id [] []) (fun e _ => let bs := leBytes 16 (e.st.uniN 4 4)
      !qualityReserved bs && (fp32.value (fieldAt bs 0 4)).isFinite && !(fp32.value (fieldAt bs 0 4)).sign) && meets (.qset 0 0 0) (regional (fun st => { st with s := [(0, 0x7F800000)] }) [] []) (fun e _ =>
      !(fp32.value (fieldAt (leBytes 16 (e.st.uniN 0 4)) 0 4)).isFinite) = true := by decide +kernel
/-- A recovery strand in slot 384 with an entry of thread 3 and one of thread 5 of strand 0. -/
def entries : List RecEntry := [{ source := 0, srcThread := 3, resRegs := [4, 5] }, { source := 0, srcThread := 5, resRegs := [4, 5] }]
def recovers : State := { strands := [(0, { strand0 with path0 := { strand0.path0 with act := 40 }, pending := 2 }), (384, { regs [(128, 7), (129, 8)] [] [] with role := 3, recov := some entries, path0 := { strand0.path0 with act := 3 } })]
                          gangs := [(1, gang0)], cur := some (384, 0) }
theorem witness_RecoveryEnds : meets (.sjn 0) (kit strand0 gang0) (fun e _ => e.st.recov.isNone) && meets (.sjn 1) recovers (fun e _ => decide (e.st.recov = some entries) && entries.all fun en =>
      !en.done && !en.sample && en.source != e.k && decide (en.resRegs.Nodup ∧ en.srcThread < 32) && !en.handler && (recovers.strand en.source).any fun src => src.mode == .running && has src.live en.srcThread) = true := by decide +kernel
theorem test_recovery_merges : (match exec (.sjn 0) recovers with
    | .next t => (t.strand 0).map fun st => (st.pending, (st.vreg 4 3).toNat, (st.vreg 4 5).toNat)
    | _ => none) = some (0, 7, 8) := by decide +kernel
/-- i is reached, and its chain breaks a rule. -/
def breaks (i : Instr) (s : State) (f : Env → Bool) : Bool := match envOf i s with
  | some (e, r) => decide (lookaheadHeld (begun s e) e.p e.len = false ∧ breakpoints (begun s e) e = [] ∧ r.words + e.len ≤ runLimit e.g.hdr.version ∧ guardHeld (begun s e) e = false ∧
      deferredStop (begun s e) e = none ∧ (encode i).isSome = true ∧ hinted {} i = none) && f e
  | none => false
theorem witness_DecodeFaults : breaks (.iadd 0 112 1 2 0) (kit strand0 gang0) (fun e => !e.i.wf && e.g.hdr.version != 1) &&
    breaks (.nop 0) (kit (hint { wide := some 1 } strand0) gang0) (fun e => e.i.wf && codesOk e.i e.h && payloadOk e.i e.h && !hintsOk e.i e.h) &&
    breaks (.sjn 0) (kit (hint { guard := some (false, 1) } strand0) gang0) (fun e => (decodeFault e).isSome) && breaks (.mov 0 32 0 0) (kit strand0 gang0) (fun e => decodeFault e == some 0x08) &&
    breaks (.rsm 0 0) (kit strand0 gang0) (fun e => decodeFault e == some 0x09) = true := by decide +kernel
theorem test_decode_faults : ((faults (.iadd 0 112 1 2 0) (kit strand0 gang0)) ++ faults (.nop 0) (kit (hint { wide := some 1 } strand0) gang0) ++ faults (.mov 0 32 0 0) (kit strand0 gang0) ++ faults (.rsm 0 0) (kit strand0 gang0)).map
    (fun f => (f.1, f.2.2.2.2)) = [(0x01, 64), (0x03, 64), (0x08, 64), (0x09, 64)] := by decide +kernel

/-! Forms that trap, stop or wait -/

/-- Table 0 of context 0, its bank empty or filled, with bytes of it lost. -/
def tabled (filled : BitVec 16) (bad : List Nat) : State := { reals with ctxs := [(0, { ftarea := 0x18000, tfilled := filled })], pkg := { win := win0 }, phys := { bad } }
theorem witness_NumericTraps_tables : meets (.sfe 0 8 0 16 0 0) (tabled 0 []) (fun e _ => (tableImage (tabled 0 []) e.ctx e.p.run 0).isNone) &&
    meets (.sfe 0 8 0 16 0 0) (tabled 1 [onyxKey 0 0x18000]) (fun e _ => match tableImage (tabled 1 [onyxKey 0 0x18000]) e.ctx e.p.run 0 with
      | some tab => (e.ts.map fun t => tableFails (tabled 1 [onyxKey 0 0x18000]) e.die e.ctx e.p.run 0 (tab.touches e.fz32 (e.get 0 0 1 t))) == [true, false]
      | none => false) = true := by decide +kernel
theorem test_table_lost : (faults (.sfe 0 8 0 16 0 0) (tabled 0 [])).map (·.1) = [0xA2] ∧
    (faults (.sfe 0 8 0 16 0 0) (tabled 1 [onyxKey 0 0x18000])).map (fun f => (f.1, f.2.2.1)) = [(0xB2, 1)] := by decide +kernel
theorem witness_Comparisons_traps : meets (.fcmp 0 2 1 0 1 0) (trapping reals) (fun e _ => (e.ts.map fun t => trapped e.p.nfr (floatCompare 2 (e.fp32In 0 0 false t) (e.fp32In 0 1 false t)).2 == 0) == [true, false]) &&
    meets (.fcmp 0 0 1 2 2 1) (trapping (kit (regs [] [(2, 0x7F800001)] []) gang0)) (fun e _ => trapped e.p.nfr (floatCompare 0 (e.fp32In 1 2 false (lowest e.act)) (e.fp32In 1 2 false (lowest e.act))).2 != 0) = true := by decide +kernel
/-- v0 is a number that rounds up out of a block of 2 planes; a block at 128 of a number too large for FP16; an element of tile 0 that overflowed. -/
def trapTiles : State := trapping { kit { regs [(0, 0x7F7FFFFF), (2, 0)] [(1, 128)] [] with allot := 112 } { gangT with tiles := [(0, { t := 1, ovf := true })] } with
  mem := cellsAt (scratchKey 0 128) ([100, 4, 0x10, 1, 255, 255, 255, 255] ++ List.replicate 8 0 ++ [1]) }
theorem witness_PlaneBlocks_traps : meets (.pln 0 0 1 2 0 0) trapTiles (fun e _ => trapped e.p.nfr (e.planes 0 2 0 0).2 != 0 && (match scratchRange e.g 128 (e.planes 0 2 0 0).1.length 16 with | .ok _ => true | .error _ => false)) &&
    meets (.upln 0 8 1 2) trapTiles (fun e _ => (parseBlock (readAt trapTiles.mem (scratchKey 0 128) 16)).ok && (e.ts.map fun q =>
      trapped e.p.nfr (blockElement e.p.nfr e.rm (parseBlock (readAt trapTiles.mem (scratchKey 0 128) 32)) 0x11 q).2 == 0) == [false, true]) = true := by decide +kernel
theorem witness_AccumulatorTiles_traps : meets (.mrd 0 8 0 0 0 0 0) trapTiles (fun e _ => e.team && (e.ts.map fun t => trapped e.p.nfr (readElem fp32 e.rm e.fz32 (e.g.elem 0 0 t) (e.g.window 0)).2 == 0) == [false, true]) = true := by
  decide +kernel
/-- What a path in one of these states does instead of issuing. -/
def comesTo (i : Instr) (s : State) (w : Wait) : Bool := breaks i s fun e => decide (decodeFault e = none ∧ dependHeld (begun s e) e = false ∧ e.skips = false ∧ waits (begun s e) e = w)
/-- An operation of the strand in flight, with the registers and predicates that wait for it. -/
def pendingOp (o : Op) (st : Strand) (g : Gang) : State := { kit st g with ops := [(5, o)] }
def matrixOp : Op := { kind := .mma 0 false 0 0 false false 4 0 true, strand := 8, gang := 1, acc := some 2 }
theorem witness_PathEnds_waits : comesTo (.wait 0 8 0) (kit { strand0 with sealedB := [(0, 3)] } gang0) .hold && comesTo (.mrd 0 8 0 0 0 0 0) (pendingOp matrixOp { strand0 with allot := 112 } gangT) .await &&
    comesTo (.mz 0 0 0) (pendingOp matrixOp strand0 gangT) .await && comesTo (.mz 0 0 0) (pendingOp matrixOp (onPath0 (fun p => { p with awaits := some [5] }) strand0) gangT) .stall &&
    comesTo (.pln 0 0 1 2 0 0) { trapTiles with ops := [(5, { kind := .copy none, acc := some 1, lines := [.waiting], items := [{ t := 0, src := (keysFrom (scratchKey 0 128) 4).map Src.mem }] })] } .stall = true := by decide +kernel
/-- A path with a load out, which its lookahead spans or not; the load's registers and predicates. -/
def outAt (la : Nat) (h : Hints) : Strand := onPath0 (fun p => { p with outs := [(5, 0, la)] }) (hint h { strand0 with allot := 112 })
def heldBy (i : Instr) (vregs preds : List Nat) (st : Strand) (f : State → Env → Bool) : Bool := let s := pendingOp { kind := .load 8 4 false false, vregs, preds } st gang0
  (envOf i s).any fun x => f (begun s x.1) x.1
theorem witness_PathEnds_held : heldBy (.nop 0) [] [] (outAt 0 {}) (fun s e => lookaheadHeld s e.p e.len) && heldBy (.iadd 0 8 0 1 0) [8] [] (outAt 15 {}) (fun s e => !lookaheadHeld s e.p e.len && (decodeFault e).isNone && dependHeld s e) &&
    heldBy (.iadd 0 8 0 1 0) [] [2] (outAt 15 { guard := some (false, 2) }) (fun s e => !lookaheadHeld s e.p e.len && guardHeld s e) = true := by decide +kernel
/-- EXIT of all threads of one path of a divided strand: the other runs, waits at the rejoin, or has ended; and of the second side of a level. -/
def leaving (e : Env) : Bool := decide ((e.st.path (1 - e.pi)).act &&& e.act = 0 ∧ (e.st.path (1 - e.pi)).reissue = none ∧ e.p.reissue = none ∧ e.p.ended = false ∧ e.p.arrived = false ∧ e.st.mode ≠ .exiting ∧ e.p.act &&& ~~~e.act = 0)
def splitWith (f : Path → Path) : State := coded [] (split jumper |> fun st => { st with path1 := f st.path1 })
/-- Path 1 has ended, and a level under the split holds threads to come. -/
def frozenSplit : State := coded [] { split jumper with path1 := { pc := 100, ended := true }, frozen := [{ fmask := 5, pmask := 8, ppc := 200 }], nfrs := 0x13000000 }
theorem witness_PathEnds_exits : [splitWith id, splitWith fun p => { p with arrived := true, run := none }, splitWith fun p => { p with ended := true, act := 0, run := none }].all (fun s =>
      meets (.exit 0) s fun e r => leaving e && e.st.divided && (unwind (e.pathAfter r (some (e.pc + 4)) true e.p) []).isNone && (unwind (e.pathAfter r (some (e.pc + 4)) true e.p) e.st.frozen).isNone) &&
    meets (.exit 0) frozenSplit (fun e r => leaving e && e.st.divided && (e.st.path 1).ended && (unwind (e.pathAfter r (some (e.pc + 4)) true e.p) []).isNone && (unwind (e.pathAfter r (some (e.pc + 4)) true e.p) e.st.frozen).isSome) &&
    meets (.exit 0) (coded [] (stacked [levelDone] jumper)) (fun e _ => leaving e && decide (levelDone.fmask &&& ~~~e.act ≠ 0)) &&
    meets (.exit 0) (coded [] { jumper with mode := .handler }) (fun e _ => leaving e && !e.st.divided) = true := by decide +kernel
/-- The path that waited at the rejoin goes on alone; the second side of a level goes on with the threads that were done; so does the pending side of a
level under a split whose paths have both ended. -/
theorem test_exits : (got (.exit 0) (splitWith fun p => { p with arrived := true, run := none }) fun st => (if st.divided then 1 else 0) + 2 * st.path0.act.toNat + 2 ^ 32 * st.path0.pc.toNat) = 2 * 2 + 2 ^ 32 * 104 ∧
    (got (.exit 0) (coded [] (stacked [levelDone] jumper)) fun st => st.path0.act.toNat * 2 ^ 32 + st.path0.pc.toNat) = 2 * 2 ^ 32 + 104 ∧
    (got (.exit 0) frozenSplit fun st => (if st.divided then 1 else 0) + 2 * st.path0.act.toNat + 2 ^ 32 * st.path0.pc.toNat) = 2 * 8 + 2 ^ 32 * 200 := by decide +kernel
/-- SRG of an open region whose entry finds the queue full; a region record with lost bytes. -/
def fullQueue : State := regional id (List.replicate 256 {}) []
theorem witness_Regions_waits : comesTo (.srg 0 2 0) fullQueue .hold && breaks (.srg 0 2 0) fullQueue (fun e => let u := begun fullQueue e; match e.srgCheck 2 u with
      | .ok (id, g, m) => let q := u.liveq e.ctx id
        decide ((e.ctx, id) ∉ (fullQueue.core e.core).disabled ∧ e.st.recov = none ∧ e.st.allot ≤ 64 ∧ e.srgUnread id g m u = false ∧ u.regionNat e.ctx id 56 8 % 2 = 1 ∧
          256 < (fullQueue.core e.core).recq.length + (e.ts.filter fun t => let a := m.eval u e.ctx e.p.run (g.args.map fun c => (e.st.vreg c t).toNat)
            !withinBound q a.1 a.2 || sampled q id e.st.srgCount.toNat t).length)
      | .error _ => false) = true := by decide +kernel
def lostRegion : State := { regional id [] [] with phys := { bad := [onyxKey 0 0x1A03F] } }
theorem witness_Regions_lost : meets (.srg 0 2 0) lostRegion (fun e _ => match e.srgCheck 2 (paid e.i e lostRegion) with | .ok (id, g, m) => e.srgUnread id g m (paid e.i e lostRegion) | .error _ => false) &&
    meets (.sctr 0 8 0 0) lostRegion (fun e _ => (paid e.i e lostRegion).regionFails e.die e.ctx 0) && allMeet { kit strand0 gang0 with ctxs := [(0, { regarea := 0x1A000 })], pkg := { win := win0 }, phys := { bad := [onyxKey 0 0x1A03F] } } (fun e _ =>
      e.act != 0 && look e.st.latch 0x20 == none && lostRegion.regionFails e.die e.ctx e.st.rsel.toNat) [.srd 0 8 0x20, .srdU 0 8 0x20] = true := by decide +kernel

/-! Operations in flight: operation 5 of the strand, its elements in the Onyx SRAM of die 0 (o1) and in stack 0 -/

/-- A die's cycles run at least as fast as the model's steps: what must wait has waited long enough after as many steps. -/
theorem dieCycle_ge (d n : Nat) : n ≤ dieCycle d n := by
  induction n with
  | zero => exact Nat.zero_le _
  | succ n ih => unfold dieCycle; omega
def flying (o : Op) : State := { objects strand0 gangS with ops := [(5, o)] }
def flyers (os : List (Nat × Op)) : State := { objects strand0 gangS with ops := os }
def o1 : Nat := onyxKey 0 0x20000
def cell (t a n : Nat) : Item := { t, src := (keysFrom a n).map Src.mem, dst := keysFrom a n }
/-- A load past the L1 of 4 bytes in threads 0 and 2; the same from a line of the L1; LDU; LMRG. -/
def bypass (k : OpKind) (its : List Item) : Op := { kind := k, items := its, cache := 2 }
def l1State : State := { flying { bypass (.load 8 4 true false) [cell 0 o1 4, cell 2 (o1 + 4) 4] with cache := 0 } with cores := [(0, { l1 := [(o1 / 128, { data := List.replicate 128 7 })] })] }
def returns (s : State) (its : List Item) : Bool := match s.op 5 with
  | some o => o.items == its && its.all (fun i => (s.itemBytes o i).isSome && s.readCause (coreDie o.core) ((memKeys i.src).filter fun a => !s.fromL1 o a) == 0) &&
      s.ordered 5 o && decide ((∀ i ∈ o.items, i.bad = 0) ∧ o.fired = [] ∧ o.tags = [] ∧ (o.items.map (·.t)).Nodup) && (s.strand o.strand).isSome
  | none => false
theorem witness_LoadsAndStoresEnd_return : returns (flying (bypass (.load 8 4 true false) [cell 0 o1 4, cell 2 5 4])) [cell 0 o1 4, cell 2 5 4] && returns l1State [cell 0 o1 4, cell 2 (o1 + 4) 4] &&
    returns (flying (bypass (.load 8 8 false true) [cell 0 o1 8])) [cell 0 o1 8] && returns (flying (bypass (.lmrg 1) [cell 0 o1 64])) [cell 0 o1 64] = true := by decide +kernel
/-- A load that waits for a line; a watched store and one that is not; a store at its home; a PCIe read. -/
def waitsLine : Op := { kind := .load 8 4 false false, items := [cell 0 o1 4] }
theorem witness_LoadsAndStoresEnd_fill : let o := waitsLine; let line := o1 / 128; let lost : State := { flying { o with dead := [line] } with cores := [(0, { l1 := [(line, { data := [] })] })] }
    (flying o).asks 0 line (5, o) = true ∧ 0 < (flying o).waysOf 0 ∧ (∀ x ∈ (flying o).ops, (flying o).asks 0 line x = true → x.2.split = false ∧ x.2.tags = []) ∧
      (∀ x ∈ (flying o).ops, x.2.changesLine 0 line = false) ∧ (∀ a, a < 128 → (flying o).readFails 0 (line * 128 + a) = false) ∧
      (∀ x ∈ (flying { o with dead := [line] }).ops, (flying { o with dead := [line] }).asks 0 line x = true → line ∈ x.2.dead) ∧ (look (lost.core 0).l1 line).isSome = true := by decide +kernel
theorem witness_LoadsAndStoresEnd_store : let o : Op := { kind := .store false, items := [cell 0 o1 4, cell 1 9 4] }
    (flying o).ordered 5 o = true ∧ o.watched = false ∧ ∀ i ∈ o.items, i.dst.Nodup ∧ (flying o).writeCause (coreDie o.core) i.dst = 0 := by decide +kernel
theorem witness_LoadsAndStoresEnd_ack : let o : Op := { kind := .store true, items := [cell 0 o1 4, cell 1 9 4] }
    (flying o).ackOrdered 5 o = true ∧ o.quiet ∧ ∀ i ∈ o.items, i.dst.Nodup := by unfold Op.quiet; decide +kernel

/-- One element of an atomic by function; the same finished. -/
def atomicOp (f : Nat) (x : LineSt) : Op := { kind := .atomic f true 8 0 0, items := [cell 0 o1 (atomBytes f)], lines := [x] }
theorem witness_SliceOperations_atomic : ∀ f ∈ [0, 8, 11, 14], let o := atomicOp f .waiting; let i := cell 0 o1 (atomBytes f)
    (flying o).ordered 5 o = true ∧ o.watched = false ∧ (o.items.filter fun j => j.line == 0) = [i] ∧ i.dst.Nodup ∧ i.dst.length = atomBytes f ∧ (flying o).readCause (coreDie o.core) i.dst = 0 ∧
      o.quiet ∧ ownThreads o.items := by
  unfold Op.quiet ownThreads; decide +kernel
/-- An AOADD whose turn has come, one too early with no other parked, one returned 256 cycles ago, one that is done. -/
def aoaddOp (wide : Bool) (rank : Word) (w since : Nat) (ls : List LineSt) : Op := { kind := .aoadd wide 8 rank 3 w since, items := [cell 0 o1 16, { t := 0 }, { t := 2, val := 3 }], lines := ls }
theorem witness_SliceOperations_aoadd : let s := flying (aoaddOp true 0 0 0 [.waiting]); let ks := (cell 0 o1 16).dst
    s.ordered 5 (aoaddOp true 0 0 0 [.waiting]) = true ∧ s.readCause 0 ks = 0 ∧ ks.Nodup ∧ ks.length = 16 ∧ leNat (((ks.drop 8).take 4).map (readByte s.mem)) = 0 ∧
      leNat (((ks.drop 8).take 4).map (readByte (flying (aoaddOp false 1 0 0 [.waiting])).mem)) ≠ 1 ∧ parkedAt s (sliceOf o1) < 64 := by decide +kernel
theorem witness_SliceOperations_resend : 0 + 256 ≤ dieCycle 0 ({ flying (aoaddOp true 1 2 0 []) with now := 256 } : State).now ∧ ownThreads [({ t := 0 } : Item), { t := 2, val := 3 }] :=
  ⟨dieCycle_ge 0 256, by unfold ownThreads; decide⟩
/-- A spill in object 1, of 512 elements of uint64 in rows, empty; a table that HCLAIM clears, two units of it. -/
def spills : State := { flying { kind := .key 1 0 1 8, items := [{ t := 0, cmp := 77, val := 88 }] } with
  mem := objectTable.map fun x => if x.1 = 2 ^ 41 + 65664 then (x.1, 193) else if x.1 = 2 ^ 41 + 65681 then (x.1, 2) else x
  gangs := [(1, { gangS with keys := [(0, { spobj := 2 ^ 40, logu := 1 })] })] }
theorem witness_SliceOperations_spill : (match record spills 0 0 1 with
    | some rc => match spillKeys spills 0 0 (some rc) (2 ^ 40) 0 8 .atomic, spillKeys spills 0 0 (some rc) (2 ^ 40) 16 16 .write with
      | .ok ks, .ok es => decide (32 ≤ rc.extent ∧ leNat (ks.map (readByte spills.mem)) = 0 ∧ (ks ++ es).Nodup ∧ ks.length = 8 ∧ es.length = 16)
      | _, _ => false
    | none => false) = true := by decide +kernel
theorem witness_SliceOperations_hclaim : let s : State := { spills with ops := [(5, { kind := .hclaim 2, items := [{ t := 0, val := 1 }], sregs := [8] })], now := 32 }
    ((s.gang 1).any fun g => (look g.keys 0).isSome) = true ∧ dieCycle 0 0 + 16 * 2 ≤ dieCycle 0 s.now := ⟨by decide +kernel, dieCycle_ge 0 32⟩

/-- A copy of 4 bytes between two places, waiting and accepted; CPYV's tile; a gather's part. -/
def moves (k : OpKind) (x : LineSt) (its : List Item) : Op := { kind := k, items := its, lines := [x] }
def copyItem (t : Nat) : Item := { t, src := (keysFrom (o1 + 4 * t) 4).map Src.mem, dst := keysFrom (4 * t) 4 }
theorem witness_CopiesAndGathersEnd_copies : let o := moves (.copy (some 3)) .accepted [copyItem 0, copyItem 1]
    (flying o).ordered 5 o = true ∧ (∀ i ∈ o.items, i.line = 0 ∧ i.dst.Nodup ∧ (flying o).readCause 0 (memKeys i.src) = 0 ∧ (flying o).writeCause 0 i.dst = 0) ∧
      (o.items.map (·.t)).Pairwise (· < ·) ∧ engineLoad (flying (moves (.copy none) .waiting [])) (engineOf (moves (.copy none) .waiting []) 0) < 512 := by decide +kernel
theorem witness_CopiesAndGathersEnd_tiles : ∀ c ∈ [0, 9], let i := { copyItem 0 with src := (keysFrom o1 128).map Src.mem, dst := keysFrom 0 128, cmp := c }; let o := moves (.copyv 8) .accepted [i]
    (flying o).ordered 5 o = true ∧ (o.items.filter fun j => j.line == 0) = [i] ∧ i.bad = 0 ∧ (flying o).readCause 0 (memKeys i.src ++ i.dst) = 0 ∧ i.dst.Nodup ∧ i.src.length = i.dst.length := by decide +kernel
/-- A gather of elements at known places, and by indexes from object 1 into object 2; a part sent on; the burst. -/
def gathered (x : LineSt) (i : Item) : Op := { moves (.gather 4 8 true (some 2)) x [i] with gens := [{ die := 0, ctx := 0, obj := 2, gen := 0 }], carried := recordOf 2 0x20000 0x22000 }
theorem witness_CopiesAndGathersEnd_gathers : (let i := cell 0 o1 4; let o := gathered .waiting i
    (flying o).ordered 5 { o with items := [i] } = true ∧ i.room (flying o) = true ∧ i.via = none ∧ (flying o).readCause 0 (memKeys i.src) = 0 ∧
      (o.items.find? fun j => j.line == 0) = some i ∧ i.dst.Nodup) := by decide +kernel
theorem witness_CopiesAndGathersEnd_indexed : let i : Item := { cell 0 o1 4 with cmp := 2 ^ 64 + 2 ^ 41 }; let s := flying (gathered .waiting i)
    let r := parseRecord (gathered .waiting i).carried
    leNat (i.src.map (Src.read s.mem)) ≠ 0xFFFFFFFF ∧ recordBad s 0 0 r r.current = none ∧ (match translateFrom s 0 0 (some r) (i.cmp % 2 ^ 64) 0 4 .read false with
      | .ok l => decide (i.unit ≠ ({ i with src := l.bytes, cmp := 0 } : Item).unit ∨ s.readCause 0 (memKeys l.bytes) = 0)
      | .error _ => false) = true := by decide +kernel
theorem witness_CopiesAndGathersEnd_none : let s : State := { flying (gathered .waiting { cell 0 o1 4 with cmp := 2 ^ 64 }) with mem := writeBytes objectTable (keysFrom o1 4) [255, 255, 255, 255] }
    leNat ((cell 0 o1 4).src.map (Src.read s.mem)) = 0xFFFFFFFF := by decide +kernel

/-! Publishes, ports, reductions, bankState, recovery, claims -/

theorem spread_of {s : State} {p n : Nat} (h : ((List.range n).map fun i => s.sysKey (p + i)).Nodup) : spread s p n := by
  intro a b ha hb hab
  exact List.inj_on_of_nodup_map h (List.mem_range.mpr ha) (List.mem_range.mpr hb) hab
theorem range_map_nodup {n : Nat} {f : Nat → Nat} (h : ∀ a, a < n → ∀ b, b < a → f b < f a) : ((List.range n).map f).Nodup := by
  rw [List.nodup_map_iff_inj_on List.nodup_range]
  intro a ha b hb hab
  have ha' := List.mem_range.mp ha
  have hb' := List.mem_range.mp hb
  rcases Nat.lt_trichotomy a b with h' | h' | h'
  · exact absurd hab (Nat.ne_of_lt (h b hb' a h'))
  · exact h'
  · exact absurd hab.symm (Nat.ne_of_lt (h a ha' b h'))
/-- Publish 7 of object 1: by an operation's PUB or by the port, before and after its request and its swap. -/
def publishing (p : Pub) : State := { flying { kind := .pub 8 1, sregs := [8] } with pkg := { win := win0, pubs := [(7, p)] } }
def pubOf (op : Option Nat) (received swapped : Bool) (waiting : List Nat) : Pub := { obj := 1, op, received, swapped, waiting }
def sound (s : State) (p : Pub) : Bool := match pubRecord s p with
  | some q => (recordBad s (homeDie s p.obj) p.ctx q q.current).isNone && (recordBad s (homeDie s p.obj) p.ctx q q.shadow).isNone && !pinnedGen s p.ctx p.obj q.shadow.gen && p.expGen.all (· == q.current.gen)
  | none => false
theorem witness_Publishes_request : sound (publishing (pubOf (some 5) false false [])) (pubOf (some 5) false false []) = true ∧ sound (publishing (pubOf none false false [])) (pubOf none false false []) = true ∧
    sound (publishing { pubOf none false false [] with obj := 9 }) { pubOf none false false [] with obj := 9 } = false ∧ ∀ x ∈ (publishing (pubOf none false false [])).pkg.pubs, ¬ x.1 < 7 := by decide +kernel
theorem witness_Publishes_swap : let s := publishing (pubOf (some 5) true false []); sound s (pubOf (some 5) true false []) = true ∧ s.pkg.unretired.length < 256 ∧
    (∀ x ∈ s.ops, ∀ g ∈ x.2.gens, ¬ (g.shadow = true ∧ g.ctx = 0 ∧ g.obj = 1)) ∧ spread s (0x10000 + 1 * 128) 128 :=
  ⟨by decide +kernel, by decide +kernel, by decide +kernel, spread_of (by decide +kernel)⟩
theorem witness_Publishes_invalidate : (0 : Nat) ∈ (pubOf none true true [0, 1]).waiting := by decide
theorem witness_Publishes_complete : ∃ o st, (publishing (pubOf (some 5) true true [])).op 5 = some o ∧ o.sregs = [8] ∧ (publishing (pubOf (some 5) true true [])).strand o.strand = some st := ⟨_, _, rfl, rfl, rfl⟩

/-- The port free and busy; a generation without pins; a link, a port; an error at its threshold, with exclusion enabled. -/
def booted1 : State := { flying waitsLine with pkg := { win := { win0 with caps := 0x1F01_0F10, rascfg := 0x10002 }, unretired := [⟨0, 1, 3, false⟩], pins := [⟨0, 1, 2, 0⟩] } }
theorem witness_PortsPinsAndErrors : booted1.booted = true ∧ booted1.win.opstat.getLsbD 0 = false ∧ (withWin booted1 { booted1.win with opstat := 1 }).win.opstat.getLsbD 0 = true ∧
    (booted1.pkg.unretired.find? fun x => x.ctx == 0 && x.obj == 1) = some ⟨0, 1, 3, false⟩ ∧ pinnedGen booted1 0 1 3 = false ∧ (∀ x ∈ booted1.ops, ∀ g ∈ x.2.gens, ¬ (g.ctx = 0 ∧ g.obj = 1 ∧ g.gen = 3)) ∧ booted1.pkg.pubs = [] ∧
    (17 : Nat) ∉ booted1.pkg.badPorts ∧ 0 < booted1.caps / 2 ^ 26 % 2 ^ 5 := by decide +kernel
/-- Counts of die 0 under THRESH 2: below it, at it, failed; with exclusion and without; a gang on the unit or none. -/
def errorState (act : Nat) (n : Nat) (gs : Tab Gang) : State := { booted1 with
  pkg := { win := { win0 with rascfg := BitVec.ofNat 64 (2 + 2 ^ 16 * act) } }, dies := [(0, { errors := [(7, 1), (2 ^ 32, n)] })], gangs := gs, strands := [(0, strand0)] }
theorem witness_PortsPinsAndErrors_threshold : ∀ act ∈ [0, 1], ∀ n ∈ [1, 2], let s := errorState act n [(1, gang0)]
    0 ∈ s.dieSet ∧ rising none (s.die 0).errors = true ∧ (s.win.rascfg.getLsbD 16 = decide (act = 1)) ∧ (rd 0 (s.die 0).errors (2 ^ 32) + 1 ≤ s.win.rascfg.toNat % 2 ^ 16 ↔ n = 1) ∧ (s.die 0).failed = [] ∧
      (∀ d ∈ s.dieSet, ∀ e ∈ (s.die d).errors, (d = 0 ∧ e.1 = 2 ^ 32) ∨ e.2 ≤ s.win.rascfg.toNat % 2 ^ 16) ∧ (1, 0) ∉ s.pkg.excluded ∧
      s.onUnit 1 0 1 gang0 = true ∧ s.onUnit 1 3 1 gang0 = false ∧ s.onUnit 3 0 1 gang0 = false ∧ s.onUnit 0 5 1 gang0 = false := by decide +kernel

/-- LDSUM, not sent, sent, with each result; a reduction that has waited for its time; the header of its root. -/
def reducing (since : Option Nat) (res : Option Nat) : State := { pods with ops := [(5, { kind := .ldsum 1 8 2 since 0 1 res, items := [{ t := 2, addr := 2 ^ 40, val := 9 }] })] }
theorem witness_Reductions_ldsum : (let s := reducing none none; (s.op 5).any (fun o => s.ordered 5 o && o.tags.isEmpty && (o.items.map (·.t)).Nodup) = true ∧ heldReductions s < 256) ∧
    256 ≤ heldReductions { reducing none none with ops := (List.range 256).map fun i => (i + 9, { kind := .ldsum 0 8 2 (some 0) 1 1 none }) } := by decide +kernel
theorem witness_Reductions_timeout : (let s : State := { reducing (some 0) none with now := 1024, pkg := { win := { win0 with rpctl := 10 } } }; 0 + 2 ^ (s.win.rpctl.toNat % 2 ^ 5) ≤ dieCycle 0 s.now) ∧
    (let s : State := { reducing none none with now := 1024, pkg := { win := { win0 with rpctl := 10 }, members := [(5, {})] } }; ({} : Member).start + 2 ^ (s.win.rpctl.toNat % 2 ^ 5) ≤ dieCycle 0 s.now) :=
  ⟨dieCycle_ge 0 1024, dieCycle_ge 0 1024⟩
/-- A set of two members, this package of rank 0: a request, and its child's partial, its last and not. -/
def pair2 : State := let s := reducing (some 0) none
  { s with mem := writeBytes s.mem (keysFrom (onyxKey 0 0x8000) 8) [1, 0, 0, 0, 2, 0, 1, 0] }
theorem witness_Reductions_member : (match redHeader pair2 5 with
    | some h => (match redOwn pair2 h with | .ok (k, n, vs) => decide (2 * k + 1 < n ∧ vs.length = 1 ∧ look pair2.pkg.members 5 = none ∧ (h.op.isSome = true ∨ heldReductions pair2 < 256)) | .error _ => false)
    | none => false) = true := by decide +kernel
/-- A reduction's time begins with its cycle. -/
theorem witness_Reductions_time (n : Nat) (s : State) : redLate { s with now := n } (dieCycle 0 n) = false := by
  unfold redLate
  have : 0 < redTimeout { s with now := n } := Nat.two_pow_pos _
  exact decide_eq_false (by show ¬ _ ≤ dieCycle 0 n; omega)
theorem witness_Reductions_partial : ∀ n ∈ [2, 3], let m : Member := { f := 1, rset := 1, count := n, own := [4], op := some 5 }
    0 < kidCount m.rank m.count ∧ (∀ x ∈ m.kids, x.1 ≠ 0) ∧ (n = 3 → (m.kids ++ [(0, [1])]).length < kidCount m.rank m.count) ∧ (n = 2 → kidCount m.rank m.count ≤ (m.kids ++ [(0, [1])]).length) := by decide +kernel

/-- STBL's and SLD's copies of two bytes; an exchange that one core and then none must take; no run uses its old bank. -/
def bankState (k : OpKind) : State := { flying { kind := k } with ctxs := [(0, { otbase := 0x10000, otlen := 4, ftarea := 0x100000, mdarea := 0x200000 })] }
theorem witness_BanksRecoveryAndClaims_banks : (let s := bankState (.stbl 7 [1, 2]); s.sysKey (0x100000 + 14 * 16384) ≠ s.sysKey (0x100000 + 14 * 16384 + 1)) ∧
    (let s := bankState (.sld 63 [1, 2]); s.sysKey (0x200000 + 126 * 98304) ≠ s.sysKey (0x200000 + 126 * 98304 + 1)) ∧ usesOldBank (bankState (.bankSwap true 63 [])) 0 true 63 0 = false ∧
    usesOldBank (bankState (.bankSwap false 7 [])) 0 false 7 0 = false := by decide +kernel
/-- Two entries alike and one not, of a strand that waits. -/
def entry (r : Nat) : RecEntry := { region := r, args := [5, 6], argRegs := [8, 9], pc := 256 }
theorem witness_BanksRecoveryAndClaims_recovery : let s : State := { flying waitsLine with cores := [(0, { recq := [entry 1, entry 2, entry 1] })] }
    (s.core 0).recq = entry 1 :: [entry 2, entry 1] ∧ (s.strand (entry 1).source).isSome = true ∧ s.strand (0 * 512 + 384 + 7) = none ∧ ∀ x ∈ (s.core 0).recq, x.argRegs.Nodup ∧ x.argRegs.length = x.args.length := by
  decide +kernel
/-- A CLAIM of 2 blocks at word 64 at the head of lane 0; the lane's pool taken by another gang, 65,536 cycles on. -/
def claimer : Strand := onPath0 (fun p => { p with run := none }) strand0
def claiming : State := let s := objects claimer gang0
  { s with mem := writeBytes s.mem (keysFrom (onyxKey 0 0x20040) 4) [2, 0, 0x60, 0x72], cores := [(0, { claims := [(0, { strand := 0, path := 0, blocks := 2, head := 0 })] })]
           gangs := [(1, { gang0 with task := { entry := 2 ^ 40 } }), (2, { hdr := {}, live := 1 })], strands := [(0, claimer), (8, { strand0 with gang := 2, allot := 64 })] }
theorem witness_BanksRecoveryAndClaims_claims : claiming.laneBlocks 0 0 + 2 ≤ lanePool 0 ∧ coreOf 0 = 0 ∧ (peek claiming 0 { gang0 with task := { entry := 2 ^ 40 } } 8 (claimer.path 0)).1.isSome = true ∧
    (claiming.strand 0).map (fun st => (st.path 0).run) = some none := by decide +kernel
theorem witness_BanksRecoveryAndClaims_starvation : let s : State := { claiming with now := 65536, strands := [(0, strand0), (8, { strand0 with gang := 2, allot := 128 })], gangs := [(1, { gang0 with resident := false }), (2, {})] }
    0 + 65536 ≤ dieCycle (coreDie 0) s.now ∧ lanePool 0 < s.laneBlocks 0 0 + 2 ∧ (s.gangs.filter fun x => x.2.core == 0 && x.2.resident) = [(2, {})] ∧ 0 < gangBlocks s 0 0 2 ∧ gangBlocks s 0 0 2 < 1000 ∧
      (s.strand 0).map (·.gang) ≠ some 2 := ⟨dieCycle_ge 0 65536, by decide +kernel⟩

/-! Regions, tiles, records, gangs, steals, domains -/

/-- Region 4 of context 0, its record at 0x100100; an update that counts, one that brings an error, one that brings violations past the limit of 3. -/
def regionState (u : RegionUpd) (limit : Byte) : State := { flying { kind := .qset 4, data := [List.replicate 16 0] } with
  mem := objectTable ++ (if limit = 0 then [] else [(onyxKey 0 0x100108, limit)])
  ctxs := [(0, { otbase := 0x10000, otlen := 4, regarea := 0x100000 })], pkg := { win := win0, updates := [(9, u)] } }
theorem witness_RegionsAndTiles_regions : spread (regionState { region := 4, calls := 3 } 0) (0x100000 + 64 * 4) 64 ∧ ((regionState { region := 4, err := some 5 } 0).liveq 0 4).vlimit = 0 ∧
    (let s := regionState { region := 4, viol := 7, err := some 5 } 3; (s.liveq 0 4).vlimit ≠ 0 ∧ (s.liveq 0 4).vlimit ≤ min 65535 (s.sysNat (0x100000 + 64 * 4 + 22) 2 + 7) ∧ s.sysNat (0x100000 + 64 * 4 + 56) 8 / 2 % 2 = 0) ∧
    (parseQuality (List.replicate 16 0)).vlimit = 0 := ⟨spread_of (by decide +kernel), by decide +kernel, by decide +kernel, by decide +kernel⟩
theorem witness_RegionsAndTiles_notices : (regionState {} 0).regionNat 0 4 56 8 / 2 % 2 ≠ 1 ∧
    ({ regionState {} 0 with mem := objectTable ++ [(onyxKey 0 0x100138, 2)] } : State).regionNat 0 4 56 8 / 2 % 2 = 1 := by decide +kernel
/-- MMA at the heads of the four cores of quad 0: all quarters there, or one failed. -/
def quarter (c : Nat) (bad : Nat) : Op := { kind := .mma 7 false 0 0 false false 4 0 true, strand := 512 * c, gang := c + 1, core := c, items := [{ t := 0, bad }], data := [[], []] }
def joint (bad : Nat) : State := { mem := objectTable, cores := (List.range 4).map fun c => (c, { queue := [c + 5] }), gangs := (List.range 4).map fun c => (c + 1, { gang0 with core := c })
                                   strands := (List.range 4).map fun c => (512 * c, { strand0 with gang := c + 1 }), ops := (List.range 4).map fun c => (c + 5, quarter c (if c = 2 then bad else 0)) }
theorem witness_RegionsAndTiles_joint : ∀ b ∈ [0, 0xB2], ∀ c < 4, ((joint b).core (quadCore 0 c)).queue.head? = some (c + 5) ∧ (joint b).op (c + 5) = some (quarter c (if c = 2 then b else 0)) ∧
    (quarter c 0).core = quadCore 0 c ∧ quadOf (quadCore 0 c) = 0 ∧ ((joint b).core (quadCore 0 c)).matchList = [] ∧ ((joint b).gang (c + 1)).isSome = true ∧ ((joint b).strand (512 * c)).isSome = true ∧ (∀ c' < 4, c + 5 = c' + 5 → c = c') := by decide +kernel
theorem witness_RegionsAndTiles_load : let s : State := { flying { kind := .mld 7 o1 true 0 } with cores := [(0, { queue := [5] })] }
    (s.core 0).queue.head? = some 5 ∧ s.phys.bad = [] ∧ (s.gang 1).isSome = true := by decide +kernel

/-- Object 1 begins with the header of a kernel of one strand in encoding version 3; object 3, of 4 MiB, holds save slots; object 2 holds its spilled records. -/
def object3 : List Host.Cell := cellsAt (onyxKey 0 0x10180) (leBytes 8 (1 + 64 * 5 + 2 ^ 16 * 16) ++ leBytes 8 (2 ^ 22) ++ leBytes 16 (2 ^ 20 + 2 ^ 32 + 2 ^ 64 + 2 ^ 96) ++ leBytes 16 1 ++ leBytes 16 0 ++
  leBytes 16 (0x400000 + 2 ^ 64 * 2 ^ 22) ++ leBytes 8 (2 ^ 32 * (15 + 16 * 2)) ++ leBytes 8 0 ++ leBytes 16 0 ++ leBytes 8 0)
def kernels (p : Pkg) (q : List QRec) : State := { flying waitsLine with
  mem := objectTable ++ object3 ++ [(o1, 3), (o1 + 1, 1)]
  ctxs := [(0, { otbase := 0x10000, otlen := 4, qstr := 384, qvreg := 1536, qscr := 720, gsobj := 3, tspill := 2 * 2 ^ 40 })]
  pkg := { p with win := { win0 with caps := 0x3F_1F01_0F10, plceil := 95, stealctl := 16 } }, quads := [(0, { queue := q })] }
def task1 : Task := { entry := 2 ^ 40 }
def grid1 : Task := { task1 with kind := 1, ex0 := 2, ex1 := 3, ex2 := 1 }
def taken (t : Task) (origin : Nat) : State := kernels { port := [{ task := t, origin }] } []
theorem witness_RecordsReachQueues_take : ((takeCheck (kernels {} []) grid1 0).toBool && (takeCheck (kernels {} []) task1 1).toBool && !(takeCheck (kernels {} []) { task1 with ex0 := 1 } 0).toBool) = true ∧
    (kernels {} []).chooseQuad none 1 = some 1 ∧ (kernels {} []).chooseQuad none 4 = some 1 ∧ (taken task1 0).win.tkstat.toNat / 2 ^ 16 % 2 ^ 16 < 65535 ∧ (taken task1 0).booted = true := by decide +kernel
theorem witness_RecordsReachQueues_launch : ∀ team ∈ [true, false], let l : Launch := { task := grid1, hdr := { team }, n := 8, next := 4 }; (if l.hdr.team then 4 else 1) + l.next ≤ l.n ∧ l.hdr.nbdie = 0 ∧ l.pin = none := by decide
/-- A spill object with one record, head 0 and tail 1; a record in the overflow buffer. -/
def spilled1 : State := { kernels { spilled := [(0, { task := task1 })], overflow := [{ task := task1 }] } [] with mem := objectTable ++ object3 ++ [(o1, 3), (o1 + 1, 1)] |> fun m => writeByte m (0x20000 + 8) 1 }
theorem witness_RecordsReachQueues_spill : (match spillQueue spilled1 0 with | some (_, h, tl, _) => decide (h < tl) | none => false) = true ∧ (0 : Nat) ∈ spilled1.quadsIn ∧ 512 ≤ spilled1.room 0 ∧
    spilled1.reading 0 < spilled1.ceiling ∧ (spilled1.pkg.spilled.find? fun x => x.1 == 0) = some (0, { task := task1 }) ∧ ((List.range 8).all fun i => hwKey spilled1 0 0 2 i == some (0x20000 + i)) = true ∧ (keysFrom 0x20000 8).Nodup := by decide +kernel

/-- A record of gang 1's kernel waits on quad 0, for one quantum; cores whose strand slots are all held. -/
def waits : QRec := { task := task1, id := 7 }
def placing : State := kernels {} [waits]
theorem witness_GangsComeAndGo_place : (placeable placing 0).head? = some waits ∧ (match headerOf placing waits with
    | .ok h => !h.team && (match fitQuad placing 0 waits h (teamOf placing 0 waits) with | some [(r, p)] => decide (r = waits ∧ (p.slots.map fun x => x.2.1).Nodup ∧ h.carve = 0 ∧ (placing.core p.core).carve = 0) | _ => false)
    | .error _ => false) = true ∧ (0 : Nat) ∈ placing.quadsIn ∧ (placing.quad 0).hold = none := by decide +kernel
theorem witness_GangsComeAndGo_hold : placeable { placing with now := 2 ^ 20 } 0 = [waits] ∧ waits.entered + quantum placing 0 ≤ dieCycle (0 / 34) ({ placing with now := 2 ^ 20 } : State).now :=
  ⟨by decide +kernel, by rw [show quantum placing 0 = 2 ^ 20 from by decide +kernel]; exact dieCycle_ge 0 (2 ^ 20)⟩
/-- A gang with one strand on each core of the quad, and a quota of one strand: the record does not fit until a gang leaves. -/
def waiting1 : State := { placing with now := 2 ^ 20, ctxs := [(0, { otbase := 0x10000, otlen := 4, qstr := 1, qvreg := 1536, qscr := 720, gsobj := 3 })], gangs := (List.range 4).map fun c => (c + 1, { gang0 with gslot := 1, core := c }), strands := (List.range 4).map fun c => (512 * c, { strand0 with gang := c + 1 }) }
theorem witness_GangsComeAndGo_quantum : waiting1.residents 0 = [(1, { gang0 with gslot := 1 })] ∧ waits ∈ placeable waiting1 (quadOf 0) ∧
    gang0.placed + quantum waiting1 0 ≤ dieCycle (coreDie 0) waiting1.now :=
  ⟨by decide +kernel, by decide +kernel, by rw [show quantum waiting1 0 = 2 ^ 20 from by decide +kernel]; exact dieCycle_ge 0 (2 ^ 20)⟩
theorem witness_GangsComeAndGo_fits : placeableAt waiting1 0 waits = false ∧ placeableAt (waiting1.without 1) 0 waits = true := by decide +kernel
theorem witness_GangsComeAndGo_save : canSave { kernels {} [] with ops := [], gangs := [(1, { gang0 with swap := true })], strands := [(0, onPath0 (fun p => { p with run := none }) strand0)] } 1 = true ∧
    0 < (kernels {} []).room (quadOf gang0.core) ∧ gang0.resident = true ∧ (kernels {} []).pkg.failing = [] := by decide +kernel

/-- Quad 1 idle, quad 0 with two records of a launch. -/
def twoQueued : State := { kernels { launches := [(3, { task := grid1, hdr := {} })] } [{ waits with launch := 3 }, { waits with id := 8, launch := 3 }] with ops := [] }
theorem witness_StealsAndReturns_start : (placeable twoQueued 0).find? (stealable twoQueued 1 0) = some { waits with launch := 3 } ∧ (1 : Nat) ∈ twoQueued.quadsIn ∧ (twoQueued.quad 1).queue = [] ∧
    (twoQueued.onCoreStrands (quadCore 1 0)).length < 384 ∧ twoQueued.reading 1 < twoQueued.ceiling ∧ twoQueued.win.stealctl.toNat / 2 ^ 5 % 2 = 0 ∧ 2 ≤ (queued twoQueued 0).length ∧
    ∀ q ∈ twoQueued.quadsIn, q / 34 = 0 → q ≠ 1 → q ≠ 0 → (queued twoQueued q).length < (queued twoQueued 0).length := by decide +kernel
/-- The entry lent to another quad still stands in its queue, and the copy in the other's, unread. -/
theorem witness_StealsAndReturns_stages : ∀ st ∈ [QState.lent, .pending], ∃ y ∈ ({ kernels {} [{ waits with st }] with ops := [] }.quad 0).queue, y.id = waits.id := by decide +kernel
theorem witness_StealsAndReturns_messages : ∀ x ∈ (flying waitsLine).ops, x.2.kind ≠ .done 4 := by decide +kernel
theorem witness_StealsAndReturns_times : (let x : Steal := {}; let s : State := { twoQueued with now := 2 ^ 16 }; x.start + 2 ^ 16 ≤ dieCycle (x.victim / 34) s.now) ∧
    ∀ n, let x : Steal := { start := dieCycle 0 n }; ¬ x.start + 2 ^ 16 ≤ dieCycle 0 n := by
  refine ⟨dieCycle_ge 0 (2 ^ 16), fun n => ?_⟩
  show ¬ dieCycle 0 n + 2 ^ 16 ≤ dieCycle 0 n
  omega
/-- A counter of 2 and of 1 at the start of object 2, the last with a task image at the start of object 1. -/
def counting (n : Byte) (img : Byte) : State := { kernels { msgs := [(4, .dec (2 * 2 ^ 40) 6 noDomain 0 0 false 0)] } [] with mem := objectTable ++ [] |> fun m => writeByte (writeByte m 0x20000 n) (0x20000 + 13) img }
def counterOk (s : State) : Bool := match checkCounter s 0 0 (2 * 2 ^ 40) none with
  | .ok l => decide ((memKeys l.bytes).length = 16 ∧ (memKeys l.bytes).Nodup)
  | .error _ => false
theorem witness_StealsAndReturns_decrement : counterOk (counting 2 0) = true ∧ counterOk (counting 1 1) = true ∧ leNat ((keysFrom 0x20000 4).map (readByte (counting 1 1).mem)) = 1 ∧
    leNat ((keysFrom 0x20008 8).map (readByte (counting 1 1).mem)) = 2 ^ 40 ∧ (match translate { counting 1 1 with mem := writeBytes (counting 1 1).mem (keysFrom 0x20000 4) [0, 0, 0, 0] } 0 0 (2 ^ 40) 64 .read with
      | .ok c => decide ((counting 1 1).readCause 0 (memKeys c.bytes) = 0)
      | .error _ => false) = true := by decide +kernel
/-- Domain 5 of die 0, in use by context 0. -/
def domain5 : State := { tasks held none strand0 with mem := writeByte objectTable (onyxKey 0 (0x9000 + 32 * 5 + 24)) 1 }
theorem witness_StealsAndReturns_domain : domainValid domain5 5 (domainNat domain5 5 24 4 / 2 ^ 4 % 2 ^ 6) = true ∧ domainNat domain5 5 12 12 + 9 < 2 ^ 96 := by decide +kernel
theorem witness_StealsAndReturns_pod : let s : State := { kernels {} [] with pkg := { win := { win0 with caps := 0x3F_1F01_0F10 } }, ctxs := [(0, { podmap := 0x8000 })] }
    s.wilmo = true ∧ ((s.ctx 0).any fun c => c.podmap.getLsbD 15) = true := by decide +kernel

/-! Lanes, stops, the host, clocks, boot -/

/-- Two paths of lane 0, both ready, the first older; a path whose lookahead is spent, in a run. -/
def laneS : State := { objects strand0 gang0 with mem := objectTable ++ cellsAt (o1 + 64) [0, 0, 0x70, 0x66]
                                                  strands := [(0, onPath0 (fun p => { p with run := none }) strand0), (3, onPath0 (fun p => { p with run := none, age := 4 }) { strand0 with index := 1 })] }
theorem witness_LanesAndWindows_start : rising none laneS.strands = true ∧ (lanePaths laneS 0 0).map (fun x => (x.1, x.2.1, ready laneS x.1 x.2.1, (x.2.2.path x.2.1).run.isNone)) = [(0, 0, true, true), (3, 0, true, true)] ∧
    (match lanePaths laneS 0 0 with | [a, b] => pathBefore a b | _ => false) = true := by decide +kernel
/-- A path in a run whose lookahead is spent, for 512 steps: its chain at 64 is held. -/
def spent1 : Strand := onPath0 (fun p => { p with outs := [(5, 1, 0)], words := 1, heldFrom := some 0 }) strand0
def spentS : State := { laneS with now := 512, strands := [(0, spent1)], ops := [(5, waitsLine)] }
theorem witness_LanesAndWindows_stall : (spent1.path 0).run.isSome = true ∧ (spent1.path 0).heldFrom = some 0 ∧ spentS.gang spent1.gang = some gang0 ∧
    stalled spentS (comingTo spentS 0 0 spent1 { gang0 with task := { entry := 2 ^ 40 } }).1 (comingTo spentS 0 0 spent1 { gang0 with task := { entry := 2 ^ 40 } }).2 = true ∧
    stalled laneS (comingTo laneS 0 0 strand0 { gang0 with task := { entry := 2 ^ 40 } }).1 (comingTo laneS 0 0 strand0 { gang0 with task := { entry := 2 ^ 40 } }).2 = false := by decide +kernel
theorem witness_LanesAndWindows_cap : (∀ n, ¬ dieCycle 0 n + 512 ≤ dieCycle 0 n) ∧ dieCycle 0 0 + 512 ≤ dieCycle 0 spentS.now := ⟨fun n => by omega, dieCycle_ge 0 512⟩
theorem witness_LanesAndWindows_held : (List.replicate 256 (zeros 32)).length = 256 ∧ (zeros 32).length = 32 := ⟨List.length_replicate .., List.length_replicate ..⟩
theorem witness_LanesAndWindows_energy : slotShares (objects strand0 gang0) 0 = [(0, 1)] ∧ (({ objects strand0 gang0 with cores := [(0, { charges := [(0, 40)] })] } : State).core 0).charges = [(0, 40)] := by decide +kernel

/-- A stopping strand, drained, with a fault, with a handler and without; its save slot in stack 0 from 0x400000, whose record the publish under way still has as it was. -/
def record3 : List Byte := leBytes 8 (1 + 64 * 5 + 2 ^ 16 * 16) ++ leBytes 8 (2 ^ 22) ++ leBytes 16 (2 ^ 20 + 2 ^ 32 + 2 ^ 64 + 2 ^ 96) ++ leBytes 16 1 ++ leBytes 16 0 ++
  leBytes 16 (0x400000 + 2 ^ 64 * 2 ^ 22) ++ leBytes 8 (2 ^ 32 * (15 + 16 * 2)) ++ leBytes 8 0 ++ leBytes 16 0 ++ leBytes 8 0
def stopper : Strand := { strand0 with mode := .stopping, path0 := { pc := 64, act := 5, fault := some { cause := 0x60, pc := 64 } } }
def stopping (h : Nat) (m : List Host.Cell) : State := { kit stopper { gang0 with hdr := { handlerOff := h } } with
  mem := m, cur := none, ctxs := [(0, { otbase := 0x10000, otlen := 4, gsobj := 3 })], pkg := { win := win0, pubs := [(7, { obj := 3, swapped := true, waiting := [0], oldRecord := record3 })] } }
theorem witness_StrandsStop_stop : ∀ h ∈ [0, 256], ((stopping h objectTable).strand 0).any (fun st => st.mode == .stopping && (stopping h objectTable).drained 0 && st.deferred.isEmpty && !st.divided && st.path1.fault.isNone &&
    st.path0.fault.any fun f => !f.toHost) = true := by decide +kernel
theorem stopping_record (h : Nat) (m : List Host.Cell) : hwRecord (stopping h m) 0 0 3 = some (parseRecord record3) := by
  have h0 : record (stopping h m) 0 0 3 = some (parseRecord record3) := rfl
  have hp : parseRecord record3 = { valid := true, ndim := 1, layout := 0, fmt := 5, planes := 16, stlog := 16, rol := false, repl := false, padidx := false, cur := false, extent := 2 ^ 22
                                    dims := (2 ^ 20, 1, 1, 1), strs := (1, 0, 0, 0), resmap := 0, auxobj := 0, rset := 0
                                    slotA := { base := 0x400000, pext := 2 ^ 22, gen := 0, perm := 15, place := 2, frz := false, target := 0 }
                                    slotB := { base := 0, pext := 0, gen := 0, perm := 0, place := 0, frz := false, target := 0 } } := by decide +kernel
  have hs : (stopping h m).stackPresent 0 = true := by
    show (stopping 0 []).stackPresent 0 = true
    decide +kernel
  unfold hwRecord
  rw [h0, hp]
  have hc : recordDepth (stopping h m) 0 = 5 := rfl
  simp [recordBad, hc, recordCheck, ObjRec.current, ObjRec.es, formatSize, layoutOk, zeroStride, slotCheck, placeExists, spaceSize, hs, bits]
/-- The place of the image: 16,384 bytes from 4,096 on, whatever memory holds. -/
theorem witness_StrandsStop_place (h : Nat) (m : List Host.Cell) : HwLies (stopping h m) 0 3 4096 ((List.range 16384).map fun i => 0x401000 + i) := by
  refine ⟨range_map_nodup fun a _ b hb => by omega, fun i hi => ?_⟩
  have hi' : i < 16384 := by simpa using hi
  have hr : hwRecord (stopping h m) 0 0 3 = some (parseRecord record3) := stopping_record h m
  have h1 : (parseRecord record3).dims = (2 ^ 20, 1, 1, 1) := by decide +kernel
  have h2 : (parseRecord record3).strs = (1, 0, 0, 0) := by decide +kernel
  have h3 : (parseRecord record3).ndim = 1 ∧ (parseRecord record3).layout = 0 ∧ (parseRecord record3).es = 4 ∧ (parseRecord record3).extent = 2 ^ 22 ∧ (parseRecord record3).current.pext = 2 ^ 22 ∧
      (parseRecord record3).current.place = 2 ∧ (parseRecord record3).current.target = 0 ∧ (parseRecord record3).current.base = 0x400000 := by decide +kernel
  obtain ⟨h3, h4, h5, h6, h7, h8, h9, h10⟩ := h3
  have hp : physElem (parseRecord record3) ((4096 + i) / 4) = (4096 + i) / 4 := by
    unfold physElem
    simp only [h1, h2, h3, h4]
    norm_num
    omega
  unfold hwKey
  rw [hr]
  simp only [Option.bind_some, hwAt, h5, h6, h7, h8, h9, h10, hp]
  rw [if_neg (by omega), List.getElem?_map, List.getElem?_range hi']
  unfold locate stackKey
  simp only [Option.map_some, Option.some.injEq]
  norm_num
  omega
theorem stopping_now (h : Nat) (m : List Host.Cell) : ((stopping h m).setStrand 0 stopper).trace 0 0 4 64 5 0x60 = stopping h m := by
  have : traceOn ((stopping h m).setStrand 0 stopper) (coreOf 0) 0 4 = false := by
    show traceOn (stopping 0 []) 0 0 4 = false
    decide +kernel
  unfold State.trace
  simp only [show ((stopping h m).setStrand 0 stopper).strand 0 = some stopper from rfl, show (((stopping h m).setStrand 0 stopper).gang stopper.gang).getD {} = { gang0 with hdr := { handlerOff := h } } from rfl]
  rw [if_pos (by rw [show traceOn ((stopping h m).setStrand 0 stopper) (coreOf 0) ({ gang0 with hdr := { handlerOff := h } } : Gang).task.ctx 4 = false from this]; rfl)]
  rfl
/-- What the clause of a strand that stays stopped asks: the place of its image, of as many bytes, there before and after. -/
theorem witness_StrandsStop_host (m : List Host.Cell) (img : List Byte) (hi : img = ({ stopper with path0 := stopper.path0.shown, path1 := stopper.path1.shown } : Strand).image
      (faultRecord (stopping 0 m) 0 stopper { gang0 with hdr := { handlerOff := 0 } } 0 { cause := 0x60, pc := 64 } false) []) :
    img.length = 16384 ∧ (stopping 0 m).gsobj 0 = 3 ∧ gang0.gslot * 2 ^ 21 + imageOff (imageNo 0 stopper.index) = 4096 ∧
      HwLies { stopping 0 m with mem := writeBytes m ((List.range 16384).map fun i => 0x401000 + i) img } 0 3 4096 ((List.range 16384).map fun i => 0x401000 + i) := by
  refine ⟨?_, rfl, rfl, witness_StrandsStop_place 0 _⟩
  rw [hi]
  exact image_length _ _ _ (Or.inl (faultRecord_length ..)) (Or.inr rfl) (by decide)
/-- A handler that faults; strands that leave: one of two, the last of a gang with a successor, of one with weight, of one that is done. -/
theorem witness_StrandsStop_handler : let s : State := { handler plain with strands := [(0, { strand0 with mode := .handler, path0 := { pc := 64, act := 5, fault := some { cause := 2, pc := 64 } } })] }
    (s.strand 0).any (fun st => s.drained 0 && st.path1.fault.isNone && st.path0.fault.isSome) = true := by decide +kernel
theorem witness_StrandsStop_exit : [({ gang0 with live := 2 } : Gang), { gang0 with prim := { returned := true } }, { gang0 with task := { entry := 2 ^ 40, succ := 2 ^ 40 } }, { gang0 with prim := held }].all (fun g =>
    !g.hdr.team && g.sec.isNone && g.pinned.isNone && !g.task.graph && (decide (g.live = 2) || g.prim.returned || g.task.succ != 0 || (decide (0 < g.prim.weight) && g.prim.domain != noDomain))) = true := by decide +kernel
/-- A record for context 0's fault queue in object 1: room for it, and none; no queue. -/
def notices (mem : List Host.Cell) : State := { objects strand0 gang0 with
  mem, ctxs := [(0, { otbase := 0x10000, otlen := 4, fqobj := 1 })], pkg := { win := { win0 with ctxoff := 0x7000 }, faultWait := [{ record := zeros 128 }] } }
theorem witness_StrandsStop_append : let s := notices objectTable; (s.pkg.faultWait.find? fun x => x.ctx == 0) = some { record := zeros 128 } ∧ (((record s 0 0 1).map fun r => r.extent).getD 0 - 128) / 128 = 31 ∧
    hwNat s 0 0 1 8 8 < hwNat s 0 0 1 0 8 + 31 ∧ (zeros 128).length = 128 ∧ ((List.range 128).all fun i => hwKey s 0 0 1 (128 + i) == some (o1 + 128 + i) && hwKey { s with mem := writeBytes s.mem (keysFrom (o1 + 128) 128) (zeros 128) } 0 0 1 (8 + i % 8) == some (o1 + 8 + i % 8)) = true ∧
    (keysFrom (o1 + 128) 128 ++ keysFrom (o1 + 8) 8).Nodup ∧ hwReaches s 0 0 1 0 16 = true ∧ hwReaches s 0 0 1 128 128 = true := by decide +kernel
theorem witness_StrandsStop_full : ∀ n ∈ [(0 : Nat), 4], let s := notices (writeByte (writeByte objectTable (o1 + 8) 31) (onyxKey 0 0x7000) (BitVec.ofNat 8 n))
    hwNat s 0 0 1 0 8 + 31 ≤ hwNat s 0 0 1 8 8 ∧ (readByte s.mem (onyxKey 0 (s.win.ctxoff.toNat + 256 * 0))).getLsbD 2 = decide (n = 4) ∧ hwReaches s 0 0 1 0 16 = true ∧ ({ s with ctxs := [] } : State).ctx 0 = none ∧ hwReaches s 0 0 1 4096 128 = false := by decide +kernel

/-- HRSM and DSTOP of context 0, save slot 0, strand 0: stopped with an image that passes, stopped with one that does not, running; saved. -/
theorem witness_HostStopsAndResumes : (handler plain .stopped).booted = true ∧ (handler plain .stopped).strand 0 = some { strand0 with mode := .stopped } ∧ gangAt (handler plain .stopped) 0 1 = none ∧
    gangAt (handler plain .stopped) 0 0 = some (1, { gang0 with saved := [(0, plain)], stopped := [0] }) ∧ strandAt (handler plain .stopped) 1 0 = some (0, { strand0 with mode := .stopped }) ∧
    (gangStrands (handler plain .stopped) 1).filter (fun x => x.2.index == 0) = [(0, { strand0 with mode := .stopped })] ∧ ([(0, plain)] : Tab Saved).filter (fun x => x.1 == 0) = [(0, plain)] := by decide +kernel
theorem witness_HostStopsAndResumes_image : (let bs := image plain .stopped; imgCheck bs plain = none ∧ imgFv bs 0 = true ∧ imgFv bs 1 = false ∧ imgFlags bs % 2 = 0 ∧ imgLive bs 0 ≠ 0 ∧ imgLive bs 0 &&& ~~~recMask (imgRec bs 0) ≠ 0 ∧
    reissues (imgRec bs 0) = true ∧ recMask (imgRec bs 0) &&& imgLive bs 0 ≠ 0 ∧ plain.recov = none ∧ plain.aoadds = [] ∧ plain.keep0.reissue = none ∧ plain.keep0.half = false ∧ strand0.recov = none) ∧ (imgCheck (image spare .stopped) spare).isSome = true ∧
    imgCheck (image plain .stopped false) plain = none := by decide +kernel
theorem witness_HostStopsAndResumes_values : ∀ mode < 4, (2 ^ 21 * mode) / 2 ^ 21 % 2 ^ 2 = mode ∧ (2 ^ 21 * mode) / 2 ^ 23 % 2 = 0 ∧ (2 ^ 21 * mode) % 2 ^ 16 = 0 ∧ (2 ^ 22) / 2 ^ 21 % 2 = 0 ∧ (2 ^ 22) / 2 ^ 22 % 2 = 1 := by decide
theorem witness_HostStopsAndResumes_stop : (laneS.strand 0).any (fun st => st.mode == .running && !st.divided && !st.path0.ended && st.path0.fault.isNone) = true ∧
    (gangStrands laneS 1).filter (fun x => x.2.index == 0) = [(0, onPath0 (fun p => { p with run := none }) strand0)] ∧ (∀ x ∈ gangStrands laneS 1, x.2.index ≠ 7) ∧ laneS.booted = true := by decide +kernel

/-- CTXCTL while BUSY and not; a context record at 0x7000 that is valid and not; one running strand, or none, to kill; a stop and a kill under way. -/
def control (ctl : Dword) (op : Option (Nat × Nat)) (gs : Tab Gang) : State := { objects strand0 gang0 with gangs := gs, pkg := { win := { win0 with ctxctl := ctl, ctxoff := 0x7000 }, ctxOp := op } }
theorem witness_Contexts : (control 0x100 none []).booted = true ∧ (control 0x100 none []).win.ctxctl.getLsbD 8 = true ∧ (control 0 none []).win.ctxctl.getLsbD 8 = false ∧
    fieldAt (readAt (control 0 none []).mem (onyxKey 0 0x7000) 256) 0 8 % 2 = 0 ∧ fieldAt (readAt (writeByte objectTable (onyxKey 0 0x7000) 1) (onyxKey 0 0x7000) 256) 0 8 % 2 = 1 ∧
    (∀ x ∈ (control 0 none [(1, gang0)]).gangs, x.2.launch = 1) := by decide +kernel
theorem witness_Contexts_kill : let s := control 0 none [(1, gang0)]; (s.strands.filter fun x => s.ctxOf x.2 == 0) = [(0, strand0)] ∧ strand0.mode = .running ∧ strand0.path0.stack = [] ∧ strand0.path0.ended = false ∧
    s.quads = [] ∧ s.pkg.spilled = [] := by decide +kernel
theorem witness_Contexts_complete : (∃ x ∈ (control 0x100 (some (0, 1)) [(1, gang0)]).gangs, x.2.task.ctx = 0 ∧ x.2.resident = true) ∧ (∀ x ∈ (control 0x100 (some (0, 1)) []).gangs, x.2.task.ctx = 0 → x.2.resident = false) ∧
    (let s : State := { control 0x100 (some (0, 3)) [] with strands := [] }; (∀ x ∈ (s.discard 0).strands, (s.discard 0).ctxOf x.2 ≠ 0) ∧ ∀ x ∈ (s.discard 0).gangs, x.2.task.ctx ≠ 0) := by decide +kernel

/-- The window before READY and after; the aperture; a ring of one record with room. -/
theorem witness_HostWindow : State.reset.booted = false ∧ laneS.booted = true ∧ laneS.diePresent 0 = true ∧ laneS.diePresent 3 = false ∧ laneS.win.apbase.toNat + 0 + 8 ≤ spaceSize laneS laneS.sysPlace ∧
    spread laneS (laneS.win.apbase.toNat + 0) 8 := ⟨by decide +kernel, by decide +kernel, by decide +kernel, by decide +kernel, by decide +kernel, spread_of (by decide +kernel)⟩
theorem witness_HostWindow_ring : (let s := withWin laneS { laneS.win with intcfg := 0x20001 }; s.win.intcfg.getLsbD (16 + 1) = true ∧ 0 < s.win.intcfg.toNat % 2 ^ 16 ∧ s.pkg.intWait.length < 256 ∧
    (s.win.inttail - s.win.inthead).toNat < s.win.intcfg.toNat % 2 ^ 16 ∧ s.win.intcfg.getLsbD (16 + 2) = false) ∧ (interruptRecord 1 0 0 0 0).length = 32 := by decide +kernel

/-- A rate change announced, held and not; its cycle still to come and come; the power manager's three cases; the sensor's; the hold's end. -/
theorem witness_ClocksAndSensors : (let w := win0.clkctl; w.getLsbD 4 = false ∧ comingRate laneS ≠ 2 ∧ (w ||| 0x10).getLsbD 4 = true ∧ comingRate { laneS with pkg := { win := win0, clockAt := [(2, 7)] } } = 2) ∧ (∀ n, dieCycle 0 n < dieCycle 0 n + 1 ∧ 0 ≤ dieCycle 0 n) ∧
    (let l := win0.pwrctl.toNat % 2 ^ 12; l < 3500 ∧ 3000 + 50 ≤ l ∧ ¬ l < 3390) ∧ laneS.diePresent (0 / 34) = true ∧ laneS.diePresent (34 / 34) = false ∧ 0 + 2 ^ 20 ≤ dieCycle 0 (2 ^ 20) ∧
    ((win0.clkctl ||| 0x18).getLsbD 4 = true ∧ (win0.clkctl ||| 0x18).toNat / 4 % 4 ≠ (win0.clkctl ||| 0x18).toNat % 4) :=
  ⟨by decide +kernel, fun n => ⟨by omega, Nat.zero_le _⟩, by decide +kernel, by decide +kernel, by decide +kernel, dieCycle_ge 0 _, by decide +kernel⟩
theorem witness_BootAndAttestation : (State.reset.phys.bootFails = [] ∧ State.reset.phys.part470 = false ∧ State.reset.pkg.bootLog = []) ∧ (let s : State := { phys := { bootFails := [(1, 0), (1, 1)] } }; (1, 0) ∈ s.phys.bootFails ∧ (1, 1) ∈ s.phys.bootFails) ∧
    (State.reset.win.bootstat.toNat % 4 = 0 ∧ laneS.win.bootstat.toNat % 4 ≠ 0 ∧ laneS.booted = true ∧ State.reset.booted = false) ∧ ((2 ^ 63 + 3) / 2 ^ 63 % 2 = 1 ∧ (2 ^ 63 + 3) % 2 ^ 8 ≠ 8) ∧
    laneS.pkg.attCtl.getLsbD 2 = false ∧ ({ attCtl := 4 } : Pkg).attCtl.getLsbD 2 = true := by decide +kernel

/-- A step of a unit, a scheduled word and the current path's word run; a word that is none, and one in an object that does not exist, stop the strand. -/
theorem witness_StepRuns_unit : let s : State := { laneS with schedule := [.event (.laneRunStart 0 0)] }; s.schedule = .event (.laneRunStart 0 0) :: [] := rfl
/-- The word at 64 of object 1, a bad word, a place in no object; nothing gates the quad, and nothing stands between the word and its issue. -/
def codeGang (k : Nat) : Gang := { gang0 with task := { entry := k * 2 ^ 40 } }
theorem witness_StepRuns_word : decode 3 (bytesWord (((List.range 4).map fun i => readByte laneS.mem (o1 + 64 + i)))) = .ok (.nop 0) ∧ (match fetchWord laneS 0 (codeGang 1) 64 with | .ok w => decode 3 w == .ok (.nop 0) | .error _ => false) = true ∧
    (match fetchWord laneS 0 (codeGang 9) 64 with | .ok _ => false | .error f => f.cause == 0x20) = true ∧ (match fetchWord laneS 0 (codeGang 1) 128 with | .ok w => decode 3 w == .error .zeroWord | .error _ => false) = true ∧
    (match fetchWord { laneS with phys := { bad := [o1 + 64] } } 0 (codeGang 1) 64 with | .ok _ => false | .error f => f.cause == 0xB2) = true := by decide +kernel
def runningS (k : Nat) (pc : Word) : State := { laneS with cur := some (0, 0), gangs := [(1, codeGang k)], strands := [(0, onPath0 (fun p => { p with pc }) strand0)] }
theorem witness_StepRuns_next : (match nextWord (runningS 1 64) with | .word i => i == .nop 0 | _ => false) = true ∧ ∀ x ∈ [((1 : Nat), (64 : Word)), (9, 64), (1, 128)], (match envOf (.nop 0) (runningS x.1 x.2) with
    | some (e, r) => !(runningS x.1 x.2).gatedNow e.core && (e.gate r (runningS x.1 x.2)).isNone && ((runningS x.1 x.2).strand e.k).isSome
    | none => false) = true := by decide +kernel
/-- A share of 1,024 of 1,024 cycles gates every cycle. -/
theorem witness_StepRuns_gated : ({ laneS with pkg := { laneS.pkg with gated := 1024 } } : State).gatedNow 0 = true := by
  unfold State.gatedNow
  have h : ∀ x, 1024 * x % 1024 < 1024 := fun x => Nat.mod_lt _ (by decide)
  exact Bool.and_eq_true_iff.mpr ⟨by decide, decide_eq_true (h _)⟩
theorem witness_StepKeepsMemory : Memory.wf State.reset.mem = true ∧ (match step State.reset with | .next _ => true | _ => false) = true := by decide +kernel
theorem witness_NothingRefused : encode (.laneRunStart 0 0) = none ∧ (envOf (.nop 0) laneS).isNone = true ∧ (envOf (.nop 0) { laneS with cur := some (0, 0), strands := [(0, strand0)] }).isSome = true := by decide +kernel

/-! Entries that leave, spilled tables, failed links, borrowed weight -/

/-- A gang marked for swap: its entry for a joint operation and its CLAIM are withdrawn as they wait; an entry that reuses a buffer behind an operation that is not committed. -/
theorem witness_JointOperations_waits : meets (joins false) { quadOfTeams false 2 0 with gangs := (quadOfTeams false 2 0).gangs.map fun x => (x.1, { x.2 with swap := true }) } (fun e _ => e.team && e.withdrawn) &&
    (let s : State := { quadOfTeams false 3 0 with cores := (List.range 3).map fun c => (c, { matchList := [c + 1], queue := if c = 0 then [20] else [] }), ops := (20, { entryBy false 0 with acc := some 2 }) :: (quadOfTeams false 3 0).ops }
     meets (joins false) s fun e _ => let v := e.joined (e.entry false 1 0 1 1 4 s.now) s
      e.team && (v.core 0).queue.any (fun id => (v.op id).any fun o => (mmaKey o).isSome) && (List.range 4).all fun c => (v.core c).matchList.head? == some (if c = 3 then 9 else c + 1)) &&
    meets (.claim 0 1) { crowded with gangs := [(1, { gang0 with swap := true }), (2, gang0)] } (fun e _ => e.withdrawn && (claimFault crowded e.k e.st 1).isNone) = true := by decide +kernel
/-- A table with a spill in object 1: NSP is 1 and its entry is that of key 9; NSP cannot be read. -/
def spilledTable (bad : List Nat) : State := { spills with
  mem := writeBytes (writeByte spills.mem o1 1) [o1 + 16, o1 + 24] [9, 4], ops := [], phys := { bad }
  strands := [(0, { regs [] [(4, 1020), (56, 5 * 2 ^ 16)] [] with allot := 112 })], gangs := [(1, { gangK with keys := [(0, { serial := 5, spl := true, spobj := 2 ^ 40 })] })] }
def nspOf (s : State) (e : Env) : Option Nat := match tableOf e.g (e.st.sreg 56).toNat with
  | some (_, d) => (match spillCount s e.core e.ctx (carriedRecord (spillRecord s e.core e.ctx d)) d .read with | .ok n => some n | .error _ => none)
  | none => none
theorem witness_KeyTableClaims_spill : allMeet (spilledTable []) (fun e _ => decide (nspOf (paid e.i e (spilledTable [])) e = some 1)) [.hdrn 0 8 4 1 0, .hdrnDel 0 8 4 1 0] &&
    allMeet (spilledTable [o1]) (fun e _ => tableFound 0 e && decide (nspOf (paid e.i e (spilledTable [o1])) e = none)) [.hdrn 0 8 4 1 0, .hdrnDel 0 8 4 1 0] = true := by decide +kernel
/-- The last four entries of the table, then that of the spill; the position is all ones after it. -/
theorem test_drain_spill : leaves none (exec (.hdrn 0 8 4 1 0) (spilledTable [])) (fun t => (t.strand 0).map fun st => ((st.sreg 4).toNat, (st.pmask 1).toNat, (st.vreg 8 4).toNat, (st.vreg 10 4).toNat)) = some (0xFFFFFFFF, 31, 9, 4) ∧
    (faults (.hdrn 0 8 4 1 0) (spilledTable [o1])).map (·.1) = [0xB2] := by decide +kernel
/-- A reduction of a core of die 1 whose link to the reduction point is down, before it is sent and after. -/
def cutOff (since : Option Nat) : State := { reducing since (some 0) with ops := [(5, { kind := .ldsum 1 8 2 since 0 1 (if since.isSome then some 0 else none), core := 136, items := [{ t := 2, addr := 2 ^ 40, val := 9 }] })], pkg := { (reducing since none).pkg with badLinks := route 1 0 } }
theorem witness_Reductions_cut : [none, some 0].all (fun c => ((cutOff c).op 5).any fun o => (cutOff c).pointCut o && (cutOff c).ordered 5 o && decide (maskOf (o.items.map (·.t)) ≠ 0) && o.tags.isEmpty && o.fired.isEmpty &&
    o.items.all (·.bad == 0)) = true := by decide +kernel
/-- A gang of weight 1 in domain 0, in use by context 0: SPWN borrows. -/
def borrowing : State := { tasks { domain := 0, weight := 1 } none strand0 with mem := writeByte objectTable (onyxKey 0 (0x9000 + 24)) 1 }
theorem witness_TasksAndLoans_borrow : meets (.spwn 0 0 0 1 0) borrowing (fun e _ => recordsLie e && e.st.recov.isNone && !e.g.prim.returned && e.g.prim.weight == 1 && !domainBroken borrowing 0 && domainValid borrowing 0 e.ctx) = true ∧
    domainNat borrowing 0 0 12 < 2 ^ 96 - 2 ^ 32 := by decide +kernel
theorem test_borrow : leaves [] (exec (.spwn 0 0 0 1 0) borrowing) (fun t => t.pkg.port.map (·.task.weight) ++ [((t.gang 1).map (·.prim.weight)).getD 0, domainNat t 0 0 12]) = [2 ^ 31, 2 ^ 30, 2 ^ 30 + 1, 2 ^ 32] := by decide +kernel
theorem witness_PortsPinsAndErrors_port : let s : State := { booted1 with pkg := { booted1.pkg with unretired := [⟨0, 1, 3, true⟩] } }
    (s.pkg.unretired.find? fun x => x.ctx == 0 && x.obj == 1) = some ⟨0, 1, 3, true⟩ ∧ pinnedGen s 0 1 3 = false ∧ (∀ x ∈ s.ops, ∀ g ∈ x.2.gens, ¬ (g.ctx = 0 ∧ g.obj = 1 ∧ g.gen = 3)) ∧ s.pkg.pubs = [] := by decide +kernel
/-- An error past its threshold, with exclusion enabled, of each class, and of one that a gang stands on. -/
def errorOf (cls unit : Nat) (gs : Tab Gang) : State := { errorState 1 2 gs with pkg := { win := { (errorState 1 2 gs).win with caps := 0x1F01_0F10 } }, dies := [(0, { errors := [(cls * 2 ^ 32 + unit, 2)] })] }
theorem witness_PortsPinsAndErrors_classes : ∀ x ∈ [(0, 7), (1, 9), (2, 25), (3, 5), (4, 1), (5, 64), (6, 2), (6, 21)], let s := errorOf x.1 x.2 []
    rising none (s.die 0).errors = true ∧ s.win.rascfg.getLsbD 16 = true ∧ s.win.rascfg.toNat % 2 ^ 16 < rd 0 (s.die 0).errors (x.1 * 2 ^ 32 + x.2) + 1 ∧ (s.die 0).failed = [] ∧ (x.1, x.2) ∉ s.pkg.excluded ∧
      x.2 - 4 ∉ s.pkg.badPorts ∧ 0 < s.caps / 2 ^ 26 % 2 ^ 5 ∧ ∀ d ∈ s.dieSet, ∀ e ∈ (s.die d).errors, d = 0 ∧ e.1 = x.1 * 2 ^ 32 + x.2 := by decide +kernel
theorem witness_PortsPinsAndErrors_gang : let s := errorOf 1 0 [(1, gang0)]; s.gangs = [(1, gang0)] ∧ s.onUnit 1 0 1 gang0 = true ∧ rising none s.strands = true ∧ ∀ x ∈ s.strands, s.unmatched x.1 = [] := by decide +kernel
theorem witness_BanksRecoveryAndClaims_starved : let s : State := { claiming with strands := [(0, strand0), (8, { strand0 with gang := 2, allot := 128 })], gangs := [(1, { gang0 with resident := false }), (2, {})] }
    (∀ x ∈ s.gangs, x.1 = 2 → x.2 = {}) ∧ ({} : Gang).hdr.team = false ∧ ({} : Gang).swap = false ∧ rising none s.strands = true ∧ ∀ x ∈ s.strands, s.unmatched x.1 = [] := by decide +kernel
theorem witness_GangsComeAndGo_marks : waits ∈ unblocked waiting1 (quadOf 0) ∧ placeableAt waiting1 0 waits = false ∧ makesRoom waiting1 0 1 { gang0 with gslot := 1 } waits = true ∧ rising none waiting1.strands = true ∧
    (∀ x ∈ waiting1.strands, waiting1.unmatched x.1 = []) ∧ (∀ x ∈ waiting1.gangs, x.1 = 1 → x.2 = { gang0 with gslot := 1 }) := by decide +kernel
/-- Quads 0 and 1 tie, the lower is taken; on another die where STEALCTL allows. -/
def tied (stealctl : Dword) : State := { twoQueued with quads := [(0, twoQueued.quad 0), (1, twoQueued.quad 0)], pkg := { twoQueued.pkg with win := { twoQueued.win with caps := 0x3FCBFFFFF0, stealctl } } }
theorem witness_StealsAndReturns_ties : ∀ q ∈ [2, 34], let s := tied 48
    q ∈ s.quadsIn ∧ (s.quad q).queue = [] ∧ (s.onCoreStrands (quadCore q 0)).length < 384 ∧ s.reading q < s.ceiling ∧ s.win.stealctl.toNat / 2 ^ 5 % 2 = 1 ∧ 2 ≤ (queued s 0).length ∧
    (∀ v ∈ s.quadsIn, (queued s v).length ≤ 2048) ∧ (∀ v ∈ s.quadsIn, v ≠ q → v ≠ 0 → 2 ≤ (queued s v).length → v = 1 ∧ (queued s 1).length = (queued s 0).length ∧ v / 34 = 0 / 34) ∧
    (placeable s 0).find? (stealable s q 0) = some { waits with launch := 3 } := by decide +kernel
theorem witness_StealsAndReturns_steps : ∃ y ∈ ({ kernels {} [{ waits with id := 3, st := .pending }] with ops := [] }.quad 0).queue, y.id = 3 := by decide +kernel
/-- A decrement of a graph's task, by the generation it pins. -/
theorem witness_StealsAndReturns_graph : let s := counting 1 1; (match checkCounter s 0 0 (2 * 2 ^ 40) (some 0) with | .ok l => decide ((memKeys l.bytes).length = 16 ∧ (memKeys l.bytes).Nodup) | .error _ => false) = true ∧
    (match translateAt (recordDepth s 0) s 0 0 (2 ^ 40) 64 .read false (some 0) with | .ok c => decide (s.readCause 0 (memKeys c.bytes) = 0) | .error _ => false) = true := by decide +kernel
/-- BOOTCLR of a port that step 8 has taken out of use. -/
theorem witness_BootAndAttestation_clear : let e : BootEntry := { word := 8 + 6 * 2 ^ 8 + 2 ^ 16 + 21 * 2 ^ 64 }; let s : State := { laneS with pkg := { laneS.pkg with bootLog := [e], badPorts := [17], ports := List.range 18 } }
    (e.step = 8 ∧ e.unit = 6 ∧ e.detail = 21) ∧ (8 + 6 * 2 ^ 8 + 21 * 2 ^ 16) % 2 ^ 8 = 8 ∧ s.win.bootstat.toNat % 4 ≠ 0 ∧ 21 - 4 ∈ s.pkg.badPorts ∧ 21 - 4 ∈ s.pkg.ports ∧ s.caps / 2 ^ 26 % 2 ^ 5 < 31 := by decide +kernel
theorem witness_BootAndAttestation_rows : let s : State := { phys := { bootFails := [(4, 1)] } }; s.phys.bootFails = [(4, 1)] ∧ s.phys.part470 = false ∧ s.pkg.bootLog = [] := by decide +kernel
/-- A load of 8 bytes that lie in two lines, asked for and none there. -/
theorem witness_LoadsAndStoresEnd_split : let o : Op := { kind := .load 8 8 false false, items := [{ t := 0, src := (keysFrom o1 4 ++ keysFrom (o1 + 256) 4).map Src.mem }] }
    o.split = true ∧ (flying o).asks 0 (o1 / 128) (5, o) = true ∧ o.cacheLines = [o1 / 128, o1 / 128 + 2] ∧ ∀ x ∈ (flying o).ops, x = (5, o) := by decide +kernel
theorem witness_Contexts_marks : let s := control 0 none [(1, gang0)]; (∀ x ∈ s.strands, s.unmatched x.1 = []) ∧ rising none s.strands = true ∧ rising none s.gangs = true ∧ ∀ x ∈ s.gangs, x.2.hdr.team = false := by decide +kernel

/-! Links that are down; threads that are killed -/

/-- Region 0's record on die 1, whose links are down; an image that a core of die 1 copies to die 0. -/
def cutRegion : State := { regional id [] [] with
  ctxs := [(0, { otbase := 0x10000, otlen := 4, regarea := 0x30000000 })], pkg := { win := { win0 with caps := 0x3FCBFFFFF0 }, badLinks := [0, 1, 2, 3] } }
def postedCut (k : OpKind) : State := { flying { kind := k, data := [zeros 16], core := 136, active := 5 } with
  ctxs := [(0, { otbase := 0x10000, otlen := 4, ftarea := 0x100000, mdarea := 0x200000, regarea := 0x100000 })], pkg := { win := win0, badLinks := [0, 1, 2, 3] } }
theorem witness_Regions_cut : meets (.sctr 0 0 2 0) cutRegion (fun e _ => e.h.rtag == some 0 && (paid e.i e cutRegion).regionCut e.die e.ctx 0 16 40) &&
    meets (.sdis 0) cutRegion (fun e _ => e.h.rtag == some 0 && (paid e.i e cutRegion).regionFails e.die e.ctx 0) = true := by decide +kernel
theorem witness_BanksRecoveryAndClaims_cut : (postedCut (.stbl 7 [1])).sysCut 1 (0x100000 + 14 * 16384) 1 = true ∧ (postedCut (.sld 63 [1])).sysCut 1 (0x200000 + 126 * 98304) 1 = true ∧
    (postedCut (.qset 4)).sysCut 1 (0x100000 + 64 * 4) 64 = true ∧ (bankState (.stbl 7 [1])).sysCut 0 (0x100000 + 14 * 16384) 1 = false := by decide +kernel
/-- Nothing is written, and the strand has a deferred 0xB2 (02 R49, 03 R67). -/
theorem test_posted_cut : ∀ i ∈ [(Instr.stblCopyDone 5, postedCut (.stbl 7 [1])), (.sldCopyDone 5, postedCut (.sld 63 [1])), (.qsetComplete 5, postedCut (.qset 4))],
    leaves [] (exec i.1 i.2) (fun t => (t.strand 0).elim [] fun st => st.deferred.map fun d => (d.fault.cause, d.fault.emask.toNat, decide (t.mem = i.2.mem ∧ t.op 5 = none))) = [(0xB2, 5, true)] := by decide +kernel
/-- A kill of one path's threads leaves the other's run; a kill of all threads of a split with path 1 at its rejoin ends the strand (12 R284, R297). -/
theorem test_kill : ((frozenSplit.killThreads 0 5).strand 0).map (fun st => (st.divided, st.path0.act.toNat, st.path0.pc.toNat)) = some (false, 8, 200) ∧
    (((splitWith id).killThreads 0 2).strand 0).map (fun st => (st.path0.run.isSome, st.path1.ended, st.mode == .running)) = some (true, true, true) ∧
    (((splitWith fun p => { p with arrived := true, run := none }).killThreads 0 0xFFFFFFFF).strand 0).map (fun st => (st.mode == .exiting, st.live.toNat)) = some (true, 0) := by decide +kernel

set_option Elab.async true

end Sys2Proof.Tests
end

section
/-!
PROOFS. The host window: what a write of a register, an access through the aperture and an interrupt record do (00 R14; 16 R386 to R390).
-/

namespace Sys2Proof.Machine

/-! Bits, bytes and writes of several bytes -/

@[simp] theorem bits_from_zero (v n : Nat) : bits v 0 n = v % 2 ^ n := by simp [bits]

theorem bits_one_eq_zero_iff {w : Nat} (x : BitVec w) (i : Nat) : bits x.toNat i 1 = 0 ↔ x.getLsbD i = false := by
  rw [BitVec.getLsbD, Nat.testBit_eq_decide_div_mod_eq, decide_eq_false_iff_not, bits, pow_one]
  omega

theorem leNat_leBytes (n v : Nat) : leNat (leBytes n v) = v % 2 ^ (8 * n) := by
  induction n generalizing v with
  | zero => simp [leBytes, leNat, Nat.mod_one]
  | succ n ih =>
    rw [leBytes, leNat, ih, BitVec.toNat_ofNat, show 2 ^ (8 * (n + 1)) = 256 * 2 ^ (8 * n) by ring, Nat.mod_mul]

/-- Bytes written at keys that differ stand there. -/
theorem map_readByte_writeBytes {ks : List Nat} (hks : ks.Nodup) :
    ∀ {bs : List Byte} (m : List Host.Cell), bs.length = ks.length → ks.map (readByte (writeBytes m ks bs)) = bs := by
  induction ks with
  | nil => intro bs m h; exact (List.eq_nil_of_length_eq_zero h).symm
  | cons k ks ih =>
    rintro (_ | ⟨b, bs⟩) m h
    · simp at h
    obtain ⟨hk, hks⟩ := List.nodup_cons.mp hks
    rw [writeBytes, List.map_cons, ih hks _ (by simpa using h), readByte_writeBytes_other _ _ _ _ hk, readByte_writeByte, if_pos rfl]

theorem sysKeys_nodup {s : State} {p n : Nat} (h : spread s p n) : (sysKeys s p n).Nodup :=
  List.Nodup.map_on (fun a ha b hb => h a b (List.mem_range.mp ha) (List.mem_range.mp hb)) List.nodup_range

/-! What a write does beyond its own register -/

/-- Without counted errors no unit is over its threshold (14 R369). -/
theorem State.overThreshold_of_no_errors {s : State} (h : ∀ d ∈ s.dieSet, (s.die d).errors = []) : s.overThreshold = s := by
  unfold State.overThreshold
  refine List.foldlRecOn (motive := (· = s)) _ _ rfl ?_
  rintro _ rfl d hd
  simp [h d hd]

/-- The cores of a die count their Lantern samples from 0 again (15 R383). -/
def State.clearLanterns (s : State) (d : Nat) : State :=
  (List.range 136).foldl (fun (s : State) c => s.onCore (136 * d + c) fun x => { x with lantern := 0 }) s

theorem foldl_clear_lantern (base : Nat) (cs : List Nat) (s : State) :
    let t := cs.foldl (fun (s : State) c => s.onCore (base + c) fun x => { x with lantern := 0 }) s
    t = { s with cores := t.cores } ∧ t.dies = s.dies ∧ ∀ n, t.core n = if ∃ c ∈ cs, n = base + c then { s.core n with lantern := 0 } else s.core n := by
  induction cs generalizing s with
  | nil => simp
  | cons c cs ih =>
    obtain ⟨hframe, hdies, hcore⟩ := ih (s.onCore (base + c) fun x => { x with lantern := 0 })
    refine ⟨hframe, hdies, fun n => ?_⟩
    rw [List.foldl_cons, hcore, State.onCore, State.core_setCore]
    by_cases hn : n = base + c <;> simp [hn]

theorem State.clearLanterns_frame (s : State) (d : Nat) : s.clearLanterns d = { s with cores := (s.clearLanterns d).cores } :=
  (foldl_clear_lantern (136 * d) (List.range 136) s).1

theorem State.clearLanterns_dies (s : State) (d : Nat) : (s.clearLanterns d).dies = s.dies :=
  (foldl_clear_lantern (136 * d) (List.range 136) s).2.1

theorem State.clearLanterns_die (s : State) (d n : Nat) : (s.clearLanterns d).die n = s.die n := by
  rw [State.die, State.clearLanterns_dies, State.die]

theorem State.clearLanterns_core (s : State) (d n : Nat) :
    (s.clearLanterns d).core n = if n / 136 = d then { s.core n with lantern := 0 } else s.core n := by
  have hmem : (∃ c ∈ List.range 136, n = 136 * d + c) ↔ n / 136 = d := by
    constructor
    · rintro ⟨c, hc, rfl⟩
      have := List.mem_range.mp hc
      omega
    · exact fun h => ⟨n % 136, List.mem_range.mpr (Nat.mod_lt _ (by omega)), by omega⟩
  exact ((foldl_clear_lantern (136 * d) (List.range 136) s).2.2 n).trans (by simp only [hmem])

theorem Core.write_breakpoint (c : Core) {off : Nat} (v : Nat) (h : off < 64) :
    c.write off v = { c with ibp := wr 0 c.ibp (off / 8) (BitVec.ofNat 64 v &&& 0xBFFFFFFFFFFFFFFF) } := by
  simp [Core.write, h, masked]

/-- A write of the register at an offset of a watchpoint's four (15 R377). -/
def Watch.write (x : Watch) (o v : Nat) : Watch :=
  if o = 0 then { x with addr := BitVec.ofNat 64 v } else if o = 8 then { x with value := BitVec.ofNat 64 v }
  else if o = 16 then { x with vmask := BitVec.ofNat 64 v } else { x with ctl := BitVec.ofNat 64 v &&& 0x7FFF }

theorem Core.write_watchpoint (c : Core) {off : Nat} (v : Nat) (hlo : ¬off < 64) (hhi : off < 192) :
    c.write off v = { c with wp := wr {} c.wp ((off - 64) / 32) ((rd {} c.wp ((off - 64) / 32)).write (off % 32) v) } := by
  simp [Core.write, hlo, hhi, masked, Watch.write]

/-- From the debug registers on a write leaves breakpoints and watchpoints as they are. -/
theorem Core.write_debug (c : Core) {off : Nat} (v : Nat) (h : ¬off < 192) : (c.write off v).ibp = c.ibp ∧ (c.write off v).wp = c.wp := by
  unfold Core.write
  rw [if_neg (by omega), if_neg h]
  split_ifs <;> exact ⟨rfl, rfl⟩

/-- The instruction breakpoints after a write of a core's register (15 R376). -/
theorem Core.rd_write_ibp (c : Core) {off : Nat} (v i : Nat) (h8 : off % 8 = 0) :
    rd 0 (c.write off v).ibp i = if off = 8 * i ∧ i < 8 then BitVec.ofNat 64 v &&& 0xBFFFFFFFFFFFFFFF else rd 0 c.ibp i := by
  by_cases hlo : off < 64
  · have hi : i = off / 8 ↔ off = 8 * i ∧ i < 8 := by omega
    simp only [Core.write_breakpoint c v hlo, rd_wr, hi]
  have hibp : (c.write off v).ibp = c.ibp := by
    by_cases hhi : off < 192
    · rw [Core.write_watchpoint c v hlo hhi]
    · exact (Core.write_debug c v hhi).1
  rw [hibp, if_neg (by omega)]

/-- Watchpoint i after a write of the register at an offset of the core's (15 R377). -/
def Watch.written (x : Watch) (i off v : Nat) : Watch :=
  if off = 64 + 32 * i ∧ i < 4 then { x with addr := BitVec.ofNat 64 v }
  else if off = 72 + 32 * i ∧ i < 4 then { x with value := BitVec.ofNat 64 v }
  else if off = 80 + 32 * i ∧ i < 4 then { x with vmask := BitVec.ofNat 64 v }
  else if off = 88 + 32 * i ∧ i < 4 then { x with ctl := BitVec.ofNat 64 v &&& 0x7FFF } else x

theorem Core.rd_write_wp (c : Core) {off : Nat} (v i : Nat) (h8 : off % 8 = 0) :
    rd {} (c.write off v).wp i = (rd {} c.wp i).written i off v := by
  unfold Watch.written
  by_cases hmine : 64 ≤ off ∧ off < 192 ∧ i = (off - 64) / 32
  · obtain ⟨hlo, hhi, hi⟩ := hmine
    have haddr : off = 64 + 32 * i ∧ i < 4 ↔ off % 32 = 0 := by omega
    have hvalue : off = 72 + 32 * i ∧ i < 4 ↔ off % 32 = 8 := by omega
    have hvmask : off = 80 + 32 * i ∧ i < 4 ↔ off % 32 = 16 := by omega
    have hctl (h0 : ¬off % 32 = 0) (h1 : ¬off % 32 = 8) (h2 : ¬off % 32 = 16) : off = 88 + 32 * i ∧ i < 4 := by omega
    rw [Core.write_watchpoint c v (by omega) hhi, ← hi, rd_wr_same]
    simp only [haddr, hvalue, hvmask, Watch.write]
    split_ifs with h0 h1 h2 h3
    · rfl
    · rfl
    · rfl
    · rfl
    · exact absurd (hctl h0 h1 h2) h3
  · have hwp : rd {} (c.write off v).wp i = rd {} c.wp i := by
      by_cases hlo : off < 64
      · rw [Core.write_breakpoint c v hlo]
      by_cases hhi : off < 192
      · rw [Core.write_watchpoint c v hlo hhi, rd_wr, if_neg (by omega)]
      · rw [(Core.write_debug c v hhi).2]
    rw [hwp, if_neg (by omega), if_neg (by omega), if_neg (by omega), if_neg (by omega)]

/-- Below the debug registers a write changes breakpoints and watchpoints alone. -/
theorem Core.write_points (c : Core) {off : Nat} (v : Nat) (h : off < 192) :
    c.write off v = { c with ibp := (c.write off v).ibp, wp := (c.write off v).wp } := by
  unfold Core.write
  split_ifs <;> rfl

/-! What a write of a die's and of a core's register leaves -/

/-- What a write of a die's register other than LANTERN leaves: the die is x, every other die stays (13 R321, 15 R380). -/
def DieWritten (s : State) (off value d : Nat) (x : Die) : Prop :=
  ∃ t, exec (.registerWrite (0x200 + 64 * d + off) 8 value) s = .next t ∧ t = { s with dies := t.dies } ∧ t.die d = x ∧ ∀ y, y ≠ d → t.die y = s.die y

/-- What a write of a core's register leaves: the core is x but for its breakpoints and watchpoints, of which the one that the offset names
takes the value; every other core stays (15 R376, R377). -/
def CoreWritten (s : State) (off value n : Nat) (x : Core) : Prop :=
  ∃ t, exec (.registerWrite (0x100000 + 512 * n + off) 8 value) s = .next t ∧ t = { s with cores := t.cores } ∧
    t.core n = { x with ibp := (t.core n).ibp, wp := (t.core n).wp } ∧
    (∀ i, rd 0 (t.core n).ibp i = if off = 8 * i ∧ i < 8 then BitVec.ofNat 64 value &&& 0xBFFFFFFFFFFFFFFF else rd 0 x.ibp i) ∧
    (∀ i, rd {} (t.core n).wp i = (rd {} x.wp i).written i off value) ∧ ∀ m, m ≠ n → t.core m = s.core m

/-! Writes of registers: which part of the machine an offset names (16 R387) -/

theorem exec_registerWrite (off size value : Nat) (s : State) : exec (.registerWrite off size value) s = execRegisterWrite off size value s := rfl

theorem registerWrite_ignored {s : State} {off size : Nat} (value : Nat) (h : s.booted = false ∨ size ≠ 8 ∨ off % 8 ≠ 0) :
    exec (.registerWrite off size value) s = .next s := by
  rw [exec_registerWrite, execRegisterWrite, if_pos]
  rcases h with h | h | h <;> simp [h]

section
variable {s : State} {value : Nat} (hb : s.booted = true) (hv : value < 2 ^ 64)
include hb hv

/-- Nothing stops an aligned write of 8 bytes after READY but the register that it names. -/
theorem registerWrite_taken {off : Nat} (h8 : off % 8 = 0) : ¬ (!s.booted || (8 : Nat) != 8 || off % 8 != 0 || decide (2 ^ 64 ≤ value)) = true := by
  simpa [hb, h8] using hv

theorem registerWrite_window {off : Nat} (h8 : off % 8 = 0) (hoff : off < 0x200) (hne : off ≠ 0x30) :
    exec (.registerWrite off 8 value) s = .next (withWin s (s.win.write off value)) := by
  rw [exec_registerWrite, execRegisterWrite, if_neg (registerWrite_taken hb hv h8), if_pos hoff]
  simp only [hne, if_false]
  rfl

/-- RASCFG sets the threshold of counted errors: without any, nothing follows (14 R369). -/
theorem registerWrite_rascfg (herr : ∀ d ∈ s.dieSet, (s.die d).errors = []) :
    exec (.registerWrite 0x30 8 value) s = .next (withWin s (s.win.write 0x30 value)) := by
  rw [exec_registerWrite, execRegisterWrite, if_neg (registerWrite_taken hb hv rfl), if_pos (by decide)]
  have hwrite : (s.onWin fun w => w.write 0x30 value).overThreshold = s.onWin fun w => w.write 0x30 value :=
    State.overThreshold_of_no_errors fun d hd => herr d hd
  simp only [if_true, hwrite]
  rfl

/-- An aligned write to the window of dies names the register at off of die d. -/
theorem registerWrite_die {d off : Nat} (hd : d < 4) (h8 : off % 8 = 0) (hoff : off < 64) (hp : s.diePresent d = true) (h40 : off ≠ 40) :
    exec (.registerWrite (0x200 + 64 * d + off) 8 value) s = .next (s.setDie d ((s.die d).write off value)) := by
  have hdie : (0x200 + 64 * d + off - 0x200) / 64 = d := by omega
  have hreg : (0x200 + 64 * d + off) % 64 = off := by omega
  rw [exec_registerWrite, execRegisterWrite, if_neg (registerWrite_taken hb hv (by omega)), if_neg (by omega), if_pos (by omega)]
  simp only [hdie, hreg, hp, h40, Bool.not_true, Bool.false_eq_true, false_and, if_false]

theorem registerWrite_lantern {d : Nat} (hd : d < 4) (hp : s.diePresent d = true) :
    exec (.registerWrite (0x200 + 64 * d + 40) 8 value) s = .next (
      if (s.die d).lantern.toNat % 2 ≠ value % 2 then (s.setDie d ((s.die d).write 40 value)).clearLanterns d
      else s.setDie d ((s.die d).write 40 value)) := by
  have hdie : (0x200 + 64 * d + 40 - 0x200) / 64 = d := by omega
  have hreg : (0x200 + 64 * d + 40) % 64 = 40 := by omega
  rw [exec_registerWrite, execRegisterWrite, if_neg (registerWrite_taken hb hv (by omega)), if_neg (by omega), if_pos (by omega)]
  simp only [hdie, hreg, hp, Bool.not_true, Bool.false_eq_true, if_false, true_and, bits_from_zero, pow_one]
  rfl

theorem registerWrite_absentDie {d off : Nat} (hd : d < 4) (hoff : off < 8) (hp : s.diePresent d = false) :
    exec (.registerWrite (0x200 + 64 * d + 8 * off) 8 value) s = .next s := by
  have hdie : (0x200 + 64 * d + 8 * off - 0x200) / 64 = d := by omega
  rw [exec_registerWrite, execRegisterWrite, if_neg (registerWrite_taken hb hv (by omega)), if_neg (by omega), if_pos (by omega)]
  simp [hdie, hp]

theorem registerWrite_peak {d q : Nat} (hd : d < 4) (hq : q < 34) (hp : s.diePresent d = true) :
    exec (.registerWrite (0x1000 + 8 * (34 * d + q)) 8 value) s =
      .next (s.setQuad (34 * d + q) { s.quad (34 * d + q) with peak := BitVec.ofNat 8 (bits value 24 8) }) := by
  have hquad : (0x1000 + 8 * (34 * d + q) - 0x1000) / 8 = 34 * d + q := by omega
  have hdie : (34 * d + q) / 34 = d := by omega
  rw [exec_registerWrite, execRegisterWrite, if_neg (registerWrite_taken hb hv (by omega)), if_neg (by omega), if_neg (by omega), if_pos (by omega)]
  simp only [hquad, hdie, hp, if_true]

theorem registerWrite_core {d c off : Nat} (hd : d < 4) (hc : c < 136) (h8 : off % 8 = 0) (hoff : off < 512) (hp : s.diePresent d = true) :
    exec (.registerWrite (0x100000 + 512 * (136 * d + c) + off) 8 value) s = .next (s.onCore (136 * d + c) fun x => x.write off value) := by
  have hcore : (0x100000 + 512 * (136 * d + c) + off - 0x100000) / 512 = 136 * d + c := by omega
  have hreg : (0x100000 + 512 * (136 * d + c) + off) % 512 = off := by omega
  have hdie : (136 * d + c) / 136 = d := by omega
  rw [exec_registerWrite, execRegisterWrite, if_neg (registerWrite_taken hb hv (by omega)), if_neg (by omega), if_neg (by omega), if_neg (by omega),
    if_neg (by omega), if_pos (by omega)]
  simp only [hcore, hreg, hdie, hp, if_true]

/-- A write of a core's register is told by what it does beside breakpoints and watchpoints. -/
theorem coreWritten {d c off : Nat} {x : Core} (hd : d < 4) (hp : s.diePresent d = true) (hc : c < 136) (h8 : off % 8 = 0) (hoff : off < 512)
    (hx : (s.core (136 * d + c)).write off value =
      { x with ibp := ((s.core (136 * d + c)).write off value).ibp, wp := ((s.core (136 * d + c)).write off value).wp })
    (hibp : x.ibp = (s.core (136 * d + c)).ibp) (hwp : x.wp = (s.core (136 * d + c)).wp) : CoreWritten s off value (136 * d + c) x := by
  refine ⟨_, registerWrite_core hb hv hd hc h8 hoff hp, rfl, ?_⟩
  rw [State.onCore, State.core_setCore_same, hibp, hwp]
  exact ⟨hx, fun i => Core.rd_write_ibp _ value i h8, fun i => Core.rd_write_wp _ value i h8, fun m hm => by rw [State.core_setCore, if_neg hm]⟩

theorem coreWritten_point {d c off : Nat} (hd : d < 4) (hp : s.diePresent d = true) (hc : c < 136) (h8 : off % 8 = 0) (hoff : off < 192) :
    CoreWritten s off value (136 * d + c) (s.core (136 * d + c)) :=
  coreWritten hb hv hd hp hc h8 (by omega) (Core.write_points _ value hoff) rfl rfl

theorem coreWritten_debug {d c : Nat} (hd : d < 4) (hp : s.diePresent d = true) (hc : c < 136) :
    let x := s.core (136 * d + c)
    let v := BitVec.ofNat 64 value
    CoreWritten s 192 value (136 * d + c) { x with dbgctl := v &&& 7 } ∧ CoreWritten s 200 value (136 * d + c) { x with dbgstat := x.dbgstat &&& ~~~v } ∧
      CoreWritten s 208 value (136 * d + c) { x with evc0 := v } ∧ CoreWritten s 216 value (136 * d + c) { x with evc1 := v &&& 0xFFFFFFFF } := by
  refine ⟨?_, ?_, ?_, ?_⟩ <;> exact coreWritten hb hv hd hp hc rfl (by decide) (by simp [Core.write, masked]) rfl rfl

theorem dieWritten {d off : Nat} {x : Die} (hd : d < 4) (hp : s.diePresent d = true) (hx : (s.die d).write off value = x)
    (hoff : off % 8 = 0 ∧ off < 64 ∧ off ≠ 40 := by decide) : DieWritten s off value d x := by
  obtain ⟨h8, hlt, h40⟩ := hoff
  refine ⟨_, registerWrite_die hb hv hd h8 hlt hp h40, rfl, ?_, fun y hy => ?_⟩
  · rw [State.die_setDie_same, hx]
  · rw [State.die_setDie, if_neg hy]

/-- A write of LANTERN: a change of EN sets the counts of the die's cores to 0 (15 R383). -/
theorem lanternWritten {d : Nat} (hd : d < 4) (hp : s.diePresent d = true) :
    ∃ t, exec (.registerWrite (0x200 + 64 * d + 40) 8 value) s = .next t ∧ t = { s with dies := t.dies, cores := t.cores } ∧
      (∀ y, y ≠ d → t.die y = s.die y) ∧
      t.die d = { s.die d with lantern := ((s.die d).lantern &&& 0xFFF0000000000000) ||| (BitVec.ofNat 64 value &&& 0xFFFFFFFFFFFFF) } ∧
      ∀ c, t.core c = if c / 136 = d ∧ (s.die d).lantern.toNat % 2 ≠ value % 2 then { s.core c with lantern := 0 } else s.core c := by
  have hx : (s.die d).write 40 value =
      { s.die d with lantern := ((s.die d).lantern &&& 0xFFF0000000000000) ||| (BitVec.ofNat 64 value &&& 0xFFFFFFFFFFFFF) } := by
    simp [Die.write, masked]
  have hother (y : Nat) (hy : y ≠ d) : (s.setDie d ((s.die d).write 40 value)).die y = s.die y := by rw [State.die_setDie, if_neg hy]
  have hmine : (s.setDie d ((s.die d).write 40 value)).die d = _ := (State.die_setDie_same _ _ _).trans hx
  rw [registerWrite_lantern hb hv hd hp]
  by_cases hen : (s.die d).lantern.toNat % 2 ≠ value % 2
  · rw [if_pos hen]
    refine ⟨_, rfl, ?_, ?_, ?_, fun c => ?_⟩
    · exact (State.clearLanterns_frame _ d).trans (by rw [State.clearLanterns_dies]; rfl)
    · simpa only [State.clearLanterns_die] using hother
    · rw [State.clearLanterns_die, hmine]
    · rw [State.clearLanterns_core]; simp only [ne_eq, hen, not_false_eq_true, and_true]; rfl
  · rw [if_neg hen]
    exact ⟨_, rfl, rfl, hother, hmine, fun c => (if_neg fun h => hen h.2).symm⟩

/-- PEAK takes the value's bits [31:24] (16 R395; log 78, DEDUCED). -/
theorem peakWritten {d q : Nat} (hd : d < 4) (hp : s.diePresent d = true) (hq : q < 34) :
    ∃ t, exec (.registerWrite (0x1000 + 8 * (34 * d + q)) 8 value) s = .next t ∧ t = { s with quads := t.quads } ∧
      OnlyQuad s t (34 * d + q) { s.quad (34 * d + q) with peak := BitVec.ofNat 8 (value / 2 ^ 24) } := by
  have hpeak : BitVec.ofNat 8 (bits value 24 8) = BitVec.ofNat 8 (value / 2 ^ 24) := by simp [bits, ← BitVec.toNat_inj]
  refine ⟨_, registerWrite_peak hb hv hd hq hp, rfl, ?_, fun p hne => ?_⟩
  · rw [State.quad_setQuad_same, hpeak]
  · rw [State.quad_setQuad, if_neg hne]

/-- A package register that no event of its own takes is written by its access type (16 R387). -/
theorem windowWritten {off : Nat} {w : Window} (hw : s.win.write off value = w) (hoff : off % 8 = 0 ∧ off < 0x200 ∧ off ≠ 0x30 := by decide) :
    exec (.registerWrite off 8 value) s = .next (withWin s w) := by
  obtain ⟨h8, hlt, hne⟩ := hoff
  rw [registerWrite_window hb hv h8 hlt hne, hw]

end

/-! Fields that the window clamps -/

/-- A value that lies in the mask goes into the register as it is. -/
theorem masked_of_and_eq (old : Dword) {keep : Dword} {mask v : Nat} (hkeep : ~~~(BitVec.ofNat 64 mask) = keep) (h : v &&& mask = v) :
    masked old mask v = (old &&& keep) ||| BitVec.ofNat 64 v := by
  rw [masked, hkeep, ← BitVec.ofNat_and, h]

/-- Two fields, one of 5 bits and one of 10 bits from bit 16 on, lie in the mask of both. -/
theorem fields_and_mask {a b : Nat} (ha : a < 2 ^ 5) (hb : b < 2 ^ 10) : a + 2 ^ 16 * b &&& 0x3FF001F = a + 2 ^ 16 * b := by
  have hhigh : (a + 2 ^ 16 * b &&& 0x3FF001F) / 2 ^ 16 = b := by
    rw [Nat.and_div_two_pow, show (a + 2 ^ 16 * b) / 2 ^ 16 = b by omega]
    exact Nat.and_two_pow_sub_one_of_lt_two_pow hb
  have hlow : (a + 2 ^ 16 * b &&& 0x3FF001F) % 2 ^ 16 = a := by
    rw [Nat.and_mod_two_pow, show (a + 2 ^ 16 * b) % 2 ^ 16 = a by omega]
    exact Nat.and_two_pow_sub_one_of_lt_two_pow ha
  omega

theorem Window.write_pwrctl (w : Window) (v : Nat) :
    w.write 0x20 v = { w with pwrctl := (w.pwrctl &&& 0xFFFFFFFFFFFFF000) ||| BitVec.ofNat 64 (max 1000 (min 3400 (v % 2 ^ 12))) } := by
  have hfield : max 1000 (min 3400 (v % 2 ^ 12)) &&& 0xFFF = max 1000 (min 3400 (v % 2 ^ 12)) := Nat.and_two_pow_sub_one_of_lt_two_pow (n := 12) (by omega)
  rw [← masked_of_and_eq w.pwrctl (keep := 0xFFFFFFFFFFFFF000) rfl hfield]
  simp [Window.write, clampNat]

theorem Window.write_stealctl (w : Window) (v : Nat) :
    w.write 0x38 v = { w with stealctl := (w.stealctl &&& 0xFFFFFFFFFFFFFFC0) ||| BitVec.ofNat 64 (max 8 (v % 2 ^ 5) + 32 * (v / 2 ^ 5 % 2)) } := by
  have hfield : max 8 (v % 2 ^ 5) + 32 * (v / 2 ^ 5 % 2) &&& 0x3F = max 8 (v % 2 ^ 5) + 32 * (v / 2 ^ 5 % 2) := Nat.and_two_pow_sub_one_of_lt_two_pow (n := 6) (by omega)
  rw [← masked_of_and_eq w.stealctl (keep := 0xFFFFFFFFFFFFFFC0) rfl hfield]
  simp [Window.write, bits]

theorem Window.write_rpctl (w : Window) (v : Nat) :
    w.write 0xC0 v = { w with rpctl := (w.rpctl &&& 0xFFFFFFFFFC00FFE0) ||| BitVec.ofNat 64 (max 10 (min 30 (v % 2 ^ 5)) + 2 ^ 16 * (v / 2 ^ 16 % 2 ^ 10)) } := by
  have hfield := fields_and_mask (a := max 10 (min 30 (v % 2 ^ 5))) (b := v / 2 ^ 16 % 2 ^ 10) (by omega) (by omega)
  rw [← masked_of_and_eq w.rpctl (keep := 0xFFFFFFFFFC00FFE0) rfl hfield]
  simp [Window.write, bits, clampNat]

/-! The aperture (16 R386) -/

theorem exec_apertureAccess (write addr size data : Nat) (s : State) :
    exec (.apertureAccess write addr size data) s = execApertureAccess write addr size data s := rfl

theorem apertureAccess_read (s : State) {addr size : Nat} (data : Nat) (h : addr + size ≤ 2 ^ 36) :
    exec (.apertureAccess 0 addr size data) s = .next { s with pkg := { s.pkg with hostData := apertureRead s addr size } } := by
  rw [exec_apertureAccess, execApertureAccess, if_neg (Nat.not_lt.mpr h), if_pos rfl]
  rfl

theorem apertureRead_unbooted {s : State} (addr size : Nat) (hb : s.booted = false) : apertureRead s addr size = List.replicate size 0 := by
  simp [apertureRead, hb, zeros]

theorem apertureRead_inside {s : State} {addr size : Nat} (hb : s.booted = true) (h : s.win.apbase.toNat + addr + size ≤ spaceSize s s.sysPlace) :
    apertureRead s addr size = (List.range size).map fun i => readByte s.mem (s.sysKey (s.win.apbase.toNat + addr + i)) := by
  have hroom : size ≤ spaceSize s s.sysPlace - (s.win.apbase.toNat + addr) := by omega
  simp [apertureRead, hb, Nat.min_eq_left hroom, Nat.sub_eq_zero_of_le hroom, State.sysRead, zeros]

theorem apertureRead_past {s : State} {addr : Nat} (size : Nat) (hb : s.booted = true) (h : spaceSize s s.sysPlace ≤ s.win.apbase.toNat + addr) :
    apertureRead s addr size = List.replicate size 0 := by
  simp [apertureRead, hb, Nat.sub_eq_zero_of_le h, State.sysRead, zeros]

theorem apertureWrite_unbooted {s : State} {addr size : Nat} (data : Nat) (h : addr + size ≤ 2 ^ 36) (hb : s.booted = false) :
    exec (.apertureAccess 1 addr size data) s = .next s := by
  rw [exec_apertureAccess, execApertureAccess, if_neg (Nat.not_lt.mpr h), if_neg (by decide), if_pos (by simp [hb])]

theorem apertureWrite_inside {s : State} {addr size : Nat} (data : Nat) (hb : s.booted = true) (h : addr + size ≤ 2 ^ 36)
    (hin : s.win.apbase.toNat + addr + size ≤ spaceSize s s.sysPlace) :
    exec (.apertureAccess 1 addr size data) s = .next (s.sysWrite (s.win.apbase.toNat + addr) (leBytes size data)) := by
  have hroom : size ≤ spaceSize s s.sysPlace - (s.win.apbase.toNat + addr) := by omega
  rw [exec_apertureAccess, execApertureAccess, if_neg (Nat.not_lt.mpr h), if_neg (by decide), if_neg (by simp [hb])]
  simp only [Nat.min_eq_left hroom]

theorem sysNat_sysWrite {s : State} {p n : Nat} (v : Nat) (h : spread s p n) : (s.sysWrite p (leBytes n v)).sysNat p n = v % 2 ^ (8 * n) := by
  have hread : (s.sysWrite p (leBytes n v)).sysRead p n = (sysKeys s p n).map (readByte (writeBytes s.mem (sysKeys s p n) (leBytes n v))) := by
    simp only [State.sysRead, State.sysWrite, leBytes_length, sysKeys, List.map_map]
    rfl
  rw [State.sysNat, hread, map_readByte_writeBytes (sysKeys_nodup h) _ (by simp [leBytes_length, sysKeys]), leNat_leBytes]

theorem onlyBytes_sysWrite (s : State) (p n v : Nat) : OnlyBytes s (s.sysWrite p (leBytes n v)) (sysKeys s p n) := by
  intro k hk
  refine readByte_writeBytes_other _ _ _ _ ?_
  rwa [leBytes_length]

/-! Interrupt records (16 R388) -/

theorem postInterrupt_disabled {s : State} {kind : Nat} (ctx info data : Nat)
    (h : s.win.intcfg.getLsbD (16 + kind) = false ∨ s.win.intcfg.toNat % 2 ^ 16 = 0) : s.postInterrupt kind ctx info data = s := by
  unfold State.postInterrupt
  rw [if_pos]
  rwa [bits_one_eq_zero_iff, Window.intCap, bits_from_zero]

theorem postInterrupt_waits {s : State} {kind : Nat} (ctx info data : Nat) (hkind : s.win.intcfg.getLsbD (16 + kind) = true)
    (hcap : 0 < s.win.intcfg.toNat % 2 ^ 16) (hlen : s.pkg.intWait.length < 256) :
    s.postInterrupt kind ctx info data =
      { s with pkg := { s.pkg with intWait := s.pkg.intWait ++ [interruptRecord kind ctx info data (dieCycle 0 s.now)] } } := by
  have hon : ¬(bits s.win.intcfg.toNat (16 + kind) 1 = 0 ∨ s.win.intCap = 0) := by
    rw [bits_one_eq_zero_iff, Window.intCap, bits_from_zero, hkind]
    simpa using hcap.ne'
  unfold State.postInterrupt
  rw [if_neg hon, if_neg (by omega)]
  rfl

theorem exec_interruptRecordAppend (s : State) : exec .interruptRecordAppend s = execInterruptRecordAppend s := rfl

theorem fieldAt_byte (bs : List Byte) (o : Nat) : fieldAt bs o 1 = (bs.getD o 0).toNat := by
  rw [fieldAt, List.take_one, List.head?_drop, List.getD_eq_getElem?_getD]
  cases bs[o]? <;> simp [leNat]

theorem vectorOf_eq (r : List Byte) :
    vectorOf r = if (r.getD 0 0).toNat = 6 ∨ (r.getD 0 0).toNat = 7 then 64 else (r.getD 1 0).toNat % 64 := by
  simp only [vectorOf, fieldAt_byte, bits_from_zero]
  rfl

/-- Where the ring's next record goes. -/
def Window.ringKeys (w : Window) : List Nat :=
  (List.range 32).map fun i => hostKey (w.intbase.toNat + 32 * (w.inttail.toNat % (w.intcfg.toNat % 2 ^ 16)) + i)

theorem Window.ringKeys_eq (w : Window) : w.ringKeys = keysFrom (hostKey (w.intbase.toNat + 32 * (w.inttail.toNat % w.intCap))) 32 := by
  simp only [Window.ringKeys, keysFrom, hostKey, Window.intCap, bits_from_zero, Nat.add_assoc]

theorem Window.ringKeys_nodup (w : Window) : w.ringKeys.Nodup :=
  List.Nodup.map_on (fun a _ b _ hab => by simp only [hostKey] at hab; omega) List.nodup_range

/-- The oldest record goes to the ring while it has room. -/
theorem interruptRecordAppend_eq {s : State} {r : List Byte} {rest : List (List Byte)} (hwait : s.pkg.intWait = r :: rest)
    (hcap : 0 < s.win.intcfg.toNat % 2 ^ 16) (hroom : (s.win.inttail - s.win.inthead).toNat < s.win.intcfg.toNat % 2 ^ 16) :
    exec .interruptRecordAppend s = .next { s with
      mem := writeBytes s.mem s.win.ringKeys r
      pkg := { s.pkg with
        intWait := rest, win := { s.win with inttail := s.win.inttail + 1 }
        signals := wr 0 s.pkg.signals (vectorOf r) (rd 0 s.pkg.signals (vectorOf r) + 1) } } := by
  have hopen : ¬(s.win.intCap = 0 ∨ s.win.intRoom = 0) := by
    rw [Window.intRoom, Window.intCap, bits_from_zero]
    omega
  rw [exec_interruptRecordAppend, execInterruptRecordAppend, Window.ringKeys_eq]
  simp only [hwait, if_neg hopen]
  rfl

/-! The statement -/

/-- Settles O52, a clause for each part of the window: which part of the machine an offset names and what its write leaves, the aperture,
and interrupt records on their way to the ring. -/
theorem hostWindow : Obligations.HostWindow := by
  unfold Obligations.HostWindow
  intro s
  refine ⟨fun off size value h => registerWrite_ignored value h, fun hb value hv => ?_, fun addr size data h => ?_, fun kind ctx info data _ => ?_,
    fun r rest hwait hlen hcap hroom => ?_⟩
  · refine ⟨?readOnly, ?_, ?_, windowWritten hb hv (Window.write_pwrctl _ _), windowWritten hb hv (Window.write_stealctl _ _), ?_,
      windowWritten hb hv (Window.write_rpctl _ _), fun herr => ?rascfg, ?_, ?_, ?_, ?_, ?_, ?_, ?_, ?_, ?_, ?_, fun d hd hp => ?die,
      fun d off hd hp hoff => registerWrite_absentDie hb hv hd hoff hp⟩
    case readOnly => rintro off (rfl | rfl | rfl | rfl) <;> exact windowWritten hb hv rfl
    case rascfg => exact (registerWrite_rascfg hb hv herr).trans (by simp [Window.write, masked])
    case die =>
      refine ⟨dieWritten hb hv hd hp rfl, dieWritten hb hv hd hp (by simp [Die.write, masked]), dieWritten hb hv hd hp rfl, dieWritten hb hv hd hp rfl,
        dieWritten hb hv hd hp rfl, lanternWritten hb hv hd hp, fun q hq => peakWritten hb hv hd hp hq, fun c hc => ⟨fun i hi => ?_, fun i hi => ?_,
        coreWritten_debug hb hv hd hp hc⟩⟩
      · exact coreWritten_point hb hv hd hp hc (by omega) (by omega)
      · exact ⟨coreWritten_point hb hv hd hp hc (by omega) (by omega), coreWritten_point hb hv hd hp hc (by omega) (by omega),
          coreWritten_point hb hv hd hp hc (by omega) (by omega), coreWritten_point hb hv hd hp hc (by omega) (by omega)⟩
    all_goals exact windowWritten hb hv (by simp [Window.write, masked])
  · refine ⟨fun hb => ⟨?_, apertureWrite_unbooted data h hb⟩, fun hb hin => ?_, fun hb hpast => ?_, fun hb hin hspread => ?_⟩
    · rw [apertureAccess_read s data h, apertureRead_unbooted addr size hb]
    · rw [apertureAccess_read s data h, apertureRead_inside hb hin]
    · rw [apertureAccess_read s data h, apertureRead_past size hb hpast]
    · exact ⟨_, apertureWrite_inside data hb h hin, rfl, sysNat_sysWrite data hspread, onlyBytes_sysWrite s _ size data⟩
  · exact ⟨postInterrupt_disabled ctx info data, postInterrupt_waits ctx info data⟩
  · refine ⟨_, interruptRecordAppend_eq hwait hcap hroom, rfl, fun n => ?_,
      map_readByte_writeBytes s.win.ringKeys_nodup _ (by simp [hlen, Window.ringKeys]), fun k hk => readByte_writeBytes_other _ _ _ _ hk⟩
    rw [rd_wr, ← vectorOf_eq]
    by_cases hn : n = vectorOf r <;> simp [hn]

end Sys2Proof.Machine
end

section
/-!
PROOFS. Fields of the 64-bit registers, finite tables, and the end of an operation: facts that the publishes, the ports and the soft errors share.
-/

namespace Sys2Proof.Machine

/-! Fields of a register of 64 bits: `putBits` counts in naturals, the spec's registers are words -/

/-- The register with x in the n bits from lo on. -/
def withField (w : Dword) (lo n x : Nat) : Dword := (w &&& ~~~(BitVec.ofNat 64 (2 ^ n - 1) <<< lo)) ||| (BitVec.ofNat 64 (x % 2 ^ n) <<< lo)

theorem testBit_putBits (v lo n x i : Nat) : (putBits v lo n x).testBit i = if lo ≤ i ∧ i < lo + n then x.testBit (i - lo) else v.testBit i := by
  have hsplit : putBits v lo n x = 2 ^ lo * (2 ^ n * (v / 2 ^ lo / 2 ^ n) + x % 2 ^ n) + v % 2 ^ lo := by
    have h1 := Nat.div_add_mod v (2 ^ lo)
    have h2 := Nat.div_add_mod (v / 2 ^ lo) (2 ^ n)
    have hv : v = 2 ^ lo * (2 ^ n * (v / 2 ^ lo / 2 ^ n)) + 2 ^ lo * (v / 2 ^ lo % 2 ^ n) + v % 2 ^ lo := by rw [← mul_add, h2, h1]
    unfold putBits bits
    rw [mul_comm (v / 2 ^ lo % 2 ^ n), mul_comm (x % 2 ^ n), mul_add]
    omega
  rw [hsplit, Nat.testBit_two_pow_mul_add _ (Nat.mod_lt _ (Nat.two_pow_pos lo)), Nat.testBit_two_pow_mul_add _ (Nat.mod_lt _ (Nat.two_pow_pos n))]
  by_cases hlo : i < lo
  · rw [if_pos hlo, if_neg (by omega), Nat.testBit_mod_two_pow]
    simp [hlo]
  by_cases hhi : i < lo + n
  · rw [if_neg hlo, if_pos (by omega), if_pos (by omega), Nat.testBit_mod_two_pow]
    simp [show i - lo < n by omega]
  · rw [if_neg hlo, if_neg (by omega), if_neg (by omega), Nat.testBit_div_two_pow, Nat.testBit_div_two_pow]
    congr 1
    omega

theorem putBits_toNat (w : Dword) {lo n : Nat} (x : Nat) (h : lo + n ≤ 64) : putBits w.toNat lo n x = (withField w lo n x).toNat := by
  refine Nat.eq_of_testBit_eq fun i => ?_
  rw [testBit_putBits, BitVec.testBit_toNat, BitVec.testBit_toNat, withField]
  by_cases hi : i < 64
  · have hget (m k : Nat) (hk : k < 64) : (BitVec.ofNat 64 m)[k] = m.testBit k := by
      rw [BitVec.getElem_eq_testBit_toNat, BitVec.toNat_ofNat, Nat.testBit_mod_two_pow]
      simp [hk]
    by_cases hlo : i < lo
    · simp [hi, hlo]
    have hle : lo ≤ i := by omega
    by_cases hhi : i < lo + n
    · simp [hi, hlo, hhi, hle, show i - lo < n by omega, hget]
    · simp [hi, hlo, hhi, show ¬ i - lo < n by omega, hget]
  · rw [BitVec.getLsbD_of_ge _ _ (by omega), BitVec.getLsbD_of_ge _ _ (by omega), if_neg (by omega)]

theorem ofNat_putBits (w : Dword) {lo n : Nat} (x : Nat) (h : lo + n ≤ 64) : BitVec.ofNat 64 (putBits w.toNat lo n x) = withField w lo n x := by
  rw [putBits_toNat w x h, BitVec.ofNat_toNat, BitVec.setWidth_eq]

theorem and_or_and_or (w m₁ c₁ m₂ c₂ : Dword) : ((w &&& m₁) ||| c₁) &&& m₂ ||| c₂ = (w &&& (m₁ &&& m₂)) ||| ((c₁ &&& m₂) ||| c₂) := by
  rw [BitVec.and_or_distrib_right, BitVec.and_assoc, BitVec.or_assoc]

/-- Of the bits that are kept, those that are then set do not matter. -/
theorem and_or_congr {m m' c c' : Dword} (hm : m ||| c = m' ||| c) (hc : c = c') (w : Dword) : (w &&& m) ||| c = (w &&& m') ||| c' := by
  subst hc
  refine BitVec.eq_of_getLsbD_eq fun i hi => ?_
  have hbit : (m.getLsbD i || c.getLsbD i) = (m'.getLsbD i || c.getLsbD i) := by rw [← BitVec.getLsbD_or, hm, BitVec.getLsbD_or]
  rw [BitVec.getLsbD_or, BitVec.getLsbD_or, BitVec.getLsbD_and, BitVec.getLsbD_and]
  cases hw : w.getLsbD i
  · simp
  · simpa using hbit

/-- OPSTAT of a rejected request for the reason 3 (01 R36): neither busy nor done, REJ and REJWHY are set. -/
theorem opstat_reject (w : Dword) :
    BitVec.ofNat 64 (putBits (putBits (putBits w.toNat 0 1 0) 3 1 1) 5 3 3) = (w &&& ~~~0xE9#64) ||| 0x68#64 := by
  rw [putBits_toNat w 0 (by decide), putBits_toNat _ 1 (by decide), ofNat_putBits _ 3 (by decide)]
  simp only [withField, and_or_and_or]
  exact and_or_congr (by decide) (by decide) w

/-- OPSTAT of a completed request (01 R36): it is not busy, and DONE is set. -/
theorem opstat_done (w : Dword) : BitVec.ofNat 64 (putBits (putBits w.toNat 0 1 0) 1 1 1) = (w &&& ~~~3#64) ||| 2#64 := by
  rw [putBits_toNat w 0 (by decide), ofNat_putBits _ 1 (by decide)]
  simp only [withField, and_or_and_or]
  exact and_or_congr (by decide) (by decide) w

/-- OPSTAT of a request that the port takes (01 R36): it is busy, and REJWHY is clear. -/
theorem opstat_taken (w : Dword) : BitVec.ofNat 64 (putBits (putBits w.toNat 0 1 1) 5 3 0) = (w &&& ~~~0xE0#64) ||| 1#64 := by
  rw [putBits_toNat w 1 (by decide), ofNat_putBits _ 0 (by decide)]
  simp only [withField, and_or_and_or]
  exact and_or_congr (by decide) (by decide) w

/-- A bit that is set. -/
theorem ofNat_putBits_one (w : Dword) {i : Nat} (h : i < 64) : BitVec.ofNat 64 (putBits w.toNat i 1 1) = w ||| (1#64 <<< i) := by
  rw [ofNat_putBits w 1 (by omega)]
  refine (and_or_congr (m' := BitVec.allOnes 64) ?_ rfl w).trans (by rw [BitVec.and_allOnes]; rfl)
  refine BitVec.eq_of_getLsbD_eq fun j hj => ?_
  simp [hj, -BitVec.reduceAllOnes]

theorem bits_one_eq_one {w : Nat} {x : BitVec w} {i : Nat} (h : x.getLsbD i = true) : bits x.toNat i 1 = 1 := by
  have hne : bits x.toNat i 1 ≠ 0 := fun h0 => by simp [(bits_one_eq_zero_iff x i).mp h0] at h
  have hlt : bits x.toNat i 1 < 2 := Nat.mod_lt _ (by decide)
  omega

/-! Finite tables -/

theorem look_filter {α : Type} (p : Nat → Bool) (m : Tab α) (a : Nat) : look (m.filter fun e => p e.1) a = if p a then look m a else none := by
  induction m with
  | nil => simp [look]
  | cons e m ih =>
    obtain ⟨k, v⟩ := e
    by_cases ha : a = k
    · subst ha
      cases hp : p a <;> simp_all [look]
    · cases hp : p k <;> simp [look, hp, ha, ih]

theorem lt_of_mem_rising {α : Type} {m : Tab α} {lo : Nat} (h : rising (some lo) m = true) {e : Nat × α} (he : e ∈ m) : lo < e.1 := by
  induction m generalizing lo with
  | nil => cases he
  | cons x m ih =>
    obtain ⟨k, v⟩ := x
    simp only [rising, Bool.and_eq_true, decide_eq_true_eq] at h
    rcases List.mem_cons.mp he with rfl | he
    · exact h.1
    · exact h.1.trans (ih h.2 he)

/-- Of a table in which a test fails at every other key, the test leaves the entry that is put. -/
theorem filter_put {α : Type} {p : Nat × α → Bool} {m : Tab α} {a : Nat} (v : α) (hm : rising none m = true)
    (h : ∀ e ∈ m, e.1 ≠ a → p e = false) : (put m a v).filter p = [(a, v)].filter p := by
  have above {k : Nat} {l : Tab α} (hk : a ≤ k) (hl : rising (some k) l = true) (hp : ∀ e ∈ l, e.1 ≠ a → p e = false) : l.filter p = [] :=
    List.filter_eq_nil_iff.mpr fun e he => Bool.eq_false_iff.mp (hp e he (by have := lt_of_mem_rising hl he; omega))
  induction m with
  | nil => rfl
  | cons x m ih =>
    obtain ⟨k, w⟩ := x
    have htail : ∀ e ∈ m, e.1 ≠ a → p e = false := fun e he => h e (List.mem_cons_of_mem _ he)
    rw [put]
    split_ifs with hlt heq
    · have hk : p (k, w) = false := h _ List.mem_cons_self (by dsimp only; omega)
      have hrest : ((k, w) :: m).filter p = [] := by rw [List.filter_cons_of_neg (by simp [hk]), above (k := k) (by omega) hm htail]
      rw [← List.singleton_append, List.filter_append, hrest, List.append_nil]
    · rw [← List.singleton_append, List.filter_append, above (k := k) (by omega) hm htail, List.append_nil]
    · have hk : p (k, w) = false := h _ List.mem_cons_self (by dsimp only; omega)
      rw [List.filter_cons_of_neg (by simp [hk]), ih (rising_none m hm) htail]

theorem look_of_mem {α : Type} {m : Tab α} (hm : rising none m = true) {e : Nat × α} (he : e ∈ m) : look m e.1 = some e.2 := by
  induction m with
  | nil => cases he
  | cons x m ih =>
    obtain ⟨k, v⟩ := x
    rcases List.mem_cons.mp he with rfl | he
    · exact if_pos rfl
    · have hlt : k < e.1 := lt_of_mem_rising hm he
      rw [look, if_neg (by omega)]
      exact ih (rising_none m hm) he

theorem mem_of_look {α : Type} {m : Tab α} {k : Nat} {v : α} (h : look m k = some v) : (k, v) ∈ m := by
  induction m with
  | nil => cases h
  | cons x m ih =>
    obtain ⟨a, w⟩ := x
    rw [look] at h
    split at h
    · next hk =>
      cases h
      subst hk
      exact List.mem_cons_self
    · exact List.mem_cons_of_mem _ (ih h)

/-! The end of an operation (03 R63) -/

/-- The strand's paths wait for operation id no longer. -/
def Strand.withoutOp (st : Strand) (id : Nat) : Strand :=
  let f (p : Path) : Path := { p with outs := p.outs.filter fun x => x.1 != id }
  { st with path0 := f st.path0, path1 := f st.path1 }

theorem onStrand_of_some {s : State} {k : Nat} {st : Strand} (h : s.strand k = some st) (f : Strand → Strand) : s.onStrand k f = s.setStrand k (f st) := by
  rw [State.onStrand, h]

/-- What an untagged operation's end leaves: it is gone, and of its strand only the paths' lists and a finished count have changed. -/
theorem finishOp_untagged {s : State} {id : Nat} {o : Op} {st : Strand} (hop : s.op id = some o) (htags : o.tags = []) (hst : s.strand o.strand = some st) :
    ∃ fin, (∀ a, o.acc ≠ some a → rd 0 fin a = rd 0 st.finishedB a) ∧
      (s.finishOp id).strand o.strand = some { st.withoutOp id with finishedB := fin } ∧
      (∀ j, j ≠ o.strand → (s.finishOp id).strand j = s.strand j) ∧ s.finishOp id = { s.dropOp id with strands := (s.finishOp id).strands } := by
  have hdrop : (s.writeSamples o fun _ => false).dropOp id = s.dropOp id := by rw [State.writeSamples, htags]; rfl
  have hst' : (s.dropOp id).strand o.strand = some st := hst
  have hend : s.finishOp id = match o.acc with
      | some a => ((s.dropOp id).setStrand o.strand (st.withoutOp id)).settleBatches o.strand a
      | none => (s.dropOp id).setStrand o.strand (st.withoutOp id) := by
    rw [State.finishOp, hop]
    dsimp only
    rw [hdrop, onStrand_of_some hst']
    rfl
  rw [hend]
  cases hacc : o.acc with
  | none =>
    exact ⟨st.finishedB, fun _ _ => rfl, State.strand_setStrand_same _ _ _, fun j hj => (State.strand_setStrand _ _ j _).trans (if_neg hj), rfl⟩
  | some a =>
    dsimp only
    rw [State.settleBatches, onStrand_of_some (State.strand_setStrand_same _ _ _)]
    refine ⟨_, fun b hb => ?_, State.strand_setStrand_same _ _ _, fun j hj => ?_, rfl⟩
    · exact (rd_wr 0 _ a b _).trans (if_neg (by rintro rfl; exact hb rfl))
    · exact ((State.strand_setStrand _ _ j _).trans (if_neg hj)).trans ((State.strand_setStrand _ _ j _).trans (if_neg hj))

/-- An untagged operation that has given its strand's registers their values completes. -/
theorem finishOp_completes {s : State} {id : Nat} {o : Op} {st st1 : Strand} (hop : s.op id = some o) (htags : o.tags = [])
    (hst : s.strand o.strand = some st) (hregs : st1 = { st with v := st1.v, s := st1.s, p := st1.p }) :
    ∃ fin, Completes s ((s.setStrand o.strand st1).finishOp id) id o st { st1.withoutOp id with finishedB := fin } ∧
      ((s.setStrand o.strand st1).finishOp id).mem = s.mem ∧ ((s.setStrand o.strand st1).finishOp id).cores = s.cores ∧
      ((s.setStrand o.strand st1).finishOp id).bars = s.bars := by
  obtain ⟨fin, hfin, hstrand, hothers, hstate⟩ := finishOp_untagged (s := s.setStrand o.strand st1) hop htags (State.strand_setStrand_same _ _ _)
  refine ⟨fin, ⟨hst, hstrand, ?_, fun j hj => ?_, ?_, ?_, ?_, fun a ha => ?_, fun k hk => ?_, fun c => ?_, ?_⟩, ?_, ?_, ?_⟩
  · rw [hstate]; exact look_upd_same s.ops id none
  · rw [hstate]; exact look_upd_other s.ops none hj
  · rw [hregs]; rfl
  · rw [hregs]; rfl
  · rw [hregs]; rfl
  · rw [hfin a ha, hregs]
  · exact (hothers k hk).trans ((State.strand_setStrand s o.strand k st1).trans (if_neg hk))
  all_goals rw [hstate]; rfl

end Sys2Proof.Machine
end

section
/-!
PROOFS. Accesses to objects some of whose threads' addresses fail: the others' operation starts, and the path stops after the instruction with
the cause of the earliest check, every failing thread and the lowest one's address (01 R26, R28; 07 R155, R160, R163; 14 R344, R347).
-/

namespace Sys2Proof.Machine

/-! The causes with which a translation fails -/

/-- A cause that an access of memory can fail with: below the debug causes 0xB0 and 0xB1, or an uncorrectable error (14 R346). -/
def Failed.ofAccess (f : Failed) : Prop := f.cause < 0xB0 ∨ f.cause = 0xB2
/-- What a translation reads on its way fails with causes of accesses. -/
def Walk.sound (walk : Walk) : Prop := ∀ a n f, walk a n = .error f → f.ofAccess

theorem ofAccess_of_lt {rank cause qual : Nat} (h : cause < 0xB0) : Failed.ofAccess ⟨rank, cause, qual⟩ := .inl h

theorem mapM_error {α β ε : Type} (f : α → Except ε β) {l : List α} {x : ε} (h : l.mapM f = .error x) : ∃ a ∈ l, f a = .error x := by
  induction l with
  | nil => cases h
  | cons a l ih =>
    rw [List.mapM_cons] at h
    cases ha : f a with
    | error y =>
      rw [ha] at h
      exact ⟨a, List.mem_cons_self, ha.trans (by cases h; rfl)⟩
    | ok b =>
      cases hl : l.mapM f with
      | error y =>
        rw [ha, hl] at h
        obtain ⟨c, hc, hfc⟩ := ih (by cases h; exact hl)
        exact ⟨c, List.mem_cons_of_mem a hc, hfc⟩
      | ok bs => rw [ha, hl] at h; cases h

theorem readCause_ofAccess (s : State) (d : Nat) (ks : List Nat) (rank : Nat) : Failed.ofAccess ⟨rank, s.readCause d ks, 0⟩ := by
  unfold Failed.ofAccess State.readCause
  dsimp only
  split_ifs <;> simp

theorem number_ofAccess {s : State} {d : Nat} {l : Located} {f : Failed} (h : l.number s d = .error f) : f.ofAccess := by
  unfold Located.number at h
  dsimp only at h
  split at h
  · cases h
  · cases h
    exact readCause_ofAccess _ _ _ _

theorem permFails_ofAccess {s : State} {ctx id : Nat} {r : ObjRec} {slot : Slot} {kind : Kind} {host : Bool} {f : Failed}
    (h : permFails s ctx id r slot kind host = some f) : f.ofAccess := by
  simp only [permFails] at h
  split_ifs at h <;> cases h <;> exact ofAccess_of_lt (by decide)

theorem notResident_ofAccess {walk : Walk} {r : ObjRec} {o : Nat} {f : Failed} (h : notResident walk r o = some f) : f.ofAccess := by
  simp only [notResident] at h
  split_ifs at h
  split at h
  · split_ifs at h
    cases h
    exact ofAccess_of_lt (by decide)
  · split_ifs at h with hc
    · cases h
      exact hc.symm.imp (fun h => by simp [h]) id
    · cases h
      exact ofAccess_of_lt (by decide)

theorem placeByte_ofAccess {s : State} {r : ObjRec} {slot : Slot} {e b : Nat} {f : Failed} (h : placeByte s r slot e b = .error f) : f.ofAccess := by
  simp only [placeByte] at h
  split_ifs at h
  cases h
  exact ofAccess_of_lt (by decide)

theorem byteSrc_ofAccess {walk : Walk} (hw : walk.sound) {s : State} {r : ObjRec} {slot : Slot} {kind : Kind} {a : Nat} {f : Failed}
    (h : byteSrc walk s r slot kind a = .error f) : f.ofAccess := by
  have hpointer {n : Nat} {g : Failed} (hg : ((walk n 4).mapError fun f => (⟨8, f.cause, f.qual⟩ : Failed)) = .error g) : g.ofAccess := by
    cases hx : walk n 4 with
    | ok v => rw [hx] at hg; cases hg
    | error y => rw [hx] at hg; cases hg; exact hw n 4 y hx
  unfold byteSrc at h
  dsimp only at h
  split at h
  · split at h
    · split at h
      · split at h
        · cases h
        · cases h; exact ofAccess_of_lt (by decide)
      · exact placeByte_ofAccess h
    · next hx => cases h; exact hpointer hx
    · next hx _ => cases h; exact hpointer hx
  · exact placeByte_ofAccess h

theorem translateRec_ofAccess {walk : Walk} (hw : walk.sound) {s : State} {d ctx : Nat} {r : ObjRec} {slot? : Option Slot} {addr n : Nat} {kind : Kind}
    {host : Bool} {f : Failed} (h : translateRec walk s d ctx r slot? addr n kind host = .error f) : f.ofAccess := by
  unfold translateRec at h
  dsimp only at h
  split at h
  · cases h; exact ofAccess_of_lt (by decide)
  split at h
  · cases h; exact ofAccess_of_lt (by decide)
  split at h
  · cases h; exact ofAccess_of_lt (by decide)
  split at h
  · next hperm => cases h; exact permFails_ofAccess hperm
  split at h
  · next hres => cases h; exact notResident_ofAccess hres
  split at h
  · cases h; exact ofAccess_of_lt (by decide)
  split at h
  · next hbytes =>
    cases h
    obtain ⟨a, -, ha⟩ := mapM_error _ hbytes
    exact byteSrc_ofAccess hw ha
  · cases h

theorem translateAt_ofAccess {fuel : Nat} {s : State} {d ctx addr n : Nat} {kind : Kind} {host : Bool} {named : Option Nat} {f : Failed}
    (h : translateAt fuel s d ctx addr n kind host named = .error f) : f.ofAccess := by
  induction fuel generalizing addr n kind host named f with
  | zero => cases h; exact ofAccess_of_lt (by decide)
  | succ fuel ih =>
    have hwalk : Walk.sound fun a m => (translateAt fuel s d ctx a m .read false none).bind (Located.number s d) := by
      intro a m g hg
      dsimp only at hg
      cases ht : translateAt fuel s d ctx a m .read false none with
      | error y => rw [ht] at hg; cases hg; exact ih ht
      | ok l => rw [ht] at hg; exact number_ofAccess hg
    rw [translateAt] at h
    split at h
    · cases h; exact ofAccess_of_lt (by decide)
    split at h
    · cases h; exact ofAccess_of_lt (by decide)
    · exact translateRec_ofAccess hwalk h

theorem translate_ofAccess {s : State} {d ctx addr n : Nat} {kind : Kind} {f : Failed} (h : translate s d ctx addr n kind = .error f) : f.ofAccess :=
  translateAt_ofAccess h

/-! The failure that stands for those of several threads (01 R28) -/

/-- The failures of threads' addresses as Env.nextFailed takes them. -/
abbrev Failures := List (Nat × Nat × Failed)
/-- The failure has the least place among those of a list in the order of the checks. -/
def earliestIn (fs : Failures) (y : Nat × Nat × Failed) : Bool := fs.all fun z => decide (y.2.2.rank ≤ z.2.2.rank)

/-- The steps by which the failure reported is found: the first of the earliest check, and the lowest thread with its address. -/
def earlierFailure (b : Option Failed) (f : Nat × Nat × Failed) : Option Failed := match b with
  | none => some f.2.2
  | some w => if f.2.2.rank < w.rank then some f.2.2 else b
def lowerThread (b : Option (Nat × Nat)) (f : Nat × Nat × Failed) : Option (Nat × Nat) := match b with
  | none => some (f.1, f.2.1)
  | some (t, a) => if f.1 < t then some (f.1, f.2.1) else some (t, a)

theorem worst_cons (y : Nat × Nat × Failed) (fs : Failures) :
    worst (y :: fs) = (fs.foldl earlierFailure (some y.2.2)).map fun b =>
      (b, maskOf ((y :: fs).map (·.1)), match fs.foldl lowerThread (some (y.1, y.2.1)) with | some (_, a) => a | none => 0) := rfl

theorem foldl_earlierFailure (w : Nat × Nat × Failed) (fs : Failures) :
    fs.foldl earlierFailure (some w.2.2) = ((w :: fs).find? (earliestIn (w :: fs))).map (·.2.2) := by
  induction fs generalizing w with
  | nil => simp [earliestIn]
  | cons z fs ih =>
    rw [List.foldl_cons, earlierFailure]
    by_cases hz : z.2.2.rank < w.2.2.rank
    · have hpred : earliestIn (w :: z :: fs) = earliestIn (z :: fs) := by
        funext y
        simp only [earliestIn, List.all_cons, Bool.and_eq_right_iff_imp, Bool.and_eq_true, decide_eq_true_eq]
        omega
      rw [if_pos hz, ih z, List.find?_cons_of_neg (a := w), hpred]
      simp [earliestIn, hz]
    · have hpred : earliestIn (w :: z :: fs) = earliestIn (w :: fs) := by
        funext y
        simp only [earliestIn, List.all_cons]
        by_cases hy : y.2.2.rank ≤ w.2.2.rank
        · simp [hy, show y.2.2.rank ≤ z.2.2.rank by omega]
        · simp [hy]
      rw [if_neg hz, ih w, hpred, List.find?_cons, List.find?_cons, List.find?_cons]
      cases hw : earliestIn (w :: fs) w with
      | true => rfl
      | false =>
        have hzl : earliestIn (w :: fs) z = false := by
          rw [Bool.eq_false_iff] at hw ⊢
          refine fun h => hw ?_
          simp only [earliestIn, List.all_cons, Bool.and_eq_true, decide_eq_true_eq, List.all_eq_true] at h ⊢
          exact ⟨le_rfl, fun x hx => by have := h.2 x hx; omega⟩
        simp [hzl]

theorem foldl_lowerThread {t a : Nat} {fs : Failures} (h : ∀ y ∈ fs, t < y.1) : fs.foldl lowerThread (some (t, a)) = some (t, a) := by
  induction fs with
  | nil => rfl
  | cons y fs ih =>
    have hy : ¬ y.1 < t := by have := h y List.mem_cons_self; omega
    rw [List.foldl_cons, lowerThread, if_neg hy]
    exact ih fun z hz => h z (List.mem_cons_of_mem y hz)

theorem worst_of_sorted {low f : Nat × Nat × Failed} {fs : Failures} (hs : fs.Pairwise fun y z => y.1 < z.1) (hlow : fs.head? = some low)
    (hf : fs.find? (earliestIn fs) = some f) : worst fs = some (f.2.2, maskOf (fs.map (·.1)), low.2.1) := by
  cases fs with
  | nil => cases hlow
  | cons y fs =>
    obtain rfl : y = low := Option.some.inj hlow
    rw [worst_cons, foldl_earlierFailure, hf, foldl_lowerThread (List.pairwise_cons.mp hs).1]
    rfl

/-! The start of an operation in flight -/

theorem State.sample_eq (s : State) (core ctx n : Nat) : (s.sample core ctx n).1 = { s with cores := (s.sample core ctx n).1.cores } := by
  unfold State.sample
  dsimp only
  split <;> rfl

theorem State.sample_core (s : State) (core ctx n c : Nat) :
    (s.sample core ctx n).1.core c = { s.core c with lantern := ((s.sample core ctx n).1.core c).lantern } := by
  unfold State.sample
  dsimp only
  split
  · rfl
  · simp only [State.onCore, State.core_setCore]
    split
    · subst c; rfl
    · rfl

/-- The strand of e with the next operation among its path's outstanding ones. -/
def Env.started (e : Env) (s : State) : Strand :=
  e.st.setPath e.pi { e.p with outs := e.p.outs ++ [(s.nextId, e.p.words + e.len, lookahead e.i)] }

theorem start_starts {u : State} {e : Env} (o : Op) (hs : u.strand e.k = some e.st) (hp : e.p = e.st.path e.pi) :
    StartsOp u (e.start o u).2 e o (e.started u) ∧ (e.start o u).2.cur = u.cur := by
  rw [start_eq o hs, ← hp]
  refine ⟨⟨⟨_, look_upd_same u.ops u.nextId (some _), rfl⟩, fun j hj => ?_, rfl, look_upd_same u.strands e.k (some _), rfl, fun k hk => ?_,
    fun c => rfl, rfl⟩, rfl⟩
  · exact look_upd_other u.ops (some _) hj
  · exact look_upd_other u.strands (some _) hk

theorem launchOp_starts {u : State} {e : Env} {o : Op} (hs : u.strand e.k = some e.st) (hp : e.p = e.st.path e.pi) (ho : o.items ≠ []) :
    StartsOp u (e.launchOp o u) e o (e.started u) ∧ (e.launchOp o u).cur = u.cur := by
  have hsample := State.sample_eq u e.core e.ctx o.requests
  have hcore := State.sample_core u e.core e.ctx o.requests
  unfold Env.launchOp
  rw [if_neg (by simpa using ho)]
  dsimp only
  generalize (u.sample e.core e.ctx o.requests).1 = u1 at hsample hcore
  have hs1 : u1.strand e.k = some e.st := by rw [hsample]; exact hs
  obtain ⟨hstart, hcur⟩ := start_starts { o with watched := _, tags := (u.sample e.core e.ctx o.requests).2 } hs1 hp
  obtain ⟨⟨o', hop, ho'⟩, hops, hnext, hstrand, -, hstrands, hcores, hpackage⟩ := hstart
  have hid : u1.nextId = u.nextId := by rw [hsample]
  have hnow : u1.now = u.now := by rw [hsample]
  rw [hid] at hop hops hnext
  have hst : e.started u1 = e.started u := by rw [Env.started, hid, Env.started]
  rw [hst] at hstrand
  refine ⟨⟨⟨o', hop, ?_⟩, fun j hj => ?_, hnext, hstrand, rfl, fun k hk => ?_, fun c => ?_, ?_⟩, ?_⟩
  · rw [ho', hnow]
  · rw [hops j hj, hsample]; rfl
  · rw [hstrands k hk, hsample]; rfl
  · rw [hcores c, hcore c]
  · rw [hpackage, hsample]
  · rw [hcur, hsample]

/-! The end of an instruction some of whose threads have failed -/

theorem has_maskOf (ts : List Nat) {t : Nat} (ht : t < 32) : has (maskOf ts) t = decide (t ∈ ts) := by
  have hfold (m : Mask) : has (ts.foldl (fun m t => m ||| (1#32 <<< t)) m) t = (has m t || decide (t ∈ ts)) := by
    induction ts generalizing m with
    | nil => simp
    | cons u ts ih =>
      have hbit : (1#32 <<< u).getLsbD t = decide (t = u) := by
        rw [Bool.eq_iff_iff]
        simp [ht]
        omega
      rw [List.foldl_cons, ih, has, BitVec.getLsbD_or, hbit]
      simp [has, Bool.or_assoc]
  rw [maskOf, hfold]
  simp [has]

theorem maskOf_ne_zero {ts : List Nat} {t : Nat} (ht : t < 32) (hmem : t ∈ ts) : maskOf ts ≠ 0 := by
  intro h
  have := has_maskOf ts ht
  simp [h, has, hmem] at this

theorem next_retires {u : State} {e : Env} {r : Run} {st1 : Strand} (hc : u.cur = some (e.k, e.pi)) (hs : u.strand e.k = some st1)
    (hr : (st1.path e.pi).run = some r) (hst : st1.stepping = e.st.stepping) : ∃ st2, Retires u (e.next u) e r none false st1 st2 :=
  ⟨_, finish_retires none false hc hs hr hst⟩

theorem nextFailed_stops {u : State} {e : Env} {r : Run} {st1 : Strand} {fs : Failures} {low f : Nat × Nat × Failed}
    (hc : u.cur = some (e.k, e.pi)) (hs : u.strand e.k = some st1) (hr : (st1.path e.pi).run = some r) (hst : st1.stepping = e.st.stepping)
    (hsorted : fs.Pairwise fun y z => y.1 < z.1) (hthreads : ∀ y ∈ fs, y.1 < 32) (hcauses : ∀ y ∈ fs, y.2.2.ofAccess)
    (hlow : fs.head? = some low) (hf : fs.find? (earliestIn fs) = some f) :
    ∃ v st2 st3, Retires u v e r none false st1 st2 ∧
      Stops v (e.nextFailed u fs) e { cause := f.2.2.cause, qual := f.2.2.qual, emask := maskOf (fs.map (·.1)), pc := e.chain, addr := low.2.1 }
        e.after false st2 st3 := by
  have hlowmem : low ∈ fs := List.mem_of_head? hlow
  have hemask : maskOf (fs.map (·.1)) ≠ 0 := maskOf_ne_zero (hthreads low hlowmem) (List.mem_map_of_mem hlowmem)
  have hcause : f.2.2.cause ≠ 0xB0 ∧ f.2.2.cause ≠ 0xB1 := by
    have := hcauses f (List.mem_of_find?_eq_some hf)
    unfold Failed.ofAccess at this
    omega
  obtain ⟨st2, hret⟩ := next_retires hc hs hr hst
  obtain ⟨st3, hstop⟩ := faultPath_stops
    { cause := f.2.2.cause, qual := f.2.2.qual, emask := maskOf (fs.map (·.1)), pc := e.chain, addr := low.2.1 } e.after hret.strand
  simp only [beq_eq_false_iff_ne.mpr hcause.1, beq_eq_false_iff_ne.mpr hcause.2, Bool.or_self, Bool.and_false, Bool.false_and] at hstop
  refine ⟨_, st2, st3, hret, ?_⟩
  unfold Env.nextFailed
  rw [worst_of_sorted hsorted hlow hf]
  dsimp only
  rw [Env.nextFault, if_neg hemask]
  exact hstop

/-! The accesses as the statement names them -/

theorem objAddr_eq (e : Env) (k : Nat) (a : BitVec 7) (off : Int) : e.objAddr k a off = e.objectAt k a off := by
  funext t
  simp [Env.objAddr, Env.objectAt, unsigned, BitVec.toNat_ofInt]

theorem off_eq (e : Env) : e.off = e.wideOff := rfl

/-- One item joins those that have been numbered: the step of numberLines. -/
def numberLine (key : Item → List Nat) (cap : Nat) (r : List (List Nat × Nat) × List Item) (i : Item) : List (List Nat × Nat) × List Item :=
  let k := (key i, (r.2.filter fun j => key j == key i).length / cap)
  let ks := if r.1.contains k then r.1 else r.1 ++ [k]
  (ks, r.2 ++ [{ i with line := ks.findIdx (· == k) }])

theorem numberLines_fst (key : Item → List Nat) (its : List Item) (cap : Nat) :
    (numberLines key its cap).1 = (its.foldl (numberLine key cap) ([], [])).2 := rfl

theorem numberLines_length (key : Item → List Nat) (its : List Item) (cap : Nat) : (numberLines key its cap).1.length = its.length := by
  have hfold (r : List (List Nat × Nat) × List Item) : (its.foldl (numberLine key cap) r).2.length = r.2.length + its.length := by
    induction its generalizing r with
    | nil => rfl
    | cons i its ih => rw [List.foldl_cons, ih]; simp [numberLine]; omega
  rw [numberLines_fst, hfold]
  exact Nat.zero_add _

theorem objectAccess_base {e : Env} {i : Instr} {x : ObjectAccess} (h : objectAccess e i = some x) (ps : Places) (s : State) :
    (x.base ps s).strands = s.strands ∧ (x.base ps s).cur = s.cur := by
  cases i <;> simp only [objectAccess, Option.some.injEq, reduceCtorEq] at h <;> subst h <;> exact ⟨rfl, rfl⟩

theorem objectAccess_items {e : Env} {i : Instr} {x : ObjectAccess} (h : objectAccess e i = some x) (ps : Places) : (x.op ps).items.length = ps.length := by
  cases i <;> simp only [objectAccess, Option.some.injEq, reduceCtorEq] at h <;> subst h <;>
    simp [loadOp, storeOp, atomicOp, numberLines_length]

theorem active_sorted (m : Mask) : (active m).Pairwise (· < ·) := List.Pairwise.filter _ (by decide)

/-- An access carried out: the passing threads' operation, then what the failing ones meet. -/
def ObjectAccess.run (x : ObjectAccess) (e : Env) (s : State) : State :=
  let rs := e.reach s x.kind x.bytes x.addr
  e.nextFailed (e.launchOp (x.op rs.passed) (if rs.passed.isEmpty then s else x.base rs.passed s)) rs.failed

theorem loadG_eq_run (e : Env) (d a : BitVec 7) (k n : Nat) (sx : Bool) (u : BitVec 4) (s : State) :
    e.loadG d a k n sx u s = ObjectAccess.run ⟨.read, n, e.objectAt k a (e.wideOff + u.toNat * n), fun _ s => s, loadOp e n sx d⟩ e s := by
  simp only [ObjectAccess.run, ite_self]
  unfold Env.loadG
  rw [objAddr_eq]
  rfl

theorem storeG_eq_run (e : Env) (d a : BitVec 7) (k n : Nat) (u : BitVec 4) (s : State) :
    e.storeG d a k n u s = ObjectAccess.run ⟨.write, n, e.objectAt k a (e.wideOff + u.toNat * n), fun _ s => s, storeOp e n d⟩ e s := by
  simp only [ObjectAccess.run, ite_self]
  unfold Env.storeG
  rw [objAddr_eq]
  rfl

theorem atomic_eq_run (e : Env) (o : Nat) (d a : BitVec 7) (k : Nat) (ret : Bool) (s : State) :
    e.atomic o d a k ret s =
      ObjectAccess.run ⟨.atomic, atomBytes o, e.objectAt k a (if o = 14 then 0 else e.wideOff), dropLines e, atomicOp e o d ret⟩ e s := by
  simp only [ObjectAccess.run]
  unfold Env.atomic
  simp only [objAddr_eq, off_eq, beq_iff_eq]
  generalize e.reach s .atomic (atomBytes o) (e.objectAt k a (if o = 14 then 0 else e.wideOff)) = rs
  simp only [List.isEmpty_map, List.flatMap_map, dropLines, atomicOp, Item.lines]
  rfl

theorem exec_objectAccess {i : Instr} {s : State} {e : Env} {r : Run} {x : ObjectAccess} (h : Issues i s e r) (hx : objectAccess e i = some x) :
    exec i s = .next (x.run e (paid i e s)) := by
  have ho (o : BitVec 4) : (o = 14) ↔ (o.toNat = 14) := by rw [← BitVec.toNat_inj]; rfl
  cases i <;> simp only [objectAccess, Option.some.injEq, reduceCtorEq] at hx <;> subst hx
  case ldG => exact (issue_body _ h).trans (by rw [loadG_eq_run])
  case ldGExt => exact (issue_body _ h).trans (by rw [loadG_eq_run])
  case stG => exact (issue_body _ h).trans (by rw [storeG_eq_run])
  case stGB128 => exact (issue_body _ h).trans (by rw [storeG_eq_run]; simp)
  case atom => simp only [ho]; exact (issue_body _ h).trans (by rw [atomic_eq_run])
  case red => simp only [ho]; exact (issue_body _ h).trans (by rw [atomic_eq_run])

/-- What translates, and what fails, of the addresses of an access. -/
def ObjectAccess.reached (x : ObjectAccess) (e : Env) (s : State) (t : Nat) : Except Failed Located := translate s e.die e.ctx (x.addr t) x.bytes x.kind
def ObjectAccess.places (x : ObjectAccess) (e : Env) (s : State) : Places :=
  e.ts.filterMap fun t => match x.reached e s t with | .ok l => some (t, x.addr t, l) | .error _ => none
def ObjectAccess.failures (x : ObjectAccess) (e : Env) (s : State) : List (Nat × Failed) :=
  e.ts.filterMap fun t => match x.reached e s t with | .ok _ => none | .error f => some (t, f)
/-- A thread's failure with the address that it named. -/
def ObjectAccess.named (x : ObjectAccess) (y : Nat × Failed) : Nat × Nat × Failed := (y.1, x.addr y.1, y.2)

theorem passed_reach (x : ObjectAccess) (e : Env) (s : State) : (e.reach s x.kind x.bytes x.addr).passed = x.places e s := by
  rw [Reach.passed, Env.reach, List.filterMap_map, ObjectAccess.places]
  congr
  funext t
  dsimp only [Function.comp, ObjectAccess.reached]
  cases translate s e.die e.ctx (x.addr t) x.bytes x.kind <;> rfl

theorem failed_reach (x : ObjectAccess) (e : Env) (s : State) : (e.reach s x.kind x.bytes x.addr).failed = (x.failures e s).map x.named := by
  rw [Reach.failed, Env.reach, List.filterMap_map, ObjectAccess.failures, List.map_filterMap]
  congr
  funext t
  dsimp only [Function.comp, ObjectAccess.reached]
  cases translate s e.die e.ctx (x.addr t) x.bytes x.kind <;> rfl

theorem failures_step {x : ObjectAccess} {e : Env} {s : State} {t : Nat} {y : Nat × Failed}
    (h : (match x.reached e s t with | .ok _ => none | .error f => some (t, f)) = some y) : y.1 = t ∧ y.2.ofAccess := by
  cases hr : x.reached e s t with
  | ok l => simp [hr] at h
  | error f =>
    rw [hr] at h
    cases h
    exact ⟨rfl, translate_ofAccess hr⟩

theorem mem_failures {x : ObjectAccess} {e : Env} {s : State} {y : Nat × Failed} (h : y ∈ x.failures e s) : y.1 < 32 ∧ y.2.ofAccess := by
  obtain ⟨t, ht, hty⟩ := List.mem_filterMap.mp h
  obtain ⟨rfl, hcause⟩ := failures_step hty
  exact ⟨(mem_active.mp ht).1, hcause⟩

theorem failures_sorted (x : ObjectAccess) (e : Env) (s : State) : (x.failures e s).Pairwise fun y z => y.1 < z.1 := by
  refine (active_sorted e.act).filterMap _ fun t t' htt y hy z hz => ?_
  rw [(failures_step hy).1, (failures_step hz).1]
  exact htt

/-- The operation of the threads that pass starts, and without any nothing happens; the path and what it runs are as they were. -/
theorem objectAccess_starts {e : Env} {i : Instr} {x : ObjectAccess} {s : State} (hx : objectAccess e i = some x) (ps : Places)
    (hs : s.strand e.k = some e.st) (hp : e.p = e.st.path e.pi) :
    ∃ st1, let u := e.launchOp (x.op ps) (if ps.isEmpty then s else x.base ps s)
      (ps ≠ [] → StartsOp (x.base ps s) u e (x.op ps) st1) ∧ (ps = [] → u = s ∧ st1 = e.st) ∧ u.cur = s.cur ∧ u.strand e.k = some st1 ∧
        (st1.path e.pi).run = e.p.run ∧ st1.stepping = e.st.stepping := by
  by_cases hps : ps = []
  · subst hps
    have hnone : (x.op []).items = [] := List.length_eq_zero_iff.mp (objectAccess_items hx [])
    have hu : e.launchOp (x.op []) s = s := by rw [Env.launchOp, hnone]; rfl
    refine ⟨e.st, ?_⟩
    simp [hu, hs, hp]
  · obtain ⟨hstrands, hcur⟩ := objectAccess_base hx ps s
    have hsome : (x.op ps).items ≠ [] := fun h => hps (List.length_eq_zero_iff.mp (by rw [← objectAccess_items hx ps, h]; rfl))
    have hbase : (x.base ps s).strand e.k = some e.st := by rw [State.strand, hstrands]; exact hs
    obtain ⟨hstart, hcur'⟩ := launchOp_starts hbase hp hsome
    rw [← List.isEmpty_iff] at hps
    refine ⟨e.started (x.base ps s), ?_⟩
    simp only [hps]
    exact ⟨fun _ => hstart, fun h => absurd (List.isEmpty_iff.mpr h) hps, hcur'.trans hcur, hstart.strand, by simp [Env.started], by simp [Env.started]⟩

theorem run_stops {x : ObjectAccess} {e : Env} {i : Instr} {r : Run} {s : State} (hx : objectAccess e i = some x)
    (hcur : s.cur = some (e.k, e.pi)) (hs : s.strand e.k = some e.st) (hp : e.p = e.st.path e.pi) (hrun : e.p.run = some r) {low f : Nat × Failed}
    (hlow : (x.failures e s).head? = some low)
    (hf : (x.failures e s).find? (fun y => (x.failures e s).all fun z => decide (y.2.rank ≤ z.2.rank)) = some f) :
    ∃ u v st1 st2 st3, (x.places e s ≠ [] → StartsOp (x.base (x.places e s) s) u e (x.op (x.places e s)) st1) ∧
      (x.places e s = [] → u = s ∧ st1 = e.st) ∧ Retires u v e r none false st1 st2 ∧
      Stops v (x.run e s) e { cause := f.2.cause, qual := f.2.qual, emask := maskOf ((x.failures e s).map (·.1)), pc := e.chain, addr := x.addr low.1 }
        e.after false st2 st3 := by
  obtain ⟨st1, hstart, hnone, hcur1, hs1, hrun1, hstep1⟩ := objectAccess_starts hx (x.places e s) hs hp
  obtain ⟨v, st2, st3, hret, hstop⟩ := nextFailed_stops (fs := (x.failures e s).map x.named) (low := x.named low) (f := x.named f)
    (hcur1.trans hcur) hs1 (hrun1.trans hrun) hstep1 (List.pairwise_map.mpr (failures_sorted x e s))
    (List.forall_mem_map.mpr fun y hy => (mem_failures hy).1) (List.forall_mem_map.mpr fun y hy => (mem_failures hy).2)
    (by rw [List.head?_map, hlow]; rfl)
    (by rw [List.find?_map]; simp only [Function.comp_def, earliestIn, List.all_map]; exact congrArg (Option.map x.named) hf)
  refine ⟨_, v, st1, st2, st3, hstart, hnone, hret, ?_⟩
  unfold ObjectAccess.run
  dsimp only
  rw [passed_reach, failed_reach]
  rw [List.map_map] at hstop
  exact hstop

/-- Settles O8: the instruction is its access's `run`, which starts the operation of the threads that pass and then stops as `nextFailed` does. -/
theorem objectAccessFaults : Obligations.ObjectAccessFaults := by
  unfold Obligations.ObjectAccessFaults
  intro i s e r x h hx tr ps fs low f hlow hf
  obtain ⟨hcur, -, hp, hrun, -, -⟩ := envOf_eq h.1
  have hcur' : (paid i e s).cur = some (e.k, e.pi) := by rw [paid_eq]; exact hcur
  obtain ⟨u, v, st1, st2, st3, hstart, hnone, hret, hstop⟩ := run_stops hx hcur' (paid_strand_same i e s) hp hrun hlow hf
  exact ⟨u, v, _, st1, st2, st3, exec_objectAccess h hx, hstart, hnone, hret, hstop⟩

end Sys2Proof.Machine
end

section
/-!
PROOFS. Publishes at their home units: the request, the swap of the slots, what each die drops, and the completion (01 R31 to R36).
-/

namespace Sys2Proof.Machine

/-! A request (01 R31 step 1) -/

theorem onPub_eq {s : State} {n : Nat} {p : Pub} (h : look s.pkg.pubs n = some p) (f : Pub → State) : onPub s n f = .next (f p) := by
  rw [onPub, State.pub, h]

theorem setPub_onlyPub (s : State) (n : Nat) (p : Option Pub) : OnlyPub s (s.setPub n p) n p :=
  ⟨look_upd_same s.pkg.pubs n p, fun _ hj => look_upd_other s.pkg.pubs p hj, rfl⟩

/-- The check of a request at its home unit: its object has a valid record, and the record passes (01 R36). -/
def pubChecks (s : State) (p : Pub) : Bool := match pubRecord s p with
  | some r => (recordBad s (homeDie s p.obj) p.ctx r r.current).isNone
  | none => false

theorem pubChecks_iff {s : State} {p : Pub} :
    pubChecks s p = true ↔ ∃ q, pubRecord s p = some q ∧ recordBad s (homeDie s p.obj) p.ctx q q.current = none := by
  unfold pubChecks
  cases pubRecord s p <;> simp

/-- A request that is first in its turn is received, or the port's is rejected (01 R31 step 1, R36). -/
theorem publishRequest_first {s : State} {n : Nat} {p : Pub} (h : look s.pkg.pubs n = some p) (hnew : p.received = false)
    (hfirst : ∀ x ∈ s.pkg.pubs, x.1 < n → ¬ (x.2.ctx = p.ctx ∧ x.2.obj = p.obj)) :
    exec (.publishRequest n) s = .next (if p.op.isNone && !pubChecks s p then s.portReject n 3 else s.setPub n (some { p with received := true })) := by
  have hany : (s.pkg.pubs.any fun x => decide (x.1 < n) && x.2.ctx == p.ctx && x.2.obj == p.obj) = false := by
    rw [List.any_eq_false]
    intro x hx
    have hx' := hfirst x hx
    simp only [Bool.and_eq_true, decide_eq_true_eq, beq_iff_eq, not_and] at hx' ⊢
    exact fun hlt => hx' hlt.1 hlt.2
  refine (onPub_eq h _).trans (congrArg Host.Outcome.next ?_)
  dsimp only
  rw [hany, hnew, if_neg (by decide)]
  rfl

theorem portReject_invalid (s : State) (n : Nat) :
    s.portReject n 3 = { s.setPub n none with pkg := { (s.setPub n none).pkg with
      win := { s.win with opstat := (s.win.opstat &&& ~~~0xE9#64) ||| 0x68#64 } } } := by
  unfold State.portReject State.opstat
  rw [show (s.setPub n none).win = s.win from rfl, opstat_reject]
  rfl

/-! The swap of the slots (01 R31 steps 2 to 5) -/

theorem leNat_lt (bs : List Byte) : leNat bs < 2 ^ (8 * bs.length) := by
  induction bs with
  | nil => simp [leNat]
  | cons b bs ih =>
    have hb : b.toNat < 256 := b.isLt
    have hpow : 2 ^ (8 * (b :: bs).length) = 256 * 2 ^ (8 * bs.length) := by rw [List.length_cons]; ring
    rw [leNat, hpow]
    omega

/-- A part of a range whose bytes lie apart. -/
theorem spread_part {s : State} {p n : Nat} (h : spread s p n) {i m : Nat} (him : i + m ≤ n) : spread s (p + i) m := by
  intro a b ha hb hab
  have hsum := h (i + a) (i + b) (by omega) (by omega) (by rwa [Nat.add_assoc, Nat.add_assoc] at hab)
  omega

theorem mem_sysKeys {s : State} {p n k : Nat} : k ∈ sysKeys s p n ↔ ∃ i, i < n ∧ s.sysKey (p + i) = k := by
  simp [sysKeys]

/-- Two parts that do not meet, of a range whose bytes lie apart, lie apart. -/
theorem sysKeys_apart {s : State} {p n : Nat} (h : spread s p n) {i m j l : Nat} (hi : i + m ≤ j ∨ j + l ≤ i) (hm : i + m ≤ n) (hl : j + l ≤ n) :
    ∀ k ∈ sysKeys s (p + i) m, k ∉ sysKeys s (p + j) l := by
  intro k hk hk'
  obtain ⟨a, ha, rfl⟩ := mem_sysKeys.mp hk
  obtain ⟨b, hb, hab⟩ := mem_sysKeys.mp hk'
  have hsum := h (j + b) (i + a) (by omega) (by omega) (by rwa [Nat.add_assoc, Nat.add_assoc] at hab)
  omega

/-- A number at bytes that a write leaves alone. -/
theorem sysNat_of_onlyBytes {s t : State} {ks : List Nat} {p n : Nat} (h : OnlyBytes s t ks) (hkey : t.sysKey = s.sysKey)
    (hks : ∀ k ∈ sysKeys s p n, k ∉ ks) : t.sysNat p n = s.sysNat p n := by
  unfold State.sysNat State.sysRead
  rw [hkey]
  refine congrArg leNat (List.map_congr_left fun i hi => h _ (hks _ (mem_sysKeys.mpr ⟨i, List.mem_range.mp hi, rfl⟩)))

theorem sysRead_length (s : State) (p n : Nat) : (s.sysRead p n).length = n := by simp [State.sysRead]

/-- The record's first word with the current slot changed (01 R18). -/
theorem swapped_lt (s : State) (p : Nat) : Nat.xor (s.sysNat p 4) (2 ^ 24) < 2 ^ 32 := by
  have h := leNat_lt (s.sysRead p 4)
  rw [sysRead_length] at h
  exact Nat.xor_lt_two_pow h (by decide)

/-- The two words that a swap writes: the generation, at `field` of a slot, and the record's first word. -/
def swapWrites (s : State) (rec0 field gen : Nat) : State :=
  (s.sysWrite field (leBytes 4 gen)).sysWrite rec0 (leBytes 4 (Nat.xor (s.sysNat rec0 4) (2 ^ 24)))

theorem swapWrites_gen {s : State} {rec0 slot gen : Nat} (h : spread s rec0 128) (h4 : 4 ≤ slot) (h128 : slot + 4 ≤ 128) (hgen : gen < 2 ^ 32) :
    (swapWrites s rec0 (rec0 + slot) gen).sysNat (rec0 + slot) 4 = gen := by
  have hother := onlyBytes_sysWrite (s.sysWrite (rec0 + slot) (leBytes 4 gen)) rec0 4 (Nat.xor (s.sysNat rec0 4) (2 ^ 24))
  refine (sysNat_of_onlyBytes hother rfl (sysKeys_apart (j := 0) h (Or.inr h4) h128 (by decide))).trans ?_
  rw [sysNat_sysWrite gen (spread_part h h128), Nat.mod_eq_of_lt hgen]

theorem swapWrites_word (s : State) (rec0 field gen : Nat) (h : spread s rec0 128) :
    (swapWrites s rec0 field gen).sysNat rec0 4 = Nat.xor (s.sysNat rec0 4) (2 ^ 24) := by
  have hpart : spread s rec0 4 := spread_part (i := 0) h (by decide)
  exact (sysNat_sysWrite (s := s.sysWrite field (leBytes 4 gen)) _ hpart).trans (Nat.mod_eq_of_lt (swapped_lt s rec0))

theorem swapWrites_onlyBytes (s : State) (rec0 field gen : Nat) :
    OnlyBytes s (swapWrites s rec0 field gen) (sysKeys s field 4 ++ sysKeys s rec0 4) := by
  intro k hk
  rw [List.mem_append, not_or] at hk
  exact (onlyBytes_sysWrite (s.sysWrite field (leBytes 4 gen)) rec0 4 _ k hk.2).trans (onlyBytes_sysWrite s field 4 gen k hk.1)

/-- What the home unit does with the slots and the generation they replace (01 R31 steps 2 to 5). -/
def State.swapSlots (s : State) (n : Nat) (p : Pub) (q : ObjRec) (rec0 : Nat) : State :=
  let gen := (q.current.gen + 1) % 2 ^ 32
  let s2 := swapWrites s rec0 (rec0 + (if q.cur then 64 else 96) + 16) gen
  let s3 := s2.setPub n (some { p with swapped := true, waiting := s.dieSet, oldRecord := s.sysRead rec0 128, newGen := gen })
  s3.setPkg { s3.pkg with unretired := (if p.op.isNone then s3.pkg.unretired.map fun u => { u with port := false } else s3.pkg.unretired) ++
    [{ ctx := p.ctx, obj := p.obj, gen := q.current.gen, port := p.op.isNone }] }

/-- A publish is ready to swap: the previous generation is retired, the shadow's is not pinned, and no shadow write is on its way (01 R31). -/
structure SwapReady (s : State) (p : Pub) (q : ObjRec) : Prop where
  received : p.received = true
  swapped : p.swapped = false
  retired : ∀ u ∈ s.pkg.unretired, ¬ (u.ctx = p.ctx ∧ u.obj = p.obj)
  unpinned : pinnedGen s p.ctx p.obj q.shadow.gen = false
  room : s.pkg.unretired.length < 256
  drained : ∀ x ∈ s.ops, ∀ g ∈ x.2.gens, ¬ (g.shadow = true ∧ g.ctx = p.ctx ∧ g.obj = p.obj)
  expected : p.expGen = none ∨ p.expGen = some q.current.gen
  good : recordBad s (homeDie s p.obj) p.ctx q q.shadow = none

theorem publishSwap_ready {s : State} {n : Nat} {p : Pub} {q : ObjRec} {c : Ctx} (h : look s.pkg.pubs n = some p) (hrec : pubRecord s p = some q)
    (hctx : s.ctx p.ctx = some c) (r : SwapReady s p q) : exec (.publishSwap n) s = .next (s.swapSlots n p q (c.otbase + p.obj * 128)) := by
  have hretired : (s.pkg.unretired.all fun u => u.ctx != p.ctx || u.obj != p.obj) = true := by
    rw [List.all_eq_true]
    intro u hu
    simpa [imp_iff_not_or] using r.retired u hu
  have hdrained : (s.ops.all fun x => x.2.gens.all fun g => !g.shadow || g.ctx != p.ctx || g.obj != p.obj) = true := by
    simp only [List.all_eq_true]
    intro x hx g hg
    have hg' := r.drained x hx g hg
    cases hs : g.shadow <;> simp_all [imp_iff_not_or]
  refine (onPub_eq h _).trans (congrArg Host.Outcome.next ?_)
  rw [hrec, hctx]
  dsimp only
  refine (if_neg ?_).trans ((if_neg ?_).trans ?_)
  · simp [hretired, hdrained, r.received, r.swapped, r.unpinned, r.room]
  · rcases r.expected with he | he <;> simp [he]
  · rw [r.good]
    rfl

/-! What each die drops (01 R31 step 6) -/

/-- The lines that a publish of a record drops: those in the range of either slot. -/
def slotLines (s : State) (r : ObjRec) (l : Nat) : Bool := lineInSlot s r.slotA l || lineInSlot s r.slotB l

/-- Cores drop the lines of a record, one after another. -/
def State.dropLines (s : State) (r : ObjRec) (cs : List Nat) : State := cs.foldl (fun (s : State) n => s.invalidate n (slotLines s r) false) s

theorem invalidate_slotLines (s : State) (c : Nat) (hit : Nat → Bool) (keepRol : Bool) (r : ObjRec) :
    slotLines (s.invalidate c hit keepRol) r = slotLines s r := rfl

theorem core_invalidate (s : State) (c : Nat) (hit : Nat → Bool) (j : Nat) :
    (s.invalidate c hit false).core j = if j = c then { s.core j with l1 := (s.core j).l1.filter fun e => !hit e.1 } else s.core j := by
  refine (State.core_setCore s c j _).trans ?_
  split
  · next h => subst h; simp
  · rfl

theorem dropLines_state (s : State) (r : ObjRec) (cs : List Nat) :
    s.dropLines r cs = { s with cores := (s.dropLines r cs).cores, ops := (s.dropLines r cs).ops } := by
  induction cs generalizing s with
  | nil => rfl
  | cons c cs ih => exact ih (s.invalidate c (slotLines s r) false)

/-- A core that drops the lines of a record holds its other ones; no other core changes. -/
theorem core_dropLines (s : State) (r : ObjRec) (cs : List Nat) (j : Nat) :
    (s.dropLines r cs).core j = if j ∈ cs then { s.core j with l1 := (s.core j).l1.filter fun e => !slotLines s r e.1 } else s.core j := by
  induction cs generalizing s with
  | nil => rfl
  | cons c cs ih =>
    refine (ih (s.invalidate c (slotLines s r) false)).trans ?_
    rw [invalidate_slotLines, core_invalidate]
    by_cases hj : j = c <;> by_cases hm : j ∈ cs <;> simp [hj, hm]

theorem mem_dieCores {die c : Nat} : c ∈ (List.range 136).map (die * 136 + ·) ↔ c / 136 = die := by
  simp only [List.mem_map, List.mem_range]
  constructor
  · rintro ⟨i, hi, rfl⟩
    omega
  · intro h
    exact ⟨c % 136, Nat.mod_lt _ (by decide), by omega⟩

/-- The lines of a record go from a die's cores (01 R31 step 6). -/
def State.dieDrops (s : State) (die : Nat) (r : ObjRec) : State := if !r.rol then s else s.dropLines r ((List.range 136).map (die * 136 + ·))

theorem dieDrops_state (s : State) (die : Nat) (r : ObjRec) :
    s.dieDrops die r = { s with cores := (s.dieDrops die r).cores, ops := (s.dieDrops die r).ops } := by
  unfold State.dieDrops
  split
  · rfl
  · exact dropLines_state _ _ _

theorem core_dieDrops (s : State) (die : Nat) (r : ObjRec) (c : Nat) :
    (s.dieDrops die r).core c = { s.core c with l1 := ((s.dieDrops die r).core c).l1 } ∧
    ∀ l, look ((s.dieDrops die r).core c).l1 l =
      if r.rol = true ∧ c / 136 = die ∧ (lineInSlot s r.slotA l = true ∨ lineInSlot s r.slotB l = true) then none else look (s.core c).l1 l := by
  unfold State.dieDrops
  cases hrol : r.rol
  · exact ⟨rfl, fun l => by simp⟩
  rw [if_neg (by decide), core_dropLines]
  simp only [mem_dieCores]
  split
  · next hc =>
    refine ⟨rfl, fun l => ?_⟩
    rw [look_filter fun a => !slotLines s r a]
    cases hA : lineInSlot s r.slotA l <;> cases hB : lineInSlot s r.slotB l <;> simp [hc, slotLines, hA, hB]
  · next hc => exact ⟨rfl, fun l => by simp [hc]⟩

theorem publishInvalidateDie_swapped {s : State} {n die : Nat} {p : Pub} (h : look s.pkg.pubs n = some p) (hs : p.swapped = true) (hd : die ∈ p.waiting) :
    exec (.publishInvalidateDie n die) s =
      .next ((s.dieDrops die (parseRecord p.oldRecord)).setPub n (some { p with waiting := p.waiting.filter (· != die) })) := by
  refine (onPub_eq h _).trans (congrArg Host.Outcome.next ?_)
  exact if_neg (by simp [hs, hd])

/-! Every die has acknowledged (01 R31 step 7, R36) -/

/-- PUB has the new generation in its register, and ends (07 R174). -/
theorem publishComplete_pub {s : State} {n id d : Nat} {p : Pub} {o : Op} {st : Strand} (h : look s.pkg.pubs n = some p) (hs : p.swapped = true)
    (hw : p.waiting = []) (hp : p.op = some id) (hop : s.op id = some o) (hd : o.sregs = [d]) (hst : s.strand o.strand = some st) :
    exec (.publishComplete n) s = .next (((s.setPub n none).setStrand o.strand (st.setS d (BitVec.ofNat 32 p.newGen))).finishOp id) := by
  refine (onPub_eq h _).trans (congrArg Host.Outcome.next ?_)
  refine (if_neg (by simp [hs, hw])).trans ?_
  rw [hp]
  dsimp only
  rw [show (s.setPub n none).op id = some o from hop]
  dsimp only
  rw [hd, onStrand_of_some (show (s.setPub n none).strand o.strand = some st from hst)]
  rfl

/-- The port has its completion and its notice (01 R36). -/
theorem publishComplete_port {s : State} {n : Nat} {p : Pub} (h : look s.pkg.pubs n = some p) (hs : p.swapped = true)
    (hw : p.waiting = []) (hp : p.op = none) :
    exec (.publishComplete n) s = .next (({ s.setPub n none with pkg := { (s.setPub n none).pkg with
      win := { s.win with opstat := (s.win.opstat &&& ~~~3#64) ||| 2#64 } } } : State).postInterrupt 3 p.ctx (p.obj % 65536) p.newGen) := by
  refine (onPub_eq h _).trans (congrArg Host.Outcome.next ?_)
  refine (if_neg (by simp [hs, hw])).trans ?_
  rw [hp]
  dsimp only
  rw [State.opstat, show (s.setPub n none).win = s.win from rfl, opstat_done]
  rfl

theorem writesUniform_setS (st : Strand) (d v id : Nat) (fin : Tab Word) :
    WritesUniform st { (st.setS d (BitVec.ofNat 32 v)).withoutOp id with finishedB := fin } d 1 v := by
  refine ⟨fun c => (Strand.sreg_setS st d c _).trans ?_, fun _ _ _ => rfl, fun _ => rfl⟩
  by_cases hc : c = d
  · subst hc
    simp
  · rw [if_neg hc, if_neg (by omega)]

/-- A publish that has swapped its slots: the dies that it waits for, the record as it was, and the new generation. -/
def Pub.swap (p : Pub) (s : State) (q : ObjRec) (rec0 : Nat) : Pub :=
  { p with swapped := true, waiting := s.dieSet, oldRecord := s.sysRead rec0 128, newGen := (q.current.gen + 1) % 2 ^ 32 }

theorem swapSlots_pkg (s : State) (n : Nat) (p : Pub) (q : ObjRec) (rec0 : Nat) :
    (s.swapSlots n p q rec0).pkg = { s.pkg with
      pubs := upd s.pkg.pubs n (some (p.swap s q rec0))
      unretired := (if p.op.isNone then s.pkg.unretired.map fun u => { u with port := false } else s.pkg.unretired) ++
        [{ ctx := p.ctx, obj := p.obj, gen := q.current.gen, port := p.op.isNone }] } := rfl

theorem swapSlots_state (s : State) (n : Nat) (p : Pub) (q : ObjRec) (rec0 : Nat) :
    s.swapSlots n p q rec0 = { s with mem := (s.swapSlots n p q rec0).mem, pkg := (s.swapSlots n p q rec0).pkg } := rfl

/-- The generation that the swap makes current stands in its slot. -/
theorem swapSlots_gen {s : State} (n : Nat) (p : Pub) (q : ObjRec) {rec0 : Nat} (h : spread s rec0 128) :
    (s.swapSlots n p q rec0).sysNat (rec0 + (if q.cur then 64 else 96) + 16) 4 = (q.current.gen + 1) % 2 ^ 32 := by
  refine (show _ = (swapWrites s rec0 (rec0 + (if q.cur then 64 else 96) + 16) _).sysNat _ 4 from rfl).trans ?_
  cases q.cur
  · exact swapWrites_gen (slot := 112) h (by decide) (by decide) (Nat.mod_lt _ (by decide))
  · exact swapWrites_gen (slot := 80) h (by decide) (by decide) (Nat.mod_lt _ (by decide))

/-- The die that acknowledges is waited for no longer. -/
def Pub.acked (p : Pub) (die : Nat) : Pub := { p with waiting := p.waiting.filter (· != die) }

/-- Settles O40: each step of a publish is its equation above, and what the equation's right side leaves alone is read off it. -/
theorem publishes : Obligations.Publishes := by
  unfold Obligations.Publishes
  intro s n p hp
  refine ⟨fun hnew hfirst => ⟨fun hok => ?_, fun hport hbad => ?_⟩, ?_, fun die hs hd => ?_,
    fun hs hw => ⟨fun id o d st hop ho hd htags hst => ?_, fun hport => ?_⟩⟩
  · refine ⟨_, publishRequest_first hp hnew hfirst, ?_⟩
    rw [if_neg]
    · exact setPub_onlyPub _ _ _
    · rcases hok with hpub | hok
      · simp [Option.isNone_eq_false_iff.mpr hpub]
      · simp [pubChecks_iff.mpr hok]
  · refine ⟨s.setPub n none, _, publishRequest_first hp hnew hfirst, setPub_onlyPub _ _ _, ?_⟩
    rw [if_pos, portReject_invalid]
    simp [hport, Bool.eq_false_iff.mpr fun h => hbad (pubChecks_iff.mp h)]
  · intro q c hrec hsw hq hc hret hpin hroom hdrain hexp hgood hspread
    let rec0 := c.otbase + p.obj * 128
    have hpubs : (s.swapSlots n p q rec0).pkg.pubs = upd s.pkg.pubs n (some (p.swap s q rec0)) := rfl
    refine ⟨_, publishSwap_ready hp hq hc ⟨hrec, hsw, hret, hpin, hroom, hdrain, hexp, hgood⟩, swapSlots_gen n p q hspread,
      swapWrites_word s _ _ _ hspread, swapWrites_onlyBytes s _ _ _, swapSlots_state .., ?_, ?_, fun j hj => ?_⟩
    · rw [swapSlots_pkg]
      cases p.op <;> rfl
    · rw [hpubs]
      exact look_upd_same _ _ _
    · rw [hpubs]
      exact look_upd_other _ _ hj
  · let u := s.dieDrops die (parseRecord p.oldRecord)
    have hcore := core_dieDrops s die (parseRecord p.oldRecord)
    have hstate : u = { s with cores := u.cores, ops := u.ops } := dieDrops_state s die _
    have hpubs : (u.setPub n (some (p.acked die))).pkg.pubs = upd s.pkg.pubs n (some (p.acked die)) := by rw [hstate]; rfl
    refine ⟨_, publishInvalidateDie_swapped hp hs hd, ?_, fun j hj => ?_, ?_, fun c => hcore c⟩
    · exact (congrArg (look · n) hpubs).trans (look_upd_same _ _ _)
    · exact (congrArg (look · j) hpubs).trans (look_upd_other _ _ hj)
    · rw [dieDrops_state]
      rfl
  · obtain ⟨fin, hdone, hmem, hcores, hbars⟩ :=
      finishOp_completes (s := s.setPub n none) (st1 := st.setS d (BitVec.ofNat 32 p.newGen)) ho htags hst rfl
    exact ⟨s.setPub n none, _, _, publishComplete_pub hp hs hw hop ho hd hst, setPub_onlyPub _ _ _, hdone,
      writesUniform_setS _ _ _ _ _, hmem, hcores, hbars⟩
  · exact ⟨s.setPub n none, setPub_onlyPub _ _ _, publishComplete_port hp hs hw hport⟩

end Sys2Proof.Machine
end

section
/-!
PROOFS. The publish port, retirement, pins, links and Wilmo ports that fail, and corrected errors past their threshold (01 R33, R34, R36; 02 R49,
R50; 14 R369).
-/

namespace Sys2Proof.Machine

/-! The publish port (01 R36) -/

/-- A request while the port is busy is noted. -/
theorem publishPortRequest_busy {s : State} (v : Nat) (hb : s.booted = true) (h : s.win.opstat.getLsbD 0 = true) :
    exec (.publishPortRequest v) s = .next { s with pkg := { s.pkg with win := { s.win with opstat := s.win.opstat ||| 16#64 } } } := by
  have hbusy : bits s.win.opstat.toNat 0 1 = 1 := bits_one_eq_one h
  refine congrArg Host.Outcome.next ((if_neg (by simp [hb])).trans ((if_pos hbusy).trans ?_))
  rw [State.opstat, ofNat_putBits_one _ (by decide)]
  rfl

/-- The request that a write of OPCMD makes (01 R36). -/
def portPub (v : Nat) : Pub := { ctx := v / 2 ^ 24 % 2 ^ 6, obj := v % 2 ^ 24, expGen := some (v / 2 ^ 32 % 2 ^ 32) }

/-- A free port takes the request. -/
theorem publishPortRequest_free {s : State} (v : Nat) (hb : s.booted = true) (h : s.win.opstat.getLsbD 0 = false) :
    exec (.publishPortRequest v) s = .next { s with
      nextId := s.nextId + 1
      pkg := { s.pkg with
        pubs := upd s.pkg.pubs s.nextId (some (portPub v)), portLast := some ((portPub v).ctx, (portPub v).obj)
        win := { s.win with opstat := (s.win.opstat &&& ~~~0xE0#64) ||| 1#64 } } } := by
  have hfree : bits s.win.opstat.toNat 0 1 = 0 := (bits_one_eq_zero_iff _ 0).mpr h
  refine congrArg Host.Outcome.next ((if_neg (by simp [hb])).trans ((if_neg (by rw [hfree]; decide)).trans ?_))
  rw [← opstat_taken, portPub, ← bits_from_zero v 24]
  rfl

/-! Retirement and pins (01 R33, R34) -/

theorem foldl_add_zero {α : Type} {l : List α} {f : α → Nat} (h : ∀ x ∈ l, f x = 0) (n : Nat) : l.foldl (fun n x => n + f x) n = n := by
  induction l generalizing n with
  | nil => rfl
  | cons x l ih =>
    rw [List.foldl_cons, h x List.mem_cons_self]
    exact ih (fun y hy => h y (List.mem_cons_of_mem x hy)) n

/-- No translation of a generation is in flight on any die. -/
theorem inFlight_zero {s : State} {ctx obj gen : Nat}
    (h : ∀ x ∈ s.ops, ∀ g ∈ x.2.gens, ¬ (g.ctx = ctx ∧ g.obj = obj ∧ g.gen = gen ∧ g.shadow = false)) (d : Nat) :
    inFlight s d ctx obj gen = 0 := by
  refine foldl_add_zero (fun x hx => ?_) 0
  rw [List.length_eq_zero_iff, List.filter_eq_nil_iff]
  intro g hg
  have hg' := h x hx g hg
  simp only [Bool.and_eq_true, beq_iff_eq, Bool.not_eq_true']
  exact fun ⟨⟨⟨⟨_, hc⟩, ho⟩, hgen⟩, hs⟩ => hg' ⟨hc, ho, hgen, hs⟩

/-- The state without a retired generation. -/
def State.retired (s : State) (u : Unretired) : State := { s with pkg := { s.pkg with unretired := s.pkg.unretired.filter (· != u) } }

theorem generationRetired_idle {s : State} {ctx obj : Nat} {u : Unretired} (hu : (s.pkg.unretired.find? fun x => x.ctx == ctx && x.obj == obj) = some u)
    (hpin : pinnedGen s ctx obj u.gen = false)
    (hfly : ∀ x ∈ s.ops, ∀ g ∈ x.2.gens, ¬ (g.ctx = ctx ∧ g.obj = obj ∧ g.gen = u.gen ∧ g.shadow = false))
    (hpub : ∀ x ∈ s.pkg.pubs, ¬ (x.2.swapped = true ∧ x.2.ctx = ctx ∧ x.2.obj = obj)) :
    exec (.generationRetired ctx obj) s = .next (if u.port = false then s.retired u
      else ({ s.retired u with pkg := { (s.retired u).pkg with win := { s.win with opstat := s.win.opstat ||| 4#64 } } } : State).postInterrupt 4 ctx
        (obj % 65536) (curGen (s.retired u))) := by
  have hnone : ([0, 1, 2, 3].map fun d => inFlight s d ctx obj u.gen).foldl (· + ·) 0 = 0 := by simp [inFlight_zero hfly]
  have hpubs : (s.pkg.pubs.any fun p => p.2.swapped && p.2.ctx == ctx && p.2.obj == obj) = false := by
    rw [List.any_eq_false]
    intro x hx
    simpa [and_assoc] using hpub x hx
  refine congrArg Host.Outcome.next ?_
  rw [hu]
  dsimp only
  rw [hpin, hnone, hpubs, if_neg (by decide)]
  cases u.port
  · rfl
  · rw [if_pos rfl, if_neg (by decide), State.opstat, ofNat_putBits_one _ (by decide)]
    rfl

theorem mem_pinRelease {s : State} {ctx obj gen : Nat} {p : Pin} :
    (p ∈ s.pkg.pins.filter fun p => !(p.ctx == ctx && p.obj == obj && p.gen == gen && p.count == 0)) ↔
      p ∈ s.pkg.pins ∧ ¬ (p.ctx = ctx ∧ p.obj = obj ∧ p.gen = gen ∧ p.count = 0) := by
  simp only [List.mem_filter, Bool.not_eq_true', Bool.and_eq_false_iff, beq_eq_false_iff_ne, not_and_or, ne_eq, or_assoc]

/-! Links and ports (02 R49, R50) -/

/-- The links that are down after a link has failed. -/
theorem dieLinkFailure_links (s : State) {l : Nat} (h : l < 4) : ∃ t, exec (.dieLinkFailure l) s = .next t ∧ l ∈ t.pkg.badLinks ∧
    t = { s with pkg := { s.pkg with badLinks := t.pkg.badLinks } } ∧ ∀ j, j ≠ l → (j ∈ t.pkg.badLinks ↔ j ∈ s.pkg.badLinks) := by
  by_cases hl : l ∈ s.pkg.badLinks
  · exact ⟨s, congrArg Host.Outcome.next (if_pos (by simp [hl])), hl, rfl, fun _ _ => Iff.rfl⟩
  · refine ⟨_, congrArg Host.Outcome.next (if_neg (by simp [hl, h])), List.mem_append_right _ List.mem_cons_self, rfl, fun j hj => ?_⟩
    rw [State.setPkg]
    simp [hj]

/-- CAPS with one port fewer (02 R50, 16 R391). -/
theorem caps_dropPort {caps : Nat} (h : 0 < caps / 2 ^ 26 % 2 ^ 5) :
    BitVec.ofNat 64 (putBits caps 26 5 (bits caps 26 5 - 1)) = BitVec.ofNat 64 caps - (1#64 <<< 26) := by
  have hput : putBits caps 26 5 (bits caps 26 5 - 1) = caps - 2 ^ 26 := by
    unfold putBits bits
    omega
  rw [hput]
  exact (BitVec.ofNat_sub_ofNat_of_le caps (2 ^ 26) (by decide) (by omega)).symm

theorem dropPort_of_use {s : State} {p : Nat} (hp : p < 18) (hin : p ∉ s.pkg.badPorts) (h : 0 < s.caps / 2 ^ 26 % 2 ^ 5) :
    s.dropPort p = { s with pkg := { s.pkg with
      badPorts := s.pkg.badPorts ++ [p]
      win := { s.win with caps := BitVec.ofNat 64 s.caps - (1#64 <<< 26) } } } := by
  rw [State.dropPort, if_neg (by simp [hin, hp])]
  dsimp only
  rw [caps_dropPort h]
  rfl

/-! Counted errors (14 R369) -/

/-- The units of a die whose counts exceed the limit and that have not failed in this window. -/
def Die.overLimit (d : Die) (limit : Nat) : List Nat := (d.errors.filter fun e => decide (limit < e.2) && !d.failed.contains e.1).map (·.1)
/-- They fail. -/
def State.overStep (s : State) (limit d : Nat) : State :=
  if ((s.die d).overLimit limit).isEmpty then s
  else ((s.die d).overLimit limit).foldl (fun (s : State) key => s.unitFails (key / 2 ^ 32) (key % 2 ^ 32))
    (s.setDie d { s.die d with failed := (s.die d).failed ++ (s.die d).overLimit limit })

theorem overThreshold_eq (s : State) : s.overThreshold = s.dieSet.foldl (·.overStep (bits s.win.rascfg.toNat 0 16) ·) s := rfl

theorem overStep_none {limit : Nat} {s : State} {d : Nat} (h : (s.die d).overLimit limit = []) : s.overStep limit d = s := by
  unfold State.overStep
  exact if_pos (by simp [h])

theorem foldl_overStep_none {limit : Nat} {s : State} {ds : List Nat} (h : ∀ d ∈ ds, (s.die d).overLimit limit = []) :
    ds.foldl (·.overStep limit ·) s = s := by
  induction ds with
  | nil => rfl
  | cons d ds ih =>
    rw [List.foldl_cons, overStep_none (h d List.mem_cons_self)]
    exact ih fun x hx => h x (List.mem_cons_of_mem d hx)

/-- A die whose unit has failed. -/
def Die.fails (d : Die) (key : Nat) : Die := { d with failed := d.failed ++ [key] }

theorem overLimit_fails {d : Die} {limit key : Nat} (h : d.overLimit limit = [key]) : (d.fails key).overLimit limit = [] := by
  have hfilter : ∀ e ∈ d.errors, limit < e.2 → e.1 ∉ d.failed → e.1 = key := by
    intro e he hlt hin
    have hmem : e.1 ∈ d.overLimit limit := List.mem_map.mpr ⟨e, List.mem_filter.mpr ⟨he, by simp [hlt, hin]⟩, rfl⟩
    rw [h] at hmem
    exact List.mem_singleton.mp hmem
  rw [Die.overLimit, List.map_eq_nil_iff, List.filter_eq_nil_iff]
  intro e he hover
  simp only [Die.fails, Bool.and_eq_true, decide_eq_true_eq, Bool.not_eq_true', List.contains_eq_mem, decide_eq_false_iff_not, List.mem_append,
    List.mem_singleton, not_or] at hover
  exact hover.2.2 (hfilter e he hover.1 hover.2.1)

/-- One unit of one die fails, where its failure leaves the counts as they are. -/
theorem foldl_overStep_one {limit die key : Nat} {s t : State} {ds : List Nat} (hdie : die ∈ ds) (hone : (s.die die).overLimit limit = [key])
    (hothers : ∀ d ∈ ds, d ≠ die → (s.die d).overLimit limit = [])
    (ht : (s.setDie die ((s.die die).fails key)).unitFails (key / 2 ^ 32) (key % 2 ^ 32) = t) (hdies : t.dies = (s.setDie die ((s.die die).fails key)).dies) :
    ds.foldl (·.overStep limit ·) s = t := by
  have hdieOf (d : Nat) : t.die d = if d = die then (s.die die).fails key else s.die d := by
    rw [← State.die_setDie, State.die, hdies]
    rfl
  induction ds with
  | nil => cases hdie
  | cons d ds ih =>
    rw [List.foldl_cons]
    by_cases hd : d = die
    · subst hd
      have hstep : s.overStep limit d = t := by
        rw [State.overStep, hone, if_neg (by simp)]
        exact ht
      rw [hstep]
      refine foldl_overStep_none fun x hx => ?_
      rw [hdieOf]
      split
      · exact overLimit_fails hone
      · next hne => exact hothers x (List.mem_cons_of_mem d hx) hne
    · rw [overStep_none (hothers d List.mem_cons_self hd)]
      exact ih ((List.mem_cons.mp hdie).resolve_left (Ne.symm hd)) fun x hx => hothers x (List.mem_cons_of_mem d hx)

/-- An error of a unit is counted. -/
def Die.counts (d : Die) (key : Nat) : Die := { d with errors := wr 0 d.errors key (rd 0 d.errors key + 1) }

/-- No unit is over the limit, but for those that have failed in this window and perhaps the one at `key` of die `die`. -/
def WithinLimit (s : State) (limit die key : Nat) : Prop :=
  ∀ d e, d ∈ s.dieSet → e ∈ (s.die d).errors → (d = die ∧ e.1 = key) ∨ e.2 ≤ limit ∨ e.1 ∈ (s.die d).failed

/-- What an error of a unit changes in the dies: its count, and that the units in `fails` have failed. -/
def Counted (s t : State) (die key : Nat) (fails : List Nat) : Prop :=
  (∀ d, d ≠ die → t.die d = s.die d) ∧ t.die die = { s.die die with errors := (t.die die).errors, failed := (s.die die).failed ++ fails } ∧
  ∀ k, rd 0 (t.die die).errors k = if k = key then rd 0 (s.die die).errors key + 1 else rd 0 (s.die die).errors k

theorem overLimit_others {s : State} {limit die key d : Nat} (h : WithinLimit s limit die key) (hd : d ∈ s.dieSet) (hne : d ≠ die) :
    (s.die d).overLimit limit = [] := by
  rw [Die.overLimit, List.map_eq_nil_iff, List.filter_eq_nil_iff]
  intro e he
  rcases h d e hd he with ⟨rfl, _⟩ | hle | hin
  · exact absurd rfl hne
  · simp [Nat.not_lt.mpr hle]
  · simp [hin]

/-- Once its error is counted, a unit fails where its count exceeds the limit and it has not failed in this window. -/
theorem overLimit_counts {s : State} {limit die key : Nat} (h : WithinLimit s limit die key) (hdie : die ∈ s.dieSet)
    (hr : rising none (s.die die).errors = true) :
    ((s.die die).counts key).overLimit limit = if limit < rd 0 (s.die die).errors key + 1 ∧ key ∉ (s.die die).failed then [key] else [] := by
  have hput : ((s.die die).counts key).errors = put (s.die die).errors key (rd 0 (s.die die).errors key + 1) := rfl
  have hothers : ∀ e ∈ (s.die die).errors, e.1 ≠ key → (decide (limit < e.2) && !(s.die die).failed.contains e.1) = false := by
    intro e he hne
    rcases h die e hdie he with ⟨_, hk⟩ | hle | hin
    · exact absurd hk hne
    · simp [Nat.not_lt.mpr hle]
    · simp [hin]
  rw [Die.overLimit, hput]
  refine (congrArg (List.map (·.1)) (filter_put _ hr hothers)).trans ?_
  rw [List.filter_singleton]
  by_cases hlt : limit < rd 0 (s.die die).errors key + 1 <;> by_cases hin : key ∈ (s.die die).failed <;> simp [hlt, hin]

theorem correctedError_eq {s : State} {die cls unit : Nat} (hunit : unit < 2 ^ 32) :
    exec (.correctedError die cls unit) s = .next (s.setDie die ((s.die die).counts (cls * 2 ^ 32 + unit))).overThreshold := by
  refine congrArg Host.Outcome.next ?_
  rw [Nat.mod_eq_of_lt hunit]
  rfl

section
variable {s : State} {die cls unit : Nat}

theorem die_setDie_same (s : State) (n : Nat) (d : Die) : (s.setDie n d).die n = d := (State.die_setDie s n n d).trans (if_pos rfl)

/-- An error within the threshold, or of a unit that has failed in this window, is counted alone. -/
theorem correctedError_within (hunit : unit < 2 ^ 32) (hdie : die ∈ s.dieSet) (hr : rising none (s.die die).errors = true)
    (h : WithinLimit s (s.win.rascfg.toNat % 2 ^ 16) die (cls * 2 ^ 32 + unit))
    (hno : ¬ (s.win.rascfg.toNat % 2 ^ 16 < rd 0 (s.die die).errors (cls * 2 ^ 32 + unit) + 1 ∧ cls * 2 ^ 32 + unit ∉ (s.die die).failed)) :
    exec (.correctedError die cls unit) s = .next (s.setDie die ((s.die die).counts (cls * 2 ^ 32 + unit))) := by
  rw [correctedError_eq hunit, overThreshold_eq]
  refine congrArg Host.Outcome.next (foldl_overStep_none fun d hd => ?_)
  rw [bits_from_zero, State.die_setDie]
  split
  · exact (overLimit_counts h hdie hr).trans (if_neg hno)
  · next hne => exact overLimit_others h hd hne

/-- The state in which the unit at `key` of a die fails: its error is counted, and that it has failed is noted. -/
def State.unitFailing (s : State) (die key : Nat) : State :=
  (s.setDie die ((s.die die).counts key)).setDie die (((s.die die).counts key).fails key)

/-- A unit past the threshold fails, where its failure leaves the counts as they are. -/
theorem correctedError_past {t : State} (hunit : unit < 2 ^ 32) (hdie : die ∈ s.dieSet) (hr : rising none (s.die die).errors = true)
    (h : WithinLimit s (s.win.rascfg.toNat % 2 ^ 16) die (cls * 2 ^ 32 + unit))
    (hlt : s.win.rascfg.toNat % 2 ^ 16 < rd 0 (s.die die).errors (cls * 2 ^ 32 + unit) + 1) (hin : cls * 2 ^ 32 + unit ∉ (s.die die).failed)
    (ht : (s.unitFailing die (cls * 2 ^ 32 + unit)).unitFails cls unit = t) (hdies : t.dies = (s.unitFailing die (cls * 2 ^ 32 + unit)).dies) :
    exec (.correctedError die cls unit) s = .next t := by
  rw [correctedError_eq hunit, overThreshold_eq]
  have hcls : (cls * 2 ^ 32 + unit) / 2 ^ 32 = cls := by omega
  have hmod : (cls * 2 ^ 32 + unit) % 2 ^ 32 = unit := by omega
  have hself : ((s.setDie die ((s.die die).counts (cls * 2 ^ 32 + unit))).die die) = (s.die die).counts (cls * 2 ^ 32 + unit) := die_setDie_same _ _ _
  refine congrArg Host.Outcome.next (foldl_overStep_one (key := cls * 2 ^ 32 + unit) hdie ?_ (fun d hd hne => ?_) ?_ ?_)
  · rw [bits_from_zero, hself]
    exact (overLimit_counts h hdie hr).trans (if_pos ⟨hlt, hin⟩)
  · rw [bits_from_zero, State.die_setDie, if_neg hne]
    exact overLimit_others h hd hne
  · rw [hcls, hmod, hself]
    exact ht
  · rw [hself]
    exact hdies

theorem counted_within (s : State) (die key : Nat) : Counted s (s.setDie die ((s.die die).counts key)) die key [] := by
  refine ⟨fun d hd => (State.die_setDie _ _ _ _).trans (if_neg hd), ?_, fun k => ?_⟩
  · rw [die_setDie_same, List.append_nil]
    rfl
  · rw [die_setDie_same]
    exact rd_wr 0 (s.die die).errors key k (rd 0 (s.die die).errors key + 1)

theorem counted_past {s t : State} {die key : Nat} (h : t.dies = (s.unitFailing die key).dies) : Counted s t die key [key] := by
  have hdie (d : Nat) : t.die d = if d = die then ((s.die die).counts key).fails key else s.die d := by
    rw [show t.die d = (s.unitFailing die key).die d by rw [State.die, h]; rfl, State.unitFailing, State.die_setDie]
    split
    · rfl
    · next hne => rw [State.die_setDie, if_neg hne]
  refine ⟨fun d hd => (hdie d).trans (if_neg hd), ?_, fun k => ?_⟩
  · rw [hdie, if_pos rfl]
    rfl
  · rw [hdie, if_pos rfl]
    exact rd_wr 0 (s.die die).errors key k (rd 0 (s.die die).errors key + 1)

end

/-! What a failing unit's class asks for (14 R369) -/

theorem postInterrupt_dies (s : State) (kind ctx info data : Nat) : (s.postInterrupt kind ctx info data).dies = s.dies := by
  unfold State.postInterrupt
  dsimp only
  split
  · rfl
  · split
    · split
      · rfl
      · rw [State.setPkg_dies]
    · rw [State.setPkg_dies]

/-- The package once a unit is out of use: it is named in the boot log (16 R394). -/
def Pkg.without (p : Pkg) (cls unit : Nat) : Pkg :=
  { p with excluded := p.excluded ++ [(cls, unit)]
           bootLog := logAppend p.bootLog (BitVec.ofNat 128 (8 + cls * 2 ^ 8 + 2 ^ 16 + p.boots % 2 ^ 32 * 2 ^ 32 + unit * 2 ^ 64)) }

theorem logEntry_excluded {cls boots unit : Nat} (h : unit < 2 ^ 32) :
    logEntry 8 cls 1 boots unit = BitVec.ofNat 128 (8 + cls * 2 ^ 8 + 2 ^ 16 + boots % 2 ^ 32 * 2 ^ 32 + unit * 2 ^ 64) := by
  rw [logEntry, Nat.mod_eq_of_lt (b := 2 ^ 64) (by omega), Nat.one_mul]

theorem exclude_new {s : State} {cls unit : Nat} (hunit : unit < 2 ^ 32) (hout : (cls, unit) ∉ s.pkg.excluded) (hcls : cls ≠ 2) :
    s.exclude cls unit = { s with pkg := s.pkg.without cls unit } := by
  rw [State.exclude, if_neg (by simp [hout])]
  dsimp only
  rw [if_neg hcls, logEntry_excluded hunit]
  rfl

/-- A way that leaves an L1: the lines that the others do not hold go. -/
def State.withoutWay (s : State) (unit : Nat) : State :=
  let s1 : State := { s with pkg := s.pkg.without 2 unit }
  s1.onCore (unit / 12) fun c => { c with l1 := trimL1 (s1.waysOf (unit / 12)) c.l1 }

theorem exclude_way {s : State} {unit : Nat} (hunit : unit < 2 ^ 32) (hout : (2, unit) ∉ s.pkg.excluded) : s.exclude 2 unit = s.withoutWay unit := by
  rw [State.exclude, if_neg (by simp [hout])]
  dsimp only
  rw [if_pos rfl, logEntry_excluded hunit]
  rfl

theorem core_withoutWay (s : State) (unit c : Nat) :
    (s.withoutWay unit).core c = if c = unit / 12 then { s.core c with l1 := trimL1 ((s.withoutWay unit).waysOf c) (s.core c).l1 } else s.core c := by
  refine (State.core_setCore _ _ _ _).trans ?_
  split
  · next h =>
    subst h
    rfl
  · rfl

/-- What a failure that takes no gang off its unit does. -/
theorem unitFails_acts {s : State} {cls unit : Nat} (hact : s.win.rascfg.getLsbD 16 = true) (hg : ∀ x ∈ s.gangs, s.onUnit cls unit x.1 x.2 = false) :
    s.unitFails cls unit = s.unitActs cls unit := by
  have hne : bits s.win.rascfg.toNat 16 1 ≠ 0 := fun h => absurd hact (by rw [(bits_one_eq_zero_iff _ 16).mp h]; decide)
  rw [State.unitFails, if_neg hne, if_neg]
  simp only [List.any_eq_true, not_exists, not_and, Bool.not_eq_true]
  exact hg

theorem unitFails_notice {s : State} {cls unit : Nat} (hact : s.win.rascfg.getLsbD 16 = false) : s.unitFails cls unit = s.postInterrupt 6 0 cls unit :=
  if_pos ((bits_one_eq_zero_iff _ 16).mpr hact)

theorem unitActs_excluded {s : State} {cls unit : Nat} (hcls : cls < 3 ∨ cls = 4) :
    s.unitActs cls unit = (s.exclude cls unit).postInterrupt 6 0 cls unit := by
  rw [State.unitActs, if_neg (by omega), if_neg (by omega)]
  rfl

theorem unitActs_link {s : State} {unit : Nat} (h : unit < 4) : s.unitActs 6 unit = s.postInterrupt 6 0 6 unit := by
  rw [State.unitActs, if_neg (by decide), if_pos rfl, unitPort, if_neg (by omega)]
  rfl

theorem unitActs_port {s : State} {unit : Nat} (h : 4 ≤ unit) :
    s.unitActs 6 unit = ((s.dropPort (unit - 4)).exclude 6 unit).postInterrupt 6 0 6 unit := by
  rw [State.unitActs, if_neg (by decide), if_pos rfl, unitPort, if_pos ⟨rfl, h⟩]
  rfl

/-- Where the rows of a unit of class 3 or 5 that have been spared are counted, and how many rows are there. -/
def spareKey (cls unit : Nat) : Nat := cls * 2 ^ 32 + spareOwner cls unit
def spareRowsOf (cls unit : Nat) : Nat := Config.spareRows cls (spareOwner cls unit)

/-- The count of spared rows after one more where a spare row is left. -/
def Pkg.sparedAfter (p : Pkg) (cls unit : Nat) : Tab Nat :=
  if rd 0 p.spared (spareKey cls unit) < spareRowsOf cls unit then wr 0 p.spared (spareKey cls unit) (rd 0 p.spared (spareKey cls unit) + 1) else p.spared

theorem rd_sparedAfter (p : Pkg) (cls unit k : Nat) : rd 0 (p.sparedAfter cls unit) k =
    rd 0 p.spared k + (if k = spareKey cls unit ∧ rd 0 p.spared (spareKey cls unit) < spareRowsOf cls unit then 1 else 0) := by
  unfold Pkg.sparedAfter
  by_cases h : rd 0 p.spared (spareKey cls unit) < spareRowsOf cls unit
  · rw [if_pos h, rd_wr]
    by_cases hk : k = spareKey cls unit <;> simp [hk, h]
  · simp [h]

/-- A row is spared, and with the last one the unit leaves the package. -/
theorem unitActs_spared {s : State} {cls unit : Nat} (hcls : cls = 3 ∨ cls = 5) (hunit : unit < 2 ^ 32) (hout : (cls, unit) ∉ s.pkg.excluded) :
    s.unitActs cls unit = ({ s with pkg := {
      (if rd 0 s.pkg.spared (spareKey cls unit) + 1 = spareRowsOf cls unit then s.pkg.without cls unit else s.pkg) with
      spared := s.pkg.sparedAfter cls unit } } : State).postInterrupt 6 0 cls unit := by
  have hspared : (if rd 0 s.pkg.spared (spareKey cls unit) < spareRowsOf cls unit
      then s.setPkg { s.pkg with spared := wr 0 s.pkg.spared (spareKey cls unit) (rd 0 s.pkg.spared (spareKey cls unit) + 1) } else s) =
      { s with pkg := { s.pkg with spared := s.pkg.sparedAfter cls unit } } := by
    unfold Pkg.sparedAfter
    split <;> rfl
  rw [State.unitActs, if_pos hcls]
  refine congrArg (State.postInterrupt · 6 0 cls unit) ?_
  refine (congrArg (fun t : State => if rd 0 s.pkg.spared (spareKey cls unit) + 1 = spareRowsOf cls unit then t.exclude cls unit else t) hspared).trans ?_
  dsimp only
  split
  · exact exclude_new (s := { s with pkg := { s.pkg with spared := s.pkg.sparedAfter cls unit } }) hunit hout (by omega)
  · rfl

/-! The waits of gangs that are marked for swap (12 R306, R307) -/

/-- The CLAIMs of a strand leave the queues of its core. -/
def State.dropWaits (s : State) (k : Nat) : State :=
  s.onCore (coreOf k) fun c => c.dropClaims (dieCycle (coreDie (coreOf k)) s.now) (·.2.strand == k)

/-- Where no strand waits for a joint operation, withdrawing takes CLAIMs alone. -/
theorem withdrawAll_claims {s : State} {ks : List Nat} (h : ∀ k ∈ ks, s.unmatched k = []) : s.withdrawAll ks = ks.foldl State.dropWaits s := by
  have hone (u : State) (hu : u.ops = s.ops) : ks.foldl (fun (s : State) k => (s.unmatched k).foldl (fun (s : State) id => s.withdraw id) (s.dropWaits k)) u =
      ks.foldl State.dropWaits u := by
    induction ks generalizing u with
    | nil => rfl
    | cons k ks ih =>
      have hk : u.unmatched k = [] := by
        rw [← h k List.mem_cons_self]
        unfold State.unmatched
        rw [hu]
      rw [List.foldl_cons, List.foldl_cons, hk]
      exact ih (fun j hj => h j (List.mem_cons_of_mem k hj)) (u.dropWaits k) hu
  have hteams : (ks.filter fun k => !(s.unmatched k).isEmpty) = [] := by
    rw [List.filter_eq_nil_iff]
    intro k hk
    simp [h k hk]
  rw [← hone s rfl]
  unfold State.withdrawAll
  dsimp only
  rw [hteams]
  rfl

/-- Which CLAIMs stay, where their strands say it. -/
theorem claims_dropClaims (c : Core) (now k : Nat) :
    (c.dropClaims now (·.2.strand == k)).claims.map claimOf = (c.claims.map claimOf).filter fun x => x.2.1 != k := by
  unfold Core.dropClaims
  dsimp only
  rw [List.map_map, List.filter_map]
  refine List.map_congr_left fun r _ => ?_
  simp only [Function.comp_apply]
  split <;> rfl

theorem core_dropWaits (s : State) (k c : Nat) : (s.dropWaits k).core c = { s.core c with claims := ((s.dropWaits k).core c).claims } ∧
    ((s.dropWaits k).core c).claims.map claimOf = ((s.core c).claims.map claimOf).filter fun x => !(k == x.2.1 && coreOf k == c) := by
  rw [show (s.dropWaits k).core c = _ from State.core_setCore _ _ _ _]
  split
  · next hc =>
    subst hc
    refine ⟨rfl, (claims_dropClaims _ _ _).trans (List.filter_congr fun x _ => ?_)⟩
    simp [bne, Bool.beq_eq_decide_eq, eq_comm]
  · next hc =>
    refine ⟨rfl, (List.filter_eq_self.mpr fun x _ => ?_).symm⟩
    simp [Ne.symm hc]

theorem foldl_dropWaits_state (s : State) (ks : List Nat) : ks.foldl State.dropWaits s = { s with cores := (ks.foldl State.dropWaits s).cores } := by
  induction ks generalizing s with
  | nil => rfl
  | cons k ks ih => exact ih (s.dropWaits k)

theorem core_foldl_dropWaits (s : State) (ks : List Nat) (c : Nat) :
    (ks.foldl State.dropWaits s).core c = { s.core c with claims := ((ks.foldl State.dropWaits s).core c).claims } ∧
    ((ks.foldl State.dropWaits s).core c).claims.map claimOf =
      ((s.core c).claims.map claimOf).filter fun x => !ks.any fun k => k == x.2.1 && coreOf k == c := by
  induction ks generalizing s with
  | nil => exact ⟨rfl, by simp⟩
  | cons k ks ih =>
    obtain ⟨hrest, hclaims⟩ := ih (s.dropWaits k)
    obtain ⟨hrest', hclaims'⟩ := core_dropWaits s k c
    refine ⟨hrest.trans (by rw [hrest']; rfl), hclaims.trans ?_⟩
    rw [hclaims', List.filter_filter]
    refine List.filter_congr fun x _ => ?_
    rw [List.any_cons, Bool.not_or, Bool.and_comm]

/-- The strands of a gang, in lanes, that no handler runs on. -/
def laneStrands (s : State) (m : Nat) : List Nat :=
  (s.strands.filter fun x => x.2.gang == m && x.2.mode != .handler && decide (slotOf x.1 < 384)).map (·.1)

/-- The one gang is marked, and its waits are withdrawn. -/
theorem markSwap_one {s : State} {hit : Nat → Gang → Bool} {m : Nat} {g : Gang} (hg : s.gangs = [(m, g)]) (hhit : hit m g = true)
    (hres : g.resident = true) : s.markSwap hit = ({ s with gangs := [(m, { g with swap := true })] } : State).withdrawAll (laneStrands s m) := by
  unfold State.markSwap laneStrands
  dsimp only
  rw [hg]
  simp only [List.filter_cons, List.map_cons, List.map_nil, List.filter_nil, hhit, hres, Bool.true_and, Bool.true_or, if_true, List.contains_cons,
    List.contains_nil, Bool.or_false]

theorem any_laneStrands {s : State} (hr : rising none s.strands = true) (m k c : Nat) :
    ((laneStrands s m).any fun j => j == k && coreOf j == c) =
      (s.strand k).any fun st => st.gang == m && st.mode != .handler && decide (slotOf k < 384 ∧ coreOf k = c) := by
  rw [Bool.eq_iff_iff]
  simp only [laneStrands, List.any_eq_true, List.mem_map, List.mem_filter, Option.any_eq_true, Bool.and_eq_true, beq_iff_eq, decide_eq_true_eq]
  constructor
  · rintro ⟨j, ⟨x, ⟨hx, hgang, hslot⟩, rfl⟩, rfl, hc⟩
    exact ⟨x.2, look_of_mem hr hx, hgang, hslot, hc⟩
  · rintro ⟨st, hst, hgang, hslot, hc⟩
    exact ⟨k, ⟨(k, st), ⟨mem_of_look hst, hgang, hslot⟩, rfl⟩, rfl, hc⟩

/-- Marking the one gang, where no strand waits for a joint operation. -/
theorem markSwap_withdraws {s : State} {hit : Nat → Gang → Bool} {m : Nat} {g : Gang} (hg : s.gangs = [(m, g)]) (hhit : hit m g = true)
    (hres : g.resident = true) (hr : rising none s.strands = true) (hun : noneUnmatched s) :
    Withdraws s (s.markSwap hit) (· == m) ∧
      s.markSwap hit = { s with cores := (s.markSwap hit).cores, gangs := [(m, { g with swap := true })] } := by
  have hks : ∀ k ∈ laneStrands s m, ({ s with gangs := [(m, { g with swap := true })] } : State).unmatched k = [] := by
    intro k hk
    obtain ⟨x, hx, rfl⟩ := List.mem_map.mp hk
    exact hun x (List.mem_filter.mp hx).1
  rw [markSwap_one hg hhit hres, withdrawAll_claims hks]
  refine ⟨⟨fun c => (core_foldl_dropWaits _ _ c).1, fun c => (core_foldl_dropWaits _ _ c).2.trans ?_⟩, foldl_dropWaits_state _ _⟩
  rw [List.filter_map]
  refine congrArg (List.map claimOf) (List.filter_congr fun x _ => ?_)
  exact congrArg (!·) (any_laneStrands hr m x.2.strand c)

/-! What an error that is corrected does, by the class of its unit -/

theorem resident_of_onUnit {s : State} {cls unit m : Nat} {g : Gang} (h : s.onUnit cls unit m g = true) : g.resident = true := by
  unfold State.onUnit at h
  split at h
  · simp only [Bool.and_eq_true] at h
    exact h.1.1
  · cases h

/-- A new window counts from 0 (14 R369). -/
theorem softErrorWindow_clears (s : State) (die : Nat) : ∃ t, exec (.softErrorWindow die) s = .next t ∧ t = { s with dies := t.dies } ∧
    (t.die die).errors = [] ∧ (t.die die).failed = [] ∧ t.die die = { s.die die with errors := (t.die die).errors, failed := (t.die die).failed } ∧
    ∀ d, d ≠ die → t.die d = s.die d := by
  refine ⟨s.setDie die { s.die die with errors := [], failed := [] }, rfl, rfl, ?_, ?_, ?_, fun d hd => (State.die_setDie _ _ _ _).trans (if_neg hd)⟩
  all_goals rw [die_setDie_same]

section
variable {s : State} {die cls unit : Nat}

/-- An error that takes the count of a unit past the threshold: what is known of it. -/
structure PastThreshold (s : State) (die cls unit : Nat) : Prop where
  unit_lt : unit < 2 ^ 32
  die_mem : die ∈ s.dieSet
  sorted : rising none (s.die die).errors = true
  within : WithinLimit s (s.win.rascfg.toNat % 2 ^ 16) die (cls * 2 ^ 32 + unit)
  past : s.win.rascfg.toNat % 2 ^ 16 < rd 0 (s.die die).errors (cls * 2 ^ 32 + unit) + 1
  fresh : cls * 2 ^ 32 + unit ∉ (s.die die).failed

/-- The unit has failed, with its class's action and the notice, and t is what the action leaves. -/
def Acted (s : State) (die cls unit : Nat) (t : State) : Prop :=
  exec (.correctedError die cls unit) s = .next (t.postInterrupt 6 0 cls unit) ∧ Counted s t die (cls * 2 ^ 32 + unit) [cls * 2 ^ 32 + unit]

theorem acted_of_unitFails {t : State} (h : PastThreshold s die cls unit)
    (ht : (s.unitFailing die (cls * 2 ^ 32 + unit)).unitFails cls unit = t.postInterrupt 6 0 cls unit)
    (hdies : t.dies = (s.unitFailing die (cls * 2 ^ 32 + unit)).dies) : Acted s die cls unit t :=
  ⟨correctedError_past h.unit_lt h.die_mem h.sorted h.within h.past h.fresh ht ((postInterrupt_dies ..).trans hdies), counted_past hdies⟩

theorem acted_notice (h : PastThreshold s die cls unit) (hact : s.win.rascfg.getLsbD 16 = false) :
    ∃ t, Acted s die cls unit t ∧ t = { s with dies := t.dies } :=
  ⟨_, acted_of_unitFails h (unitFails_notice hact) rfl, rfl⟩

/-- With ACT, and no gang on the unit: the action of its class. -/
theorem acted_of_unitActs {t : State} (h : PastThreshold s die cls unit) (hact : s.win.rascfg.getLsbD 16 = true)
    (hg : ∀ x ∈ s.gangs, s.onUnit cls unit x.1 x.2 = false)
    (ht : (s.unitFailing die (cls * 2 ^ 32 + unit)).unitActs cls unit = t.postInterrupt 6 0 cls unit)
    (hdies : t.dies = (s.unitFailing die (cls * 2 ^ 32 + unit)).dies) : Acted s die cls unit t :=
  acted_of_unitFails h ((unitFails_acts (s := s.unitFailing die (cls * 2 ^ 32 + unit)) hact hg).trans ht) hdies

variable (h : PastThreshold s die cls unit) (hact : s.win.rascfg.getLsbD 16 = true)
  (hg : ∀ x ∈ s.gangs, s.onUnit cls unit x.1 x.2 = false) (hout : (cls, unit) ∉ s.pkg.excluded)
include h hact hg hout

theorem acted_excluded (hcls : cls < 2 ∨ cls = 4) : ∃ t, Acted s die cls unit t ∧ t = { s with dies := t.dies, pkg := s.pkg.without cls unit } :=
  by
  let u := s.unitFailing die (cls * 2 ^ 32 + unit)
  have hu : u.exclude cls unit = { u with pkg := s.pkg.without cls unit } := exclude_new h.unit_lt hout (by omega)
  exact ⟨_, acted_of_unitActs h hact hg ((unitActs_excluded (by omega)).trans (congrArg (State.postInterrupt · 6 0 cls unit) hu)) rfl, rfl⟩

theorem acted_way (hcls : cls = 2) : ∃ t, Acted s die cls unit t ∧ t = { s with dies := t.dies, cores := t.cores, pkg := s.pkg.without cls unit } ∧
    ∀ c, t.core c = if c = unit / 12 then { s.core c with l1 := trimL1 (t.waysOf c) (s.core c).l1 } else s.core c := by
  subst hcls
  let u := s.unitFailing die (2 * 2 ^ 32 + unit)
  have hu : u.exclude 2 unit = u.withoutWay unit := exclude_way h.unit_lt hout
  exact ⟨_, acted_of_unitActs h hact hg ((unitActs_excluded (by omega)).trans (congrArg (State.postInterrupt · 6 0 2 unit) hu)) rfl, rfl,
    core_withoutWay u unit⟩

theorem acted_spared (hcls : cls = 3 ∨ cls = 5) : ∃ t, Acted s die cls unit t ∧
    t = { s with
      dies := t.dies
      pkg := { (if rd 0 s.pkg.spared (spareKey cls unit) + 1 = spareRowsOf cls unit then s.pkg.without cls unit else s.pkg) with spared := t.pkg.spared } } ∧
    ∀ k, rd 0 t.pkg.spared k =
      rd 0 s.pkg.spared k + (if k = spareKey cls unit ∧ rd 0 s.pkg.spared (spareKey cls unit) < spareRowsOf cls unit then 1 else 0) :=
  ⟨_, acted_of_unitActs h hact hg (unitActs_spared hcls h.unit_lt hout) rfl, rfl, rd_sparedAfter s.pkg cls unit⟩

omit hout in
theorem acted_link (hcls : cls = 6) (hunit : unit < 4) : ∃ t, Acted s die cls unit t ∧ t = { s with dies := t.dies } := by
  subst hcls
  exact ⟨_, acted_of_unitActs h hact hg (unitActs_link hunit) rfl, rfl⟩

theorem acted_port (hcls : cls = 6) (hfour : 4 ≤ unit) (hunit : unit < 22) (hport : unit - 4 ∉ s.pkg.badPorts) (hcaps : 0 < s.caps / 2 ^ 26 % 2 ^ 5) :
    ∃ t, Acted s die cls unit t ∧ t = { s with dies := t.dies, pkg := { s.pkg.without cls unit with
      badPorts := s.pkg.badPorts ++ [unit - 4], win := { s.win with caps := BitVec.ofNat 64 s.caps - (1#64 <<< 26) } } } := by
  subst hcls
  let u := s.unitFailing die (6 * 2 ^ 32 + unit)
  have hdrop := dropPort_of_use (s := u) (p := unit - 4) (by omega) hport hcaps
  have hu := (congrArg (State.exclude · 6 unit) hdrop).trans (exclude_new h.unit_lt hout (by decide))
  refine ⟨_, acted_of_unitActs h hact hg ((unitActs_port hfour).trans (congrArg (State.postInterrupt · 6 0 6 unit) hu)) rfl, rfl⟩

omit hg hout in
/-- The one gang that is on the failing unit is marked for swap. -/
theorem correctedError_marks {m : Nat} {g : Gang} (hone : s.gangs = [(m, g)]) (hon : s.onUnit cls unit m g = true)
    (hr : rising none s.strands = true) (hun : noneUnmatched s) : ∃ t, exec (.correctedError die cls unit) s = .next t ∧
      Counted s t die (cls * 2 ^ 32 + unit) [cls * 2 ^ 32 + unit] ∧ Withdraws s t (· == m) ∧
      t = { s with dies := t.dies, cores := t.cores, gangs := [(m, { g with swap := true })]
                   pkg := { s.pkg with failing := s.pkg.failing ++ [(cls, unit)] } } := by
  let u := s.unitFailing die (cls * 2 ^ 32 + unit)
  have hne : bits u.win.rascfg.toNat 16 1 ≠ 0 := fun h0 => absurd hact (by rw [(bits_one_eq_zero_iff s.win.rascfg 16).mp h0]; decide)
  have hmem : (m, g) ∈ u.gangs := by
    rw [show u.gangs = [(m, g)] from hone]
    exact List.mem_cons_self
  have hany : (u.gangs.any fun x => u.onUnit cls unit x.1 x.2) = true := List.any_eq_true.mpr ⟨(m, g), hmem, hon⟩
  obtain ⟨hw, hstate⟩ := markSwap_withdraws (s := u) (hit := u.onUnit cls unit) hone hon (resident_of_onUnit hon) hr hun
  have hfails : u.unitFails cls unit = (u.markSwap (u.onUnit cls unit)).setPkg { u.pkg with failing := u.pkg.failing ++ [(cls, unit)] } := by
    rw [State.unitFails, if_neg hne, if_pos hany]
  have hdies : (u.markSwap (u.onUnit cls unit)).dies = u.dies := by rw [hstate]
  refine ⟨_, correctedError_past h.unit_lt h.die_mem h.sorted h.within h.past h.fresh hfails hdies, counted_past hdies, ⟨hw.cores, hw.claims⟩, ?_⟩
  rw [hstate]
  rfl

end

/-- Settles O41: the port, retirement, pins, links and ports by their equations; an error by whether its unit passes the threshold, and then by its
class. -/
theorem portsPinsAndErrors : Obligations.PortsPinsAndErrors := by
  unfold Obligations.PortsPinsAndErrors
  intro s
  refine ⟨fun v hb => ⟨publishPortRequest_busy v hb, fun hfree => ?_⟩, fun ctx obj u hu hpin hfly hpub => ?_, fun ctx obj gen => ?_,
    fun l hl => dieLinkFailure_links s hl, fun p hp hin hcaps => ?_, fun die cls unit hunit hcls hdie hr hwithin => ⟨fun hno => ?_, fun hlt hin => ?_⟩,
    softErrorWindow_clears s⟩
  · exact ⟨_, publishPortRequest_free v hb hfree, look_upd_same s.pkg.pubs s.nextId (some (portPub v)),
      fun j hj => look_upd_other s.pkg.pubs (some (portPub v)) hj, rfl, rfl⟩
  · exact generationRetired_idle hu hpin hfly hpub
  · exact ⟨_, rfl, rfl, fun p => mem_pinRelease⟩
  · exact ⟨_, congrArg Host.Outcome.next (dropPort_of_use hp hin hcaps), rfl, rfl⟩
  · have hnot (hpast : _ < _ ∧ _ ∉ _) : False := hno.elim (Nat.not_le.mpr hpast.1) hpast.2
    exact ⟨_, correctedError_within hunit hdie hr hwithin hnot, rfl, counted_within s die _⟩
  · have h : PastThreshold s die cls unit := ⟨hunit, hdie, hr, hwithin, hlt, hin⟩
    refine ⟨fun hact => ?_, fun hact hg hout => ?_, fun m g hact => correctedError_marks h hact⟩
    · obtain ⟨t, ⟨hstep, hcount⟩, hstate⟩ := acted_notice h hact
      exact ⟨t, hstep, hstate, hcount⟩
    · exact ⟨acted_excluded h hact hg hout, acted_way h hact hg hout, acted_spared h hact hg hout, acted_link h hact hg, acted_port h hact hg hout⟩

end Sys2Proof.Machine
end

section
/-!
PROOFS. Gathers to registers: a burst writes the register that a part's thread number reaches, and nothing holds that number below 32 (05 R94; 07 R172).
-/

namespace Sys2Proof.Machine

/-- A gather to registers whose one part has been read, and names a thread beyond the 32 of a strand. -/
def strayGather : Op := { kind := .gather 4 8 true none, items := [{ t := 32, val := 1 }], lines := [.accepted] }

/-- The package with that gather in flight for strand 0. -/
def strayGathering : State := { ops := [(5, strayGather)], strands := [(0, {})] }

/-- The burst writes v8 of thread 32, which is where v9 of thread 0 stands. -/
theorem burst_of_strayGather : ∃ t st', exec (.gatherBurstReturn 5 0) strayGathering = .next t ∧ t.strand 0 = some st' ∧ st'.vreg 9 0 = 1 :=
  ⟨_, _, rfl, rfl, by decide +kernel⟩

/-- Refutes O39: the statement lets a part name any thread number. The burst of a gather to v8 whose part names thread 32 writes v9 of thread 0,
where the statement has every register of a thread without a value unchanged. -/
theorem not_copiesAndGathersEnd : ¬ Obligations.CopiesAndGathersEnd := by
  unfold Obligations.CopiesAndGathersEnd
  intro h
  obtain ⟨-, -, -, hgather⟩ := h strayGathering 5 strayGather {} 0 rfl rfl
  obtain ⟨-, -, hburst⟩ := hgather 4 8 true none _ rfl (by simp [ownThreads, strayGather]) rfl (by decide)
  obtain ⟨t, st', hexec, hdone, -, hregs, -⟩ := hburst rfl rfl rfl ⟨by decide, rfl, rfl⟩ (by decide) (by decide) List.nodup_nil
  obtain ⟨-, -, hgives⟩ := hregs rfl
  obtain ⟨t₁, st₁, hexec₁, hstrand₁, hval⟩ := burst_of_strayGather
  obtain rfl : t₁ = t := by simpa [hexec] using hexec₁.symm
  obtain rfl : st₁ = st' := Option.some.inj (hstrand₁.symm.trans hdone.strand)
  have hv9 : st₁.vreg 9 0 = ({} : Strand).vreg 9 0 := hgives.vec 9 0 (by decide)
  exact absurd (hval.symm.trans hv9) (by decide)

end Sys2Proof.Machine
end

section
/-!
PROOFS. Values that come back for a thread number beyond 31: the register file stands thread by thread within a register (05 R94), so v8 of thread 32
is v9 of thread 0. An atomic's old values and a reduction's elements reach the registers that their items' thread numbers name (07 R159, R164).
-/

namespace Sys2Proof.Machine

/-- Operation 5 in flight for strand 0, whose registers are clear. -/
def lastStep (o : Op) : State := { ops := [(5, o)], strands := [(0, {})] }

/-- The value 1 for v8 of a thread beyond the 32 of a strand. -/
def strayItem : Item := { t := 32, val := 1 }

/-- What the strand holds once that value has been written: v9 of thread 0 is no longer clear. -/
def StrayWritten (i : Instr) (o : Op) : Prop := ∃ t st', exec i (lastStep o) = .next t ∧ t.strand 0 = some st' ∧ st'.vreg 9 0 = 1

/-- No step that writes the stray value leaves v9 of thread 0 as it was. -/
theorem StrayWritten.not_unchanged {i : Instr} {o : Op} (h : StrayWritten i o) {t : State} {st' : Strand} (hexec : exec i (lastStep o) = .next t)
    (hstrand : t.strand 0 = some st') : st'.vreg 9 0 ≠ ({} : Strand).vreg 9 0 := by
  obtain ⟨t₁, st₁, hexec₁, hstrand₁, hval⟩ := h
  obtain rfl : t₁ = t := Host.Outcome.next.inj (hexec₁.symm.trans hexec)
  obtain rfl : st₁ = st' := Option.some.inj (hstrand₁.symm.trans hstrand)
  rw [hval]
  decide

/-- An atomic add to v8, applied, whose old value comes back for that thread. -/
def strayAtomic : Op := { kind := .atomic 0 true 8 0 0, items := [strayItem], lines := [.finished] }

theorem atomicResultReturn_writes_stray : StrayWritten (.atomicResultReturn 5) strayAtomic := ⟨_, _, rfl, rfl, by decide +kernel⟩

/-- Refutes O38: the statement lets an item name any thread number. The old value of an atomic to v8 whose item names thread 32 is written to v9 of
thread 0, where the statement has every register of a thread without a value unchanged. -/
theorem not_sliceOperations : ¬ Obligations.SliceOperations := by
  unfold Obligations.SliceOperations
  intro h
  obtain ⟨-, hreturn, -⟩ := h (lastStep strayAtomic) 5 strayAtomic {} rfl rfl
  have hfinished : ∀ l ∈ strayAtomic.lines, l = .finished := by decide
  have hquiet : strayAtomic.quiet := ⟨by decide, rfl, rfl⟩
  have hown : ownThreads strayAtomic.items := List.nodup_singleton _
  obtain ⟨hatomic, -⟩ := hreturn hfinished hquiet hown
  obtain ⟨t, st', hexec, hdone, -, -, -, hgives⟩ := hatomic 0 8 0 0 rfl
  exact atomicResultReturn_writes_stray.not_unchanged hexec hdone.strand (hgives.vec 9 0 (by decide))

/-- A sum of int32 to v8 and p2, whose result has reached the requester, for that thread. -/
def strayReduction : Op := { kind := .ldsum 0 8 2 (some 0) 0 0 (some 0), items := [strayItem] }

theorem ldsumResult_writes_stray : StrayWritten (.ldsumResult 5) strayReduction := ⟨_, _, rfl, rfl, by decide +kernel⟩

/-- Refutes O42: the statement lets an item name any thread number. The sum that LDSUM brings to v8 for an item of thread 32 is written to v9 of thread
0, where the statement has every register of a thread without an element unchanged. -/
theorem not_reductions : ¬ Obligations.Reductions := by
  unfold Obligations.Reductions
  intro h
  obtain ⟨hldsum, -⟩ := h (lastStep strayReduction)
  obtain ⟨-, -, hresult, -⟩ := hldsum 5 strayReduction {} 0 8 2 (some 0) 0 0 (some 0) rfl rfl rfl rfl
  have hlinked : (lastStep strayReduction).pointCut strayReduction = false := by decide
  have hintime : redLate (lastStep strayReduction) 0 = false := by decide
  have hquiet : strayReduction.quiet := ⟨by decide, rfl, rfl⟩
  have hown : ownThreads strayReduction.items := List.nodup_singleton _
  obtain ⟨t, st', hexec, hdone, -, -, -, hvec⟩ := hresult 0 hlinked rfl hintime rfl hquiet hown (by decide)
  exact ldsumResult_writes_stray.not_unchanged hexec hdone.strand (hvec 9 0 (by decide))

end Sys2Proof.Machine
end

section
/-!
PROOFS. How copies and gathers start: their sides, the line operations they form, their credits (01 R39 to R41; 03 R56 to R62, R70; 07 R170 to R172).
-/

namespace Sys2Proof.Machine

/-! The ends that these instructions share -/

theorem paid_cur {i : Instr} {s : State} {e : Env} {r : Run} (h : Issues i s e r) : (paid i e s).cur = some (e.k, e.pi) := by
  obtain ⟨hcur, -⟩ := envOf_eq h.1
  rw [paid_eq]
  exact hcur

/-- A body that only goes on computes nothing. -/
theorem Issues.computes_nothing {i : Instr} {s : State} {e : Env} {r : Run} (h : Issues i s e r) (hx : exec i s = .next (e.next (paid i e s))) :
    Computes i s e r e.p.nfr fun st st' => SameAccs st st' ∧ SameRegs st st' := by
  obtain ⟨-, -, hp, hrun, -, -⟩ := envOf_eq h.1
  obtain ⟨st2, hret⟩ := next_retires (paid_cur h) (paid_strand_same i e s) (hp ▸ hrun) rfl
  exact ⟨_, _, e.st, st2, hx, ⟨paid_strand_same i e s, fun _ _ => rfl, rfl⟩, ⟨by rw [hp], fun _ => rfl, rfl⟩,
    ⟨⟨rfl, rfl, rfl, rfl⟩, ⟨fun _ _ _ => rfl, fun _ => rfl, fun _ => rfl⟩⟩, hret⟩

/-- A body that starts an operation with a part to carry out, and goes on, launches it. -/
theorem Issues.launches {i : Instr} {s base : State} {e : Env} {r : Run} {o : Op} (h : Issues i s e r) (hstrand : base.strand e.k = some e.st)
    (hcur : base.cur = some (e.k, e.pi)) (ho : o.items ≠ []) (hx : exec i s = .next (e.next (e.launchOp o base))) : Launches i s base e r o := by
  obtain ⟨-, -, hp, hrun, -, -⟩ := envOf_eq h.1
  obtain ⟨hstart, hcur'⟩ := launchOp_starts hstrand hp ho
  obtain ⟨st2, hret⟩ := next_retires (hcur'.trans hcur) hstart.strand (r := r) (by simpa [Env.started] using hrun) (by simp [Env.started])
  exact ⟨_, _, _, st2, hx, hstart, hret⟩

/-- A body that raises a cause of a check stops the strand. -/
theorem stopsWhole_of_raise {i : Instr} {s : State} {e : Env} {cause qual addr : Nat} (hx : exec i s = .next (e.raise (paid i e s) cause qual addr))
    (hc : cause < 0xB0) : StopsWhole i s e cause qual addr := by
  obtain ⟨st', hstop⟩ := raise_stops (e := e) cause qual addr 0 (paid_strand_same i e s) (by omega)
  exact ⟨_, st', hx, hstop⟩

/-- An instruction with an active thread acts for some. -/
theorem ts_ne_nil {e : Env} (h : e.act ≠ 0) : e.ts ≠ [] := by
  intro hnil
  refine h (BitVec.eq_of_getLsbD_eq fun t ht => ?_)
  have hnot : t ∉ active e.act := by rw [show active e.act = [] from hnil]; exact List.not_mem_nil
  simpa [mem_active, ht, has] using hnot

theorem scrAddr_eq (e : Env) (a : BitVec 7) (off : Int) : e.scrAddr a off = e.scratchAt a off := by
  funext t
  simp [Env.scrAddr, Env.scratchAt, unsigned, BitVec.toNat_ofInt]

theorem creditBad_eq_false_iff (e : Env) (object : Bool) : e.creditBad object = false ↔ creditFits e object := by
  unfold Env.creditBad Env.creditSlot creditFits
  cases e.h.credit with
  | none => simp
  | some c => simp [and_assoc]

/-! Line operations -/

section
variable (key : Item → List Nat) (cap : Nat)

/-- Numbering the line operations changes nothing of the items but the number. -/
theorem numberLines_map {α : Type} {f : Item → α} (hf : ∀ i n, f { i with line := n } = f i) (its : List Item) :
    (numberLines key its cap).1.map f = its.map f := by
  have hfold (r : List (List Nat × Nat) × List Item) : (its.foldl (numberLine key cap) r).2.map f = r.2.map f ++ its.map f := by
    induction its generalizing r with
    | nil => simp
    | cons i its ih => rw [List.foldl_cons, ih]; simp [numberLine, hf]
  rw [numberLines_fst, hfold]
  rfl

/-- A change of the items that neither the key nor the number sees may as well be made before they are numbered. -/
theorem numberLines_of_map {f : Item → Item} (hf : ∀ i n, f { i with line := n } = { f i with line := n }) (hkey : ∀ i, key (f i) = key i)
    (its : List Item) : numberLines key (its.map f) cap = ((numberLines key its cap).1.map f, (numberLines key its cap).2) := by
  have hstep (r : List (List Nat × Nat) × List Item) (i : Item) :
      numberLine key cap (r.1, r.2.map f) (f i) = ((numberLine key cap r i).1, (numberLine key cap r i).2.map f) := by
    simp only [numberLine, hkey, List.filter_map, Function.comp_def, List.length_map, List.map_append, List.map_cons, List.map_nil]
    exact congrArg (fun i => ((_, _ ++ [i]) : List (List Nat × Nat) × List Item)) (hf i _).symm
  have hfold (r : List (List Nat × Nat) × List Item) : (its.map f).foldl (numberLine key cap) (r.1, r.2.map f) =
      ((its.foldl (numberLine key cap) r).1, (its.foldl (numberLine key cap) r).2.map f) := by
    induction its generalizing r with
    | nil => rfl
    | cons i its ih => rw [List.map_cons, List.foldl_cons, List.foldl_cons, hstep, ih]
  have h := hfold ([], [])
  show ((((its.map f).foldl (numberLine key cap) ([], [])).2, ((its.map f).foldl (numberLine key cap) ([], [])).1.length) : List Item × Nat) = _
  rw [show (([], []) : List (List Nat × Nat) × List Item) = ([], [].map f) from rfl, h]
  rfl

end

/-! The sides of a copy -/

/-- What becomes of each thread's part on a side of a copy, with the translation it took, if any. -/
def Side.reaches {β : Type} (x : Side) (e : Env) (s : State) (part : List Src × List Nat × List GenRef → β) : Reach (β × Option GenRef) :=
  e.ts.map fun t => (t, x.addr t, (x.lies s e t).map fun y => (part y, y.2.2.head?))

section
variable {β : Type} (e : Env) (s : State) (kind : Kind) (n : Nat) (addr : Nat → Nat) (part : List Src × List Nat × List GenRef → β)

theorem Side.reaches_object : (Side.object kind n addr).reaches e s part =
    (e.reach s kind n addr).map fun r => (r.1, r.2.1, r.2.2.map fun l => (part (l.bytes, memKeys l.bytes, [l.gen]), some l.gen)) := by
  rw [Side.reaches, Env.reach, List.map_map]
  refine List.map_congr_left fun t _ => ?_
  cases h : translate s e.die e.ctx (addr t) n kind <;> simp [Side.lies, Side.addr, h, Except.map]

theorem Side.reaches_scratch : (Side.scratch n addr).reaches e s part =
    (e.reachScr n addr).map fun r => (r.1, r.2.1, r.2.2.map fun ks => (part (ks.map Src.mem, ks, []), none)) := by
  rw [Side.reaches, Env.reachScr, List.map_map]
  refine List.map_congr_left fun t _ => ?_
  cases h : Machine.scratch e.g (addr t) n <;> simp [Side.lies, Side.addr, h, Except.map]

theorem objSrc_reach : objSrc (e.reach s kind n addr) = (Side.object kind n addr).reaches e s (·.1) :=
  (Side.reaches_object e s kind n addr (·.1)).symm
theorem objDst_reach : objDst (e.reach s kind n addr) = (Side.object kind n addr).reaches e s (·.2.1) :=
  (Side.reaches_object e s kind n addr (·.2.1)).symm
theorem scrSrc_reachScr : scrSrc (e.reachScr n addr) = (Side.scratch n addr).reaches e s (·.1) :=
  (Side.reaches_scratch e s n addr (·.1)).symm
theorem scrDst_reachScr : scrDst (e.reachScr n addr) = (Side.scratch n addr).reaches e s (·.2.1) :=
  (Side.reaches_scratch e s n addr (·.2.1)).symm

end

theorem Side.reaches_of_lies {β : Type} {x : Side} {s : State} {e : Env} {y : Nat → List Src × List Nat × List GenRef}
    (h : ∀ t ∈ e.ts, x.lies s e t = .ok (y t)) (part : List Src × List Nat × List GenRef → β) :
    x.reaches e s part = e.ts.map fun t => (t, x.addr t, .ok (part (y t), (y t).2.2.head?)) :=
  List.map_congr_left fun t ht => by rw [h t ht]; rfl

/-- A side takes one translation at most. -/
theorem Side.head_of_lies {x : Side} {s : State} {e : Env} {t : Nat} {y : List Src × List Nat × List GenRef} (h : x.lies s e t = .ok y) :
    y.2.2.head?.toList = y.2.2 := by
  cases x with
  | object kind n addr =>
    rw [Side.lies] at h
    cases htr : translate s e.die e.ctx (addr t) n kind with
    | error f => rw [htr] at h; cases h
    | ok l => rw [htr] at h; cases h; rfl
  | scratch n addr =>
    rw [Side.lies] at h
    cases hks : Machine.scratch e.g (addr t) n with
    | error f => rw [hks] at h; cases h
    | ok ks => rw [hks] at h; cases h; rfl

/-- The step of pairUp: a thread's source and destination join those before them. -/
def pairStep (r : List (Item × List GenRef) × List (Nat × Nat × Failed))
    (p : (Nat × Nat × Except Failed (List Src × Option GenRef)) × Nat × Nat × Except Failed (List Nat × Option GenRef)) :
    List (Item × List GenRef) × List (Nat × Nat × Failed) := match p.1.2.2, p.2.2.2 with
  | .ok x, .ok y => (r.1 ++ [({ t := p.1.1, addr := p.1.2.1, src := x.1, dst := y.1 }, x.2.toList ++ y.2.toList)], r.2)
  | .error f, .ok _ => (r.1, r.2 ++ [(p.1.1, p.1.2.1, f)])
  | .ok _, .error f => (r.1, r.2 ++ [(p.1.1, p.2.2.1, f)])
  | .error f, .error g => (r.1, r.2 ++ [if g.rank < f.rank then (p.1.1, p.2.2.1, g) else (p.1.1, p.1.2.1, f)])

theorem pairUp_eq (src : Reach (List Src × Option GenRef)) (dst : Reach (List Nat × Option GenRef)) :
    pairUp src dst = (src.zip dst).foldl pairStep ([], []) := rfl

/-- Sources and destinations that all pass pair up, thread for thread. -/
theorem pairUp_of_passed (ts : List Nat) (a b : Nat → Nat) (x : Nat → List Src × Option GenRef) (y : Nat → List Nat × Option GenRef) :
    pairUp (ts.map fun t => (t, a t, .ok (x t))) (ts.map fun t => (t, b t, .ok (y t))) =
      (ts.map fun t => ({ t, addr := a t, src := (x t).1, dst := (y t).1 }, (x t).2.toList ++ (y t).2.toList), []) := by
  have hfold (r : List (Item × List GenRef) × List (Nat × Nat × Failed)) :
      (ts.map fun t => ((t, a t, .ok (x t)), (t, b t, .ok (y t)))).foldl pairStep r =
        (r.1 ++ ts.map fun t => ({ t, addr := a t, src := (x t).1, dst := (y t).1 }, (x t).2.toList ++ (y t).2.toList), r.2) := by
    induction ts generalizing r with
    | nil => simp
    | cons t ts ih => rw [List.map_cons, List.foldl_cons, ih]; simp [pairStep]
  rw [pairUp_eq, List.zip_map', hfold]
  rfl

/-- The copy an instruction makes, from its sides. -/
def copyMove (e : Env) (s : State) (src dst : Side) (object tile : Bool) : Move :=
  { src := src.reaches e s (·.1), dst := dst.reaches e s (·.2.1), object, tile, toward := if object then dst.addr else fun _ => 0 }
/-- What CPY does, or with a mask register CPYV. -/
def Env.runCopy (e : Env) (mask : Option (BitVec 7)) (m : Move) (s : State) : State := match mask with
  | some d => e.copyV d m s
  | none => e.copy m s

section
variable (e : Env) (s : State) (n : Nat) (d a : BitVec 7) (k u : Nat)

theorem moveSG_eq : e.moveSG s n d a k u =
    copyMove e s (.object .read n (e.objectAt k a (u * n))) (.scratch n (e.scratchAt d e.wideOff)) false false := by
  rw [Env.moveSG, objSrc_reach, scrDst_reachScr e s, objAddr_eq, scrAddr_eq, off_eq]; rfl

theorem moveGS_eq : e.moveGS s n d a k u =
    copyMove e s (.scratch n (e.scratchAt d e.wideOff)) (.object .shadow n (e.objectAt k a (u * n))) true false := by
  rw [Env.moveGS, scrSrc_reachScr e s, objDst_reach, objAddr_eq, scrAddr_eq, off_eq]; rfl

theorem moveSS_eq : e.moveSS n d a = copyMove e s (.scratch n (e.scratchAt a 0)) (.scratch n (e.scratchAt d 0)) false false := by
  rw [Env.moveSS, scrSrc_reachScr e s, scrDst_reachScr e s, scrAddr_eq, scrAddr_eq]; rfl

theorem moveGG_eq : e.moveGG s n d a k =
    copyMove e s (.object .read n (e.objectAt k a 0)) (.object .shadow n (e.objectAt (k + 1) d 0)) true false := by
  rw [Env.moveGG, objSrc_reach, objDst_reach, objAddr_eq, objAddr_eq]; rfl

theorem moveVG_eq : e.moveVG s a k =
    copyMove e s (.object .read 128 (e.objectAt (k + 1) (e.h.third.getD a) 0)) (.object .tile 128 (e.objectAt k a e.wideOff)) true true := by
  rw [Env.moveVG, objSrc_reach, objDst_reach, objAddr_eq, objAddr_eq, off_eq]; rfl

theorem moveVS_eq : e.moveVS s a k =
    copyMove e s (.scratch 128 (e.scratchAt (e.h.third.getD a) 0)) (.object .tile 128 (e.objectAt k a e.wideOff)) true true := by
  rw [Env.moveVS, scrSrc_reachScr e s, objDst_reach, scrAddr_eq, objAddr_eq, off_eq]; rfl

end

/-- The bytes of CPY's size code, as a displacement counts them. -/
theorem copySize_cast (c : BitVec 2) : ((copySize c : Nat) : Int) = 4 * 2 ^ c.toNat := by simp [copySize]

theorem exec_copySides {i : Instr} {s : State} {e : Env} {r : Run} {src dst : Side} {object : Bool} {mask : Option (BitVec 7)} (h : Issues i s e r)
    (hx : copySides e i = some (src, dst, object, mask)) :
    exec i s = .next (e.runCopy mask (copyMove e (paid i e s) src dst object mask.isSome) (paid i e s)) := by
  cases i <;> simp only [copySides, Option.some.injEq, Prod.mk.injEq, reduceCtorEq] at hx <;> obtain ⟨rfl, rfl, rfl, rfl⟩ := hx
  case cpySFromG z c d a k l u =>
    exact (issue_body (fun e s => e.copy (e.moveSG s (copySize c) d a k.toNat u.toNat) s) h).trans (by rw [moveSG_eq, copySize_cast]; rfl)
  case cpyGFromS z c d a k l u =>
    exact (issue_body (fun e s => e.copy (e.moveGS s (copySize c) d a k.toNat u.toNat) s) h).trans (by rw [moveGS_eq, copySize_cast]; rfl)
  case cpySFromS z c d a l =>
    exact (issue_body (fun e s => e.copy (e.moveSS (copySize c) d a) s) h).trans (by rw [moveSS_eq e (paid _ e s)]; rfl)
  case cpyGFromGB4 z d a k l => exact (issue_body (fun e s => e.copy (e.moveGG s 4 d a k.toNat) s) h).trans (by rw [moveGG_eq]; rfl)
  case cpyGFromGB8 z d a k l => exact (issue_body (fun e s => e.copy (e.moveGG s 8 d a k.toNat) s) h).trans (by rw [moveGG_eq]; rfl)
  case cpyGFromGB16 z d a k l => exact (issue_body (fun e s => e.copy (e.moveGG s 16 d a k.toNat) s) h).trans (by rw [moveGG_eq]; rfl)
  case cpyvG z d a k l => exact (issue_body (fun e s => e.copyV d (e.moveVG s a k.toNat) s) h).trans (by rw [moveVG_eq]; rfl)
  case cpyvS z d a k l => exact (issue_body (fun e s => e.copyV d (e.moveVS s a k.toNat) s) h).trans (by rw [moveVS_eq]; rfl)

/-- What tells the line operations of a copy apart, of CPYV by its tiles (03 R59, R61). -/
def lineKey (tile : Bool) (i : Item) : List Nat := if tile then i.dst else ((memKeys i.src).take 1).map lineOf ++ (i.dst.take 1).map lineOf
/-- The translations of numbered items, each for the line operation of its item. -/
def lineGens (its : List Item) (trs : List (List GenRef)) : List GenRef :=
  ((its.zip trs).map fun x => x.2.map (GenRef.forLine x.1.line)).flatten
/-- An item of CPYV takes the bytes that its thread's mask register names (07 R171). -/
def Item.masked (e : Env) (d : BitVec 7) (i : Item) : Item := { i with cmp := e.get 0 d 2 i.t }

theorem lineGens_map {f : Item → Item} (hf : ∀ i, (f i).line = i.line) (its : List Item) (trs : List (List GenRef)) :
    lineGens (its.map f) trs = lineGens its trs := by
  simp only [lineGens, List.zip_map_left, List.map_map, Function.comp_def, Prod.map_fst, Prod.map_snd, hf, id_eq]

section
variable {e : Env} {m : Move} {its : List Item} {gens : List GenRef} {n : Nat} (hcredit : creditFits e m.object) (hlines : m.lines = (its, gens, [], n))
include hcredit hlines

/-- CPY without a failing thread. -/
theorem copy_of_lines (s : State) : e.copy m s = e.next (e.launchOp {
    kind := .copy e.creditSlot, acc := some 1, items := its, gens, lines := List.replicate n .waiting, outstanding := false } s) := by
  rw [Env.copy, (creditBad_eq_false_iff e m.object).mpr hcredit, hlines]
  rfl

/-- CPYV without a failing thread: the core's copies of the tiles' lines go before it (04 R74). -/
theorem copyV_of_lines (d : BitVec 7) (s : State) : e.copyV d m s = e.next (e.launchOp {
    kind := .copyv d.toNat, acc := some 1, items := its.map (Item.masked e d), gens, lines := List.replicate n .waiting, vregs := [d.toNat, d.toNat + 1] }
    (if its.isEmpty then s else s.invalidate e.core (its.flatMap fun i => i.dst.map lineOf).contains false)) := by
  rw [Env.copyV, (creditBad_eq_false_iff e m.object).mpr hcredit, hlines]
  simp only [List.isEmpty_map, List.flatMap_map]
  rfl

end

theorem copyItems_masked (e : Env) (src : Side) (sb : Nat → List Src) (db : Nat → List Nat) (d : BitVec 7) :
    copyItems e src sb db (some d) = (copyItems e src sb db none).map (Item.masked e d) := by
  rw [copyItems, copyItems, List.map_map]
  rfl

theorem copyOp_masked (e : Env) (d : BitVec 7) (its : List Item) (trs : List (List GenRef)) :
    copyOp e (some d) (its.map (Item.masked e d)) trs =
      let q := numberLines (lineKey true) its
      { kind := .copyv d.toNat, acc := some 1, items := q.1.map (Item.masked e d), gens := lineGens q.1 trs, lines := List.replicate q.2 .waiting
        vregs := [d.toNat, d.toNat + 1] } := by
  have hop (its : List Item) : copyOp e (some d) its trs =
      let q := numberLines (lineKey true) its
      { kind := .copyv d.toNat, acc := some 1, items := q.1, gens := lineGens q.1 trs, lines := List.replicate q.2 .waiting
        vregs := [d.toNat, d.toNat + 1] } := rfl
  rw [hop, numberLines_of_map (lineKey true) 32 (f := Item.masked e d) (fun _ _ => rfl) (fun _ => rfl)]
  dsimp only
  rw [lineGens_map (f := Item.masked e d) (fun _ => rfl)]

section
variable {e : Env} {s : State} {src dst : Side} {x y : Nat → List Src × List Nat × List GenRef}
  (hx : ∀ t ∈ e.ts, src.lies s e t = .ok (x t)) (hy : ∀ t ∈ e.ts, dst.lies s e t = .ok (y t)) (object : Bool)
include hx hy

/-- The line operations of a copy whose threads all pass. -/
theorem copyMove_lines (tile : Bool) : (copyMove e s src dst object tile).lines =
    let q := numberLines (lineKey tile) (copyItems e src (fun t => (x t).1) (fun t => (y t).2.1) none)
    (q.1, lineGens q.1 (e.ts.map fun t => (x t).2.2 ++ (y t).2.2), [], q.2) := by
  have hgens : (e.ts.map fun t => ({ t, addr := src.addr t, src := (x t).1, dst := (y t).2.1 }, (x t).2.2.head?.toList ++ (y t).2.2.head?.toList)) =
      (e.ts.map fun t => (({ t, addr := src.addr t, src := (x t).1, dst := (y t).2.1 }, (x t).2.2 ++ (y t).2.2) : Item × List GenRef)) :=
    List.map_congr_left fun t ht => by rw [Side.head_of_lies (hx t ht), Side.head_of_lies (hy t ht)]
  rw [Move.lines, copyMove, Side.reaches_of_lies hx, Side.reaches_of_lies hy, pairUp_of_passed, hgens]
  simp only [List.map_map, Function.comp_def, List.zip_map_right, lineGens, Prod.map_fst, Prod.map_snd, id_eq]
  rfl

theorem runCopy_of_lies {mask : Option (BitVec 7)} (hcredit : creditFits e object) (hact : e.act ≠ 0) :
    e.runCopy mask (copyMove e s src dst object mask.isSome) s =
      e.next (e.launchOp (copyOp e mask (copyItems e src (fun t => (x t).1) (fun t => (y t).2.1) mask) (e.ts.map fun t => (x t).2.2 ++ (y t).2.2))
        (if mask.isSome then s.invalidate e.core (e.ts.flatMap fun t => (y t).2.1.map lineOf).contains false else s)) := by
  cases mask with
  | none => exact copy_of_lines hcredit (copyMove_lines hx hy object false) s
  | some d =>
    have hlines := copyMove_lines hx hy object true
    rw [copyItems_masked, copyOp_masked]
    set its := (numberLines (lineKey true) (copyItems e src (fun t => (x t).1) (fun t => (y t).2.1) none)).1 with hits
    have hsome : ¬ its.isEmpty = true := by
      rw [List.isEmpty_iff, ← List.length_eq_zero_iff, hits, numberLines_length, copyItems, List.length_map, List.length_eq_zero_iff]
      exact ts_ne_nil hact
    have hdropped : its.flatMap (fun i => i.dst.map lineOf) = e.ts.flatMap fun t => (y t).2.1.map lineOf := by
      rw [List.flatMap_def, hits, numberLines_map (lineKey true) 32 (fun _ _ => rfl), copyItems, List.map_map]
      rfl
    refine (copyV_of_lines hcredit hlines d s).trans ?_
    rw [if_neg hsome, hdropped]
    rfl

end

/-- A copy without an active thread only goes on. -/
theorem runCopy_of_idle {e : Env} {s : State} {src dst : Side} {object : Bool} {mask : Option (BitVec 7)} (hcredit : creditFits e object)
    (hact : e.act = 0) : e.runCopy mask (copyMove e s src dst object mask.isSome) s = e.next s := by
  have hts : e.ts = [] := by rw [Env.ts, hact]; rfl
  have hlines (tile : Bool) : (copyMove e s src dst object tile).lines = ([], [], [], 0) := by
    rw [Move.lines, copyMove, Side.reaches, Side.reaches, hts]; rfl
  cases mask with
  | none => exact copy_of_lines hcredit (hlines false) s
  | some d => exact copyV_of_lines hcredit (hlines true) d s

theorem copiesStartPart : CopiesStartPart := by
  intro i s e r src dst object mask x y h hsides
  have hexec := exec_copySides h hsides
  refine ⟨fun hunfit => ?_, fun hcredit hact hlies => ?_, fun hcredit hact => ?_⟩
  · refine stopsWhole_of_raise (hexec.trans ?_) (by decide)
    have hbad : e.creditBad object = true := by
      rwa [← creditBad_eq_false_iff, Bool.not_eq_false] at hunfit
    cases mask <;> simp [Env.runCopy, Env.copy, Env.copyV, copyMove, hbad]
  · have hrun := runCopy_of_lies (fun t ht => (hlies t ht).1) (fun t ht => (hlies t ht).2) object hcredit hact (mask := mask)
    refine h.launches ?_ ?_ ?_ (hexec.trans (congrArg _ hrun))
    · cases mask <;> exact paid_strand_same i e s
    · cases mask <;> exact paid_cur h
    · intro hnil
      refine ts_ne_nil hact (List.length_eq_zero_iff.mp ?_)
      have hlength := congrArg List.length hnil
      cases mask <;> simpa [copyOp, copyItems, numberLines_length] using hlength
  · exact h.computes_nothing (hexec.trans (congrArg _ (runCopy_of_idle hcredit hact)))

/-! Gathers -/

/-- Each thread's element goes to its registers, or under THIRD to its scratchpad bytes. -/
def GatherPlaces (e : Env) (n : Nat) (ks : Nat → List Nat) : Prop :=
  ∀ t ∈ e.ts, match e.h.third with | some c => scratch e.g (e.scratchAt c 0 t) n = .ok (ks t) | none => ks t = []
/-- The index object of GATH.x, where its record is sound, lies on one stack (01 R40). -/
def IndexPlaced (e : Env) (s : State) (values : Option (Nat × Nat)) : Prop :=
  ∀ b v, values = some (b, v) → ∃ rec, record s e.die e.ctx (b / 2 ^ 40 % 2 ^ 24) = some rec ∧
    (recordBad s e.die e.ctx rec rec.current = none → rec.current.place = 2)

/-- The value object of GATH.x as its request carries it: its base and its record (01 R39). -/
def gatherIndexed (e : Env) (s : State) (values : Option (Nat × Nat)) : Option (Nat × List Byte) :=
  values.map fun x => (x.2, sentRecord s e.die e.ctx (x.2 / 2 ^ 40 % 2 ^ 24))
/-- The translation of the value object, ended with the whole request (01 R34). -/
def gatherGens (e : Env) (s : State) (values : Option (Nat × Nat)) : List GenRef := match values with
  | some (_, v) =>
    let sent := sentRecord s e.die e.ctx (v / 2 ^ 40 % 2 ^ 24)
    if sent = [] then [] else [{ die := e.die, ctx := e.ctx, obj := v / 2 ^ 40 % 2 ^ 24, gen := (parseRecord sent).current.gen }]
  | none => []

theorem gatherDst_of_places {e : Env} {n : Nat} {ks : Nat → List Nat} (h : GatherPlaces e n ks) :
    ∃ a : Nat → Nat, e.gatherDst n = e.ts.map fun t => (t, a t, .ok (ks t, none)) := by
  unfold GatherPlaces at h
  unfold Env.gatherDst
  cases hthird : e.h.third with
  | none =>
    rw [hthird] at h
    exact ⟨fun _ => 0, List.map_congr_left fun t ht => by rw [h t ht]⟩
  | some c =>
    rw [hthird] at h
    refine ⟨e.scratchAt c 0, ?_⟩
    dsimp only
    rw [scrDst, Env.reachScr, List.map_map, scrAddr_eq]
    exact List.map_congr_left fun t ht => by simp [h t ht, Except.map]

theorem objSrc_of_translates {e : Env} {s : State} {kind : Kind} {n : Nat} {addr : Nat → Nat} {loc : Nat → Located}
    (h : ∀ t ∈ e.ts, translate s e.die e.ctx (addr t) n kind = .ok (loc t)) :
    objSrc (e.reach s kind n addr) = e.ts.map fun t => (t, addr t, .ok ((loc t).bytes, some (loc t).gen)) := by
  rw [objSrc, Env.reach, List.map_map]
  exact List.map_congr_left fun t ht => by simp [h t ht, Except.map]

theorem mapIdx_of_map {α β γ : Type} (f : Nat → β → γ) (g : α → β) (l : List α) : (l.map g).mapIdx f = l.mapIdx fun j x => f j (g x) :=
  List.ext_getElem (by simp) (by simp)

theorem flatten_mapIdx_singleton {α β : Type} (f : Nat → α → β) (l : List α) : (l.mapIdx fun j x => [f j x]).flatten = l.mapIdx f := by
  induction l using List.reverseRecOn with
  | nil => rfl
  | append_singleton l x ih => simp [List.mapIdx_append, ih]

/-- A gather whose threads all pass: one operation with a part for each. -/
theorem gather_of_passed {e : Env} {s : State} {n w : Nat} {addr : Nat → Nat} {loc : Nat → Located} {ks : Nat → List Nat} (d : BitVec 7)
    (indexed : Option (Nat × List Byte)) (gens : List GenRef) (hloc : ∀ t ∈ e.ts, translate s e.die e.ctx (addr t) w .read = .ok (loc t))
    (hks : GatherPlaces e n ks) : e.gather n d (objSrc (e.reach s .read w addr)) indexed gens s = e.next (e.launchOp {
      kind := .gather n d.toNat e.h.third.isNone e.creditSlot, acc := some 3, outstanding := e.h.third.isNone
      vregs := if e.h.third.isNone then keysFrom d.toNat (regsOf n) else [], lines := List.replicate e.ts.length .waiting
      carried := (indexed.map (·.2)).getD [], gens := gens ++ e.ts.mapIdx fun j t => { (loc t).gen with line := some j }
      items := e.ts.mapIdx fun j t => { t, addr := addr t, src := (loc t).bytes, dst := ks t, line := j
                                        cmp := match indexed with | some (v, _) => v + 2 ^ 64 | none => 0 } } s) := by
  obtain ⟨a, hdst⟩ := gatherDst_of_places hks
  unfold Env.gather
  rw [hdst, objSrc_of_translates hloc, pairUp_of_passed]
  simp only [List.map_map, mapIdx_of_map, Function.comp_def, List.map_nil, List.isEmpty_nil, Bool.not_true, Bool.and_false, Option.toList_some,
    Option.toList_none, List.append_nil, List.map_cons, flatten_mapIdx_singleton, List.length_mapIdx,
    Bool.false_eq_true, if_false]
  rfl

/-- GATH from state u comes to t: without a gather unit or a credit that fits it raises a cause, and else it gathers, where GATH.x has its index
object in place. -/
structure Gathers (e : Env) (d : BitVec 7) (n w : Nat) (addr : Nat → Nat) (values : Option (Nat × Nat)) (u t : State) : Prop where
  lacks : u.gather = false → t = e.raise u 0x05
  credit : u.gather = true → e.creditBad false = true → t = e.raise u 0x60
  runs : u.gather = true → e.creditBad false = false → IndexPlaced e u values →
    t = e.gather n d (objSrc (e.reach u .read w addr)) (gatherIndexed e u values) (gatherGens e u values) u

/-- What GATH.e does. -/
def Env.gatherE (e : Env) (n : Nat) (d a : BitVec 7) (k : Nat) (s : State) : State :=
  if !s.gather then e.raise s 0x05
  else if e.creditBad false then e.raise s 0x60
  else e.gather n d (objSrc (e.reach s .read n fun t => (e.st.upair (2 * k) + (e.st.src a.toNat t).toNat * n) % 2 ^ 64)) none [] s

theorem gatherE_gathers (e : Env) (n : Nat) (d a : BitVec 7) (k : Nat) (u : State) :
    Gathers e d n n (fun t => (e.st.upair (2 * k) + (e.st.src a.toNat t).toNat * n) % 2 ^ 64) none u (e.gatherE n d a k u) := by
  refine ⟨fun hlacks => ?_, fun hunit hcredit => ?_, fun hunit hcredit _ => ?_⟩
  · simp [Env.gatherE, hlacks]
  · simp [Env.gatherE, hunit, hcredit]
  · simp [Env.gatherE, hunit, hcredit, gatherIndexed, gatherGens]

theorem gatherX_gathers (e : Env) (n : Nat) (d a : BitVec 7) (k : Nat) (u : State) :
    Gathers e d n 4 (fun t => (e.st.upair (2 * k) + (e.st.src a.toNat t).toNat * 4) % 2 ^ 64) (some (e.st.upair (2 * k), e.st.upair (2 * (k + 1)))) u
      (e.gatherX n d a k u) := by
  refine ⟨fun hlacks => ?_, fun hunit hcredit => ?_, fun hunit hcredit hplaced => ?_⟩
  · simp [Env.gatherX, hlacks]
  · simp [Env.gatherX, hunit, hcredit]
  · obtain ⟨rec, hrec, hplace⟩ := hplaced _ _ rfl
    have hstack : ¬ ((recordBad u e.die e.ctx rec rec.current).isNone && rec.current.place != 2) = true := by
      cases hbad : recordBad u e.die e.ctx rec rec.current with
      | none => simp [hplace hbad]
      | some q => simp
    rw [Env.gatherX, hunit, hcredit]
    simp only [bits, hrec]
    rw [if_neg hstack]
    simp [gatherIndexed, gatherGens]

theorem exec_gatherForm {i : Instr} {s : State} {e : Env} {r : Run} {d : BitVec 7} {n w : Nat} {addr : Nat → Nat} {values : Option (Nat × Nat)}
    (h : Issues i s e r) (hx : gatherForm e i = some (d, n, w, addr, values)) :
    ∃ t, exec i s = .next t ∧ Gathers e d n w addr values (paid i e s) t := by
  cases i <;> simp only [gatherForm, Option.some.injEq, Prod.mk.injEq, reduceCtorEq] at hx <;> obtain ⟨rfl, rfl, rfl, rfl, rfl⟩ := hx
  case gathE z c d a k l => exact ⟨_, issue_body (fun e => e.gatherE (2 * 2 ^ c.toNat) d a k.toNat) h, gatherE_gathers e _ d a k.toNat _⟩
  case gathXB16 z d a k l => exact ⟨_, issue_body (fun e => e.gatherX 2 d a k.toNat) h, gatherX_gathers e 2 d a k.toNat _⟩
  case gathXB32 z d a k l => exact ⟨_, issue_body (fun e => e.gatherX 4 d a k.toNat) h, gatherX_gathers e 4 d a k.toNat _⟩
  case gathXB64 z d a k l => exact ⟨_, issue_body (fun e => e.gatherX 8 d a k.toNat) h, gatherX_gathers e 8 d a k.toNat _⟩

theorem paid_gather (i : Instr) (e : Env) (s : State) : (paid i e s).gather = s.gather := by
  rw [paid_eq]
  rfl

theorem gathersStartPart : GathersStartPart := by
  intro i s e r d n w addr values loc ks h hform
  obtain ⟨t, hexec, hgathers⟩ := exec_gatherForm h hform
  rw [← paid_gather i e s]
  refine ⟨fun hlacks => ?_, fun hunit hunfit => ?_, fun hunit hcredit hact hplaced hloc hks => ?_⟩
  · exact stopsWhole_of_raise (hexec.trans (congrArg _ (hgathers.lacks hlacks))) (by decide)
  · rw [← creditBad_eq_false_iff, Bool.not_eq_false] at hunfit
    exact stopsWhole_of_raise (hexec.trans (congrArg _ (hgathers.credit hunit hunfit))) (by decide)
  · have hgather := (hgathers.runs hunit ((creditBad_eq_false_iff e false).mpr hcredit) hplaced).trans
      (gather_of_passed d _ (gatherGens e (paid i e s) values) hloc hks)
    have hlaunch := h.launches (paid_strand_same i e s) (paid_cur h) (by simpa using ts_ne_nil hact) (hexec.trans (congrArg _ hgather))
    cases values <;> exact hlaunch

/-- Settles O13: where every thread passes, runCopy_of_lies and gather_of_passed say which operation starts; a missing gather unit or a credit that
does not fit raises its cause before any thread is looked at. -/
theorem copiesAndGathersStart : Obligations.CopiesAndGathersStart := ⟨copiesStartPart, gathersStartPart⟩

end Sys2Proof.Machine
end

section
/-!
PROOFS. Batches and publishes as they start: SEAL, WAIT and PUB (03 R64, R65; 07 R173, R174; 01 R31).
-/

namespace Sys2Proof.Machine

/-! The seal of an access path -/

/-- An operation of the strand's open set on an access path joins batch b; any other stays as it is (03 R64). -/
def Op.closed (o : Op) (k a : Nat) (b : Word) : Op := if o.strand = k ∧ o.acc = some a ∧ o.batch = none then { o with batch := some b } else o
/-- The operations in flight once the open set has joined batch b. -/
def closedOps (ops : Tab Op) (k a : Nat) (b : Word) : Tab Op := ops.map fun q => (q.1, q.2.closed k a b)

/-- The strand once its open set on an access path, with the faults found after issue that belong to it, is its next batch. -/
def Strand.joins (st : Strand) (a : Nat) : Strand :=
  let b := rd 0 st.sealedB a + 1
  { st with
    sealedB := wr 0 st.sealedB a b
    deferred := st.deferred.map fun d => if d.acc == some a && d.batch.isNone then { d with batch := some b } else d }
/-- The strand with the batches of an access path counted as finished that no operation in flight belongs to. -/
def Strand.settles (st : Strand) (ops : Tab Op) (k a : Nat) : Strand :=
  { st with finishedB := wr 0 st.finishedB a (finishedNow ops k a (rd 0 st.sealedB a) (rd 0 st.finishedB a)) }
/-- The strand after SEAL, with the operations that were in flight. -/
def Strand.sealing (st : Strand) (ops : Tab Op) (k a : Nat) : Strand :=
  (st.joins a).settles (closedOps ops k a (rd 0 st.sealedB a + 1)) k a

theorem closed_strand_acc (o : Op) (k a : Nat) (b : Word) : (o.closed k a b).strand = o.strand ∧ (o.closed k a b).acc = o.acc := by
  unfold Op.closed
  split <;> exact ⟨rfl, rfl⟩

theorem finishedNow_of_none {ops : Tab Op} {k a : Nat} (h : ∀ q ∈ ops, q.2.strand = k → q.2.acc ≠ some a) (b fin : Word) : finishedNow ops k a b fin = b := by
  have hpend : (ops.filterMap fun q => if q.2.strand == k && q.2.acc == some a then q.2.batch.map fun b => (b - fin).toNat else none) = [] := by
    rw [List.filterMap_eq_nil_iff]
    intro q hq
    simp only [Bool.and_eq_true, beq_iff_eq]
    exact if_neg fun hopen => h q hq hopen.1 hopen.2
  show (match ops.filterMap fun q => if q.2.strand == k && q.2.acc == some a then q.2.batch.map fun b => (b - fin).toNat else none with
    | [] => b
    | m :: ms => fin + BitVec.ofNat 32 (ms.foldl min m - 1)) = b
  rw [hpend]

theorem finishedNow_closedOps {ops : Tab Op} {k a : Nat} (h : ∀ q ∈ ops, q.2.strand = k → q.2.acc ≠ some a) (b fin : Word) :
    finishedNow (closedOps ops k a b) k a b fin = b := by
  refine finishedNow_of_none (fun q hq => ?_) b fin
  obtain ⟨q', hq', rfl⟩ := List.mem_map.mp hq
  obtain ⟨hstrand, hacc⟩ := closed_strand_acc q'.2 k a b
  rw [hstrand, hacc]
  exact h q' hq'

theorem settleBatches_eq {s : State} {k : Nat} {st : Strand} (a : Nat) (hs : s.strand k = some st) :
    s.settleBatches k a = s.setStrand k (st.settles s.ops k a) := by
  rw [State.settleBatches, State.onStrand, hs]
  rfl

theorem seal_eq {s : State} {k : Nat} {st : Strand} (a : Nat) (hs : s.strand k = some st) : s.seal k a =
    State.setStrand { s.setStrand k (st.joins a) with ops := closedOps s.ops k a (rd 0 st.sealedB a + 1) } k (st.sealing s.ops k a) := by
  have hclosed : (s.ops.map fun x => (x.1, if x.2.strand == k && x.2.acc == some a && x.2.batch.isNone then
      { x.2 with batch := some (rd 0 st.sealedB a + 1) } else x.2)) = closedOps s.ops k a (rd 0 st.sealedB a + 1) :=
    List.map_congr_left fun q _ => by simp [Op.closed, and_assoc]
  have hseal : s.seal k a = State.settleBatches { s.setStrand k (st.joins a) with ops := closedOps s.ops k a (rd 0 st.sealedB a + 1) } k a := by
    rw [← hclosed, State.seal, hs]
    rfl
  refine hseal.trans (settleBatches_eq (st := st.joins a) a ?_)
  exact State.strand_setStrand_same s k _

theorem seal_strand {s : State} {k : Nat} {st : Strand} (a : Nat) (hs : s.strand k = some st) :
    (s.seal k a).strand k = some (st.sealing s.ops k a) ∧ (s.seal k a).ops = closedOps s.ops k a (rd 0 st.sealedB a + 1) ∧
      s.seal k a = { s with strands := (s.seal k a).strands, ops := (s.seal k a).ops } := by
  rw [seal_eq a hs]
  exact ⟨look_upd_same _ k (some _), rfl, rfl⟩

/-- What the strand counts once the path's open set is sealed: one batch more on that path, finished where the path has no operation. -/
theorem sealing_counts (st : Strand) (ops : Tab Op) (k a : Nat) :
    rd 0 (st.sealing ops k a).sealedB a = rd 0 st.sealedB a + 1 ∧
      (∀ b, b ≠ a → rd 0 (st.sealing ops k a).sealedB b = rd 0 st.sealedB b ∧ rd 0 (st.sealing ops k a).finishedB b = rd 0 st.finishedB b) ∧
      ((∀ q ∈ ops, q.2.strand = k → q.2.acc ≠ some a) → rd 0 (st.sealing ops k a).finishedB a = rd 0 (st.sealing ops k a).sealedB a) := by
  refine ⟨by simp [Strand.sealing, Strand.settles, Strand.joins], fun b hb => ?_, fun hnone => ?_⟩
  · simp [Strand.sealing, Strand.settles, Strand.joins, rd_wr, hb]
  · simp [Strand.sealing, Strand.settles, Strand.joins, finishedNow_closedOps hnone]

theorem paid_ops (i : Instr) (e : Env) (s : State) : (paid i e s).ops = s.ops := by
  rw [paid_eq]
  rfl
theorem paid_pkg (i : Instr) (e : Env) (s : State) : (paid i e s).pkg = s.pkg := by
  rw [paid_eq]
  rfl
theorem paid_nextId (i : Instr) (e : Env) (s : State) : (paid i e s).nextId = s.nextId := by
  rw [paid_eq]
  rfl

/-! Publishes -/

/-- PUB raises causes of its own checks and of the record's. -/
theorem pubFault_cause {s : State} {d ctx : Nat} {c : BitVec 3} {id : Nat} {f : Nat × Nat} (h : pubFault s d ctx c id = some f) : f.1 < 0xB0 := by
  unfold pubFault at h
  split_ifs at h
  · cases h; decide
  split at h
  · cases h; decide
  split at h
  · cases h; show 0x20 < 0xB0; decide
  split_ifs at h <;> cases h <;> decide

/-- What PUB does: its operation starts, and its request goes to the home unit under the next number (01 R31). -/
def Env.publish (e : Env) (d id : Nat) (s : State) : State :=
  let v := (e.start { kind := .pub d id, sregs := [d] } s).2
  { v with nextId := v.nextId + 1, pkg := { v.pkg with pubs := upd v.pkg.pubs v.nextId (some { ctx := e.ctx, obj := id, op := some s.nextId }) } }
/-- PUB under its checks. -/
def Env.pub (e : Env) (d : Nat) (c : BitVec 3) (id : Nat) (s : State) : State := match pubFault s e.die e.ctx c id with
  | some f => e.raise s f.1 f.2 (id * 2 ^ 40)
  | none => e.next (e.publish d id s)

section
variable {s : State} {e : Env} {r : Run}

theorem exec_pub {z : BitVec 1} {d : BitVec 7} {c : BitVec 3} {k : BitVec 2} {l : BitVec 4} (h : Issues (.pub z d c k l) s e r) :
    exec (.pub z d c k l) s = .next (e.pub d.toNat c (e.st.upair (2 * k.toNat) / 2 ^ 40 % 2 ^ 24) (paid (.pub z d c k l) e s)) :=
  issue_body (fun e s => e.pub d.toNat c (e.st.upair (2 * k.toNat) / 2 ^ 40 % 2 ^ 24) s) h

theorem publish_starts {u : State} {d id : Nat} (hs : u.strand e.k = some e.st) (hp : e.p = e.st.path e.pi) :
    ∃ v, StartsOp u v e { kind := .pub d id, sregs := [d] } (e.started u) ∧ v.cur = u.cur ∧
      e.publish d id u = { v with nextId := u.nextId + 2, pkg := { u.pkg with
        pubs := upd u.pkg.pubs (u.nextId + 1) (some { ctx := e.ctx, obj := id, op := some u.nextId }) } } := by
  obtain ⟨hstart, hcur⟩ := start_starts { kind := .pub d id, sregs := [d] } hs hp
  refine ⟨_, hstart, hcur, ?_⟩
  unfold Env.publish
  generalize (e.start { kind := .pub d id, sregs := [d] } u).2 = v at hstart
  have hpkg : v.pkg = u.pkg := by rw [hstart.package]
  dsimp only
  rw [hpkg, hstart.nextId]

/-- SEAL goes on from the charged state with its access path sealed. -/
theorem seal_retires {z : BitVec 1} {p : BitVec 2} (h : Issues (.seal z p) s e r) : ∃ t st', exec (.seal z p) s = .next t ∧
    Retires ((paid (.seal z p) e s).seal e.k p.toNat) t e r none false (e.st.sealing s.ops e.k p.toNat) st' := by
  obtain ⟨-, -, hp, hrun, -, -⟩ := envOf_eq h.1
  obtain ⟨hstrand, -, hframe⟩ := seal_strand p.toNat (paid_strand_same (.seal z p) e s)
  rw [paid_ops] at hstrand
  have hcur : ((paid (.seal z p) e s).seal e.k p.toNat).cur = some (e.k, e.pi) := by rw [hframe]; exact paid_cur h
  obtain ⟨st', hret⟩ := next_retires hcur hstrand (r := r) (hp ▸ hrun) rfl
  exact ⟨_, st', issue_body (fun e s => e.next (s.seal e.k p.toNat)) h, hret⟩

theorem closedOps_eq (ops : Tab Op) (k a : Nat) (b : Word) :
    closedOps ops k a b = ops.map fun q => (q.1, if q.2.strand = k ∧ q.2.acc = some a ∧ q.2.batch = none then { q.2 with batch := some b } else q.2) := rfl

theorem pub_retires {z : BitVec 1} {d : BitVec 7} {c : BitVec 3} {k : BitVec 2} {l : BitVec 4} (h : Issues (.pub z d c k l) s e r) {id : Nat}
    (hid : e.st.upair (2 * k.toNat) / 2 ^ 40 % 2 ^ 24 = id) (hfault : pubFault (paid (.pub z d c k l) e s) e.die e.ctx c id = none) :
    ∃ v t st1 st', exec (.pub z d c k l) s = .next t ∧ StartsOp (paid (.pub z d c k l) e s) v e { kind := .pub d.toNat id, sregs := [d.toNat] } st1 ∧
      Retires { v with nextId := s.nextId + 2, pkg := { s.pkg with
        pubs := upd s.pkg.pubs (s.nextId + 1) (some { ctx := e.ctx, obj := id, op := some s.nextId }) } } t e r none false st1 st' := by
  obtain ⟨-, -, hp, hrun, -, -⟩ := envOf_eq h.1
  obtain ⟨v, hstart, hcur, hpublish⟩ := publish_starts (d := d.toNat) (id := id) (paid_strand_same (.pub z d c k l) e s) hp
  rw [paid_nextId, paid_pkg] at hpublish
  have hexec : exec (.pub z d c k l) s = .next (e.next (e.publish d.toNat id (paid (.pub z d c k l) e s))) := by
    rw [exec_pub h, hid, Env.pub, hfault]
  rw [hpublish] at hexec
  obtain ⟨st', hret⟩ := next_retires (u := { v with nextId := s.nextId + 2, pkg := _ }) (hcur.trans (paid_cur h)) hstart.strand (r := r)
    (by simpa [Env.started] using hrun) (by simp [Env.started])
  exact ⟨v, _, _, st', hexec, hstart, hret⟩

end

/-- Settles O14: SEAL's counts are those of `sealing`, WAIT only goes on, and PUB goes on with its operation and its request. -/
theorem batchesAndPublishes : Obligations.BatchesAndPublishes := by
  intro s e r
  refine ⟨fun z p h => ?_, fun z w p h => h.computes_nothing (issue_body (fun e => e.next) h), fun z d c k l h => ⟨fun f hfault => ?_, fun hfault => ?_⟩⟩
  · obtain ⟨t, st', hexec, hret⟩ := seal_retires h
    obtain ⟨-, hops, hframe⟩ := seal_strand p.toNat (paid_strand_same (.seal z p) e s)
    obtain ⟨hsealed, hothers, hfinished⟩ := sealing_counts e.st s.ops e.k p.toNat
    rw [paid_ops, closedOps_eq] at hops
    exact ⟨_, t, _, st', hexec, hret, hsealed, hothers, hfinished, rfl, hops, hframe⟩
  · refine stopsWhole_of_raise ((exec_pub h).trans (congrArg _ ?_)) (pubFault_cause hfault)
    rw [Env.pub, hfault]
  · obtain ⟨v, t, st1, st', hexec, hstart, hret⟩ := pub_retires h rfl hfault
    refine ⟨v, _, t, st1, st', hexec, hstart, ?_, ?_, ?_, ?_, hret⟩
    · exact look_upd_same s.pkg.pubs _ (some _)
    · rfl
    · rfl
    · exact fun j hj => look_upd_other s.pkg.pubs (some _) hj

end Sys2Proof.Machine
end

section
/-!
PROOFS. A load that returns for a thread number beyond 31 writes another register of a thread of the strand (05 R94; 07 R160).
-/

namespace Sys2Proof.Machine

/-- A load of 4 bytes to v8 for a thread beyond the 32 of a strand, whose one byte is padding and so at hand. -/
def strayLoad : Op := { kind := .load 8 4 false false, items := [{ t := 32, src := [.pad 1] }] }

theorem loadDataReturn_writes_stray : StrayWritten (.loadDataReturn 5) strayLoad := ⟨_, _, rfl, rfl, by decide +kernel⟩

/-- Refutes O37: the statement lets an item name any thread number. The byte that a load to v8 brings for an item of thread 32 is written to v9 of
thread 0, where the statement has every register of a thread without an item unchanged. -/
theorem not_loadsAndStoresEnd : ¬ Obligations.LoadsAndStoresEnd := by
  unfold Obligations.LoadsAndStoresEnd
  intro h
  obtain ⟨hreturn, -⟩ := h (lastStep strayLoad) 5 strayLoad {} rfl rfl
  have hbytes : ∀ i ∈ strayLoad.items, (lastStep strayLoad).itemBytes strayLoad i = some [1] := by decide
  have hordered : (lastStep strayLoad).ordered 5 strayLoad = true := by decide
  have htogether : (lastStep strayLoad).together strayLoad = true := by decide
  have hquiet : strayLoad.quiet := ⟨by decide, rfl, rfl⟩
  have hreadable : ∀ i ∈ strayLoad.items, (lastStep strayLoad).readCause (coreDie strayLoad.core)
      ((memKeys i.src).filter fun a => !(lastStep strayLoad).fromL1 strayLoad a) = 0 := by decide
  obtain ⟨hload, -⟩ := hreturn (fun _ => [1]) hbytes hordered htogether hquiet hreadable
  obtain ⟨t, st', hexec, hdone, -, -, -, hgives⟩ := hload 8 4 false rfl (List.nodup_singleton _)
  exact loadDataReturn_writes_stray.not_unchanged hexec hdone.strand (hgives.vec 9 0 (by decide))

end Sys2Proof.Machine
end

section
/-!
PROOFS. The entries of a key table, what writing one does to another, and what the search of a table finds (04 R86, R88).
-/

namespace Sys2Proof.Machine

/-! Ranges of keys -/

theorem mem_keysFrom {a n k : Nat} : k ∈ keysFrom a n ↔ a ≤ k ∧ k < a + n := by
  simp only [keysFrom, List.mem_map, List.mem_range]
  exact ⟨fun ⟨i, hi, hk⟩ => by omega, fun hk => ⟨k - a, by omega⟩⟩

theorem keysFrom_nodup (a n : Nat) : (keysFrom a n).Nodup := List.Nodup.map_on (fun _ _ _ _ h => by omega) List.nodup_range

@[simp] theorem keysFrom_length (a n : Nat) : (keysFrom a n).length = n := by simp [keysFrom]

/-! Entries -/

/-- Two entries of a table share no byte (04 R88). -/
theorem entryKeys_disjoint (g : Gang) (d : KeyDesc) {p q : Nat} (h : q ≠ p) : ∀ k ∈ entryKeys g d q, k ∉ entryKeys g d p := by
  intro k hq hp
  simp only [entryKeys, poolKey, scratchKey, mem_keysFrom] at hq hp
  omega

theorem entryOf_setEntry_same {ks : List Nat} (hks : ks.Nodup) (hlen : ks.length = 16) (m : List Host.Cell) {key v : Nat} (hkey : key < 2 ^ 64)
    (hv : v < 2 ^ 64) : entryOf (setEntry m ks key v) ks = (key, v) := by
  have hbytes := map_readByte_writeBytes hks (bs := leBytes 16 (key + 2 ^ 64 * v)) m (by rw [leBytes_length, hlen])
  have hfits : key + 2 ^ 64 * v < 2 ^ (8 * 16) := by norm_num; omega
  rw [entryOf, setEntry, hbytes, leNat_leBytes, Nat.mod_eq_of_lt hfits, Prod.mk.injEq]
  omega

theorem entryOf_setEntry_other {ks es : List Nat} (h : ∀ k ∈ ks, k ∉ es) (m : List Host.Cell) (key v : Nat) :
    entryOf (setEntry m es key v) ks = entryOf m ks := by
  rw [entryOf, setEntry, List.map_congr_left fun k hk => readByte_writeBytes_other _ _ _ _ (h k hk)]
  rfl

/-! Searches -/

section
variable {s : State} {g : Gang} {core ctx : Nat} {r : Option ObjRec} {d : KeyDesc} {key : Nat}

/-- A key that no search finds stands in no entry of its buckets, all of which could be read. -/
theorem absent_of_findKey (h : findKey s g core ctx r d key = .absent) :
    ((d.probe key).flatMap (entryKeys g d)).any s.uncorrectable = false ∧ ∀ p ∈ d.probe key, (entryOf s.mem (entryKeys g d p)).1 ≠ key := by
  unfold findKey at h
  split at h
  · cases h
  next hread =>
  refine ⟨Bool.eq_false_iff.mpr hread, ?_⟩
  cases hin : inBuckets s g d key with
  | some p => simp [hin] at h
  | none => simpa [inBuckets, List.find?_eq_none] using hin

/-- Where one position of the probe holds the key, and no other, the search ends there. -/
theorem findKey_at {p : Nat} (hread : ((d.probe key).flatMap (entryKeys g d)).any s.uncorrectable = false) (hp : p ∈ d.probe key)
    (hat : (entryOf s.mem (entryKeys g d p)).1 = key) (honly : ∀ q, q ∈ d.probe key → q ≠ p → (entryOf s.mem (entryKeys g d q)).1 ≠ key) :
    findKey s g core ctx r d key = .at (entryKeys g d p) := by
  have hin : inBuckets s g d key = some p := by
    cases hfind : inBuckets s g d key with
    | none => exact absurd hat (by simpa using List.find?_eq_none.mp hfind p hp)
    | some q =>
      have hq : (entryOf s.mem (entryKeys g d q)).1 = key := by simpa using List.find?_some hfind
      by_cases hqp : q = p
      · rw [hqp]
      · exact absurd hq (honly q (List.mem_of_find?_eq_some hfind) hqp)
  rw [findKey, hread, hin]
  rfl

/-- An insertion that finds its key absent, and completes, writes an entry of the key's buckets that was empty (04 R90). -/
theorem insert_writes {v val : Nat} {m : List Host.Cell} (h : applyKey s g core ctx r d 0 key v = .done m false val) :
    key ≠ emptyKey ∧ findKey s g core ctx r d key = .absent ∧ ∃ p ∈ d.probe key, m = setEntry s.mem (entryKeys g d p) key v := by
  unfold applyKey at h
  split at h
  · cases h
  next hkey =>
  refine ⟨hkey, ?_⟩
  cases hfind : findKey s g core ctx r d key with
  | absent =>
    simp only [hfind, if_neg (show ¬ (0 = 1 ∨ 0 = 2) by decide)] at h
    split at h
    next p hp => exact ⟨rfl, p, List.mem_of_find?_eq_some hp, by cases h; rfl⟩
    · cases h
  | _ => simp [hfind] at h

/-- A probe gives the value of the entry at which its search ends. -/
theorem probe_at {ks : List Nat} (val : Nat) (hkey : key ≠ emptyKey) (h : findKey s g core ctx r d key = .at ks) :
    applyKey s g core ctx r d 1 key val = .done s.mem true (entryOf s.mem ks).2 := by
  rw [applyKey, if_neg hkey]
  simp [h]

end

/-- Settles O17: the insertion writes one entry of the key's buckets, and the probe ends there, for no other entry holds the key. -/
theorem insertedKeyIsFound : Obligations.InsertedKeyIsFound := by
  unfold Obligations.InsertedKeyIsFound
  intro s g core ctx r d key v val val' m _ hkey hv hins
  obtain ⟨hne, habsent, p, hp, rfl⟩ := insert_writes hins
  obtain ⟨hread, hnone⟩ := absent_of_findKey habsent
  have hentry : entryOf (setEntry s.mem (entryKeys g d p) key v) (entryKeys g d p) = (key, v) :=
    entryOf_setEntry_same (keysFrom_nodup _ _) (keysFrom_length _ _) s.mem hkey hv
  have hfound : findKey (s.setMem (setEntry s.mem (entryKeys g d p) key v)) g core ctx r d key = .at (entryKeys g d p) := by
    refine findKey_at hread hp (congrArg Prod.fst hentry) fun q hq hqp => ?_
    have hother := entryOf_setEntry_other (entryKeys_disjoint g d hqp) s.mem key v
    exact fun h => hnone q hq ((congrArg Prod.fst hother).symm.trans h)
  rw [probe_at val' hne hfound]
  exact congrArg (Applied.done _ true) (congrArg Prod.snd hentry)

end Sys2Proof.Machine
end

section
/-!
PROOFS. Scratchpad loads and stores: what a load's registers take, and which thread's byte a store leaves (04 R79; 07 R158 to R160).
-/

namespace Sys2Proof.Machine

/-! What these instructions share -/

/-- An instruction whose body leaves the path and its run as they were, and goes on, retires. -/
theorem Issues.retires {i : Instr} {s u : State} {e : Env} {r : Run} {st1 : Strand} (h : Issues i s e r) (hcur : u.cur = (paid i e s).cur)
    (hs : u.strand e.k = some st1) (hrun : (st1.path e.pi).run = e.p.run) (hstep : st1.stepping = e.st.stepping) :
    ∃ st', Retires u (e.next u) e r none false st1 st' := by
  obtain ⟨-, -, -, hr, -, -⟩ := envOf_eq h.1
  exact next_retires (hcur.trans (paid_cur h)) hs (hrun.trans hr) hstep

/-- Retiring is the same from a state whose cores only read alike. -/
theorem Retires.of_cores {u u' t : State} {e : Env} {r : Run} {jump : Option Word} {ends : Bool} {st1 st' : Strand} (h : Retires u' t e r jump ends st1 st')
    (hu : u' = { u with cores := u'.cores }) (hc : ∀ c, u'.core c = u.core c) : Retires u t e r jump ends st1 st' := by
  have hstrand (k : Nat) : u'.strand k = u.strand k := by rw [hu]; rfl
  refine ⟨hstrand e.k ▸ h.before, h.strand, h.path, h.other, h.rest, fun k hk => (h.strands k hk).trans (hstrand k), fun c => ?_, fun c hcc => ?_,
    h.lane, ?_⟩
  · rw [← hc c]; exact h.cores c
  · rw [← hc c]; exact h.counts c hcc
  · rw [h.package, hu]

theorem State.charge_setStrand (s : State) (k : Nat) (st : Strand) (core ctx cls n : Nat) :
    (s.setStrand k st).charge core ctx cls n = (s.charge core ctx cls n).setStrand k st := by
  unfold State.charge
  split <;> rfl

theorem State.charge_setMem (s : State) (m : List Host.Cell) (core ctx cls n : Nat) :
    (s.setMem m).charge core ctx cls n = (s.charge core ctx cls n).setMem m := by
  unfold State.charge
  split <;> rfl

theorem State.charge_strand (s : State) (core ctx cls n k : Nat) : (s.charge core ctx cls n).strand k = s.strand k := by
  rw [State.charge_eq]
  rfl

theorem State.charge_cur (s : State) (core ctx cls n : Nat) : (s.charge core ctx cls n).cur = s.cur := by rw [State.charge_eq]

theorem paid_phys (i : Instr) (e : Env) (s : State) : (paid i e s).phys = s.phys := by
  rw [paid_eq]
  rfl

theorem path_setEachGroup (st : Strand) (d n : Nat) (ts : List Nat) (f : Nat → Nat) (pi : Nat) : (st.setEachGroup d n ts f).path pi = st.path pi := by
  rw [Strand.setEachGroup_rest]
  rfl

/-! Where every thread passes its checks -/

section
variable {α : Type} {e : Env} {n : Nat} {addr : Nat → Nat}

theorem passed_of_ok (ts : List Nat) (addr : Nat → Nat) (x : Nat → α) :
    Reach.passed (ts.map fun t => (t, addr t, .ok (x t))) = ts.map fun t => (t, addr t, x t) := by
  rw [Reach.passed, List.filterMap_map]
  exact congrFun List.filterMap_eq_map ts

theorem failed_of_ok (ts : List Nat) (addr : Nat → Nat) (x : Nat → α) : Reach.failed (ts.map fun t => (t, addr t, .ok (x t))) = [] := by
  simp [Reach.failed, List.filterMap_map]

theorem reachScr_of_scratch {keys : Nat → List Nat} (h : ∀ t ∈ e.ts, scratch e.g (addr t) n = .ok (keys t)) :
    e.reachScr n addr = e.ts.map fun t => (t, addr t, .ok (keys t)) :=
  List.map_congr_left fun t ht => by rw [h t ht]

theorem scrReadable_of_ok {s : State} {ts : List Nat} {keys : Nat → List Nat} (h : ∀ t ∈ ts, ∀ k ∈ keys t, k ∉ s.phys.bad) :
    scrReadable s (ts.map fun t => (t, addr t, .ok (keys t))) = ts.map fun t => (t, addr t, .ok (keys t)) := by
  rw [scrReadable, List.map_map]
  refine List.map_congr_left fun t ht => ?_
  have hgood : (keys t).any s.uncorrectable = false := by simpa [State.uncorrectable] using h t ht
  simp only [Function.comp_apply, hgood]
  rfl

end

theorem nextFailed_none (e : Env) (s : State) : e.nextFailed s [] = e.next s := rfl

/-! Loads -/

/-- A load's registers take the number of its bytes, extended from its top bit or with zeros (07 R160). -/
theorem loadValue_eq (n : Nat) (sx : Bool) (v : Nat) : loadValue n sx v = extended n sx v := by
  have hsigned : signed (8 * n) v = (BitVec.ofNat (8 * n) v).toInt := by
    rw [BitVec.toInt_eq_toNat_cond, BitVec.toNat_ofNat, signed]
    have hhalf : v % 2 ^ (8 * n) < 2 ^ (8 * n - 1) ↔ 2 * (v % 2 ^ (8 * n)) < 2 ^ (8 * n) := by
      cases n with
      | zero => simp [Nat.mod_one]
      | succ n =>
        have hpow : 2 ^ (8 * (n + 1)) = 2 * 2 ^ (8 * (n + 1) - 1) := by rw [← pow_succ']; congr 1
        omega
    simp only [hhalf]
  rw [loadValue, extended, hsigned, unsigned, BitVec.toNat_ofInt]

/-- What LD from the scratchpad leaves, where every thread's bytes lie in an area and can be read. -/
theorem loadS_of_scratch {e : Env} {s : State} {d a : BitVec 7} {off : Int} {n : Nat} {keys : Nat → List Nat} (sx : Bool) (hs : s.strand e.k = some e.st)
    (h : ∀ t ∈ e.ts, scratch e.g (e.scratchAt a off t) n = .ok (keys t) ∧ ∀ k ∈ keys t, k ∉ s.phys.bad) :
    e.loadS d a off n sx s = e.next ((s.charge e.core e.ctx 5 (occupancy (e.ts.flatMap keys))).setStrand e.k
      (e.st.setEachGroup d.toNat (regsOf n) e.ts fun t => extended n sx (leNat ((keys t).map (readByte s.mem))))) := by
  unfold Env.loadS
  dsimp only
  rw [scrAddr_eq, reachScr_of_scratch fun t ht => (h t ht).1, scrReadable_of_ok fun t ht => (h t ht).2, passed_of_ok, failed_of_ok, nextFailed_none,
    onStrand_of_some hs, State.charge_setStrand, List.foldl_map, List.flatMap_map]
  simp only [loadValue_eq]
  rfl

theorem exec_scratchLoad {i : Instr} {s : State} {e : Env} {r : Run} {d a : BitVec 7} {n : Nat} {off : Int} {sx : Bool} (h : Issues i s e r)
    (hx : scratchLoad e i = some (d, a, n, off, sx)) : exec i s = .next (e.loadS d a off n sx (paid i e s)) := by
  cases i <;> simp only [scratchLoad, Option.some.injEq, reduceCtorEq, Prod.mk.injEq] at hx
  case ldS z c d' a' o l u =>
    obtain ⟨rfl, rfl, rfl, rfl, rfl⟩ := hx
    exact issue_body _ h
  case ldSExt z c d' a' o l u =>
    obtain ⟨rfl, rfl, rfl, rfl, rfl⟩ := hx
    exact issue_body _ h

theorem setEachGroup_writesVector (st : Strand) (d n : Nat) (act : Mask) (f : Nat → Nat) :
    WritesVector st (st.setEachGroup d n (active act) f) act d n f := by
  have h := put_writes st 0 d n act f
  rw [Writes, if_neg (by decide)] at h
  exact h

/-- LD from the scratchpad (07 R160, 04 R79). -/
theorem scratchLoadsPart : ScratchLoadsPart := by
  intro i s e r d a n off sx keys h hx hkeys
  obtain ⟨-, -, hp, -, -, -⟩ := envOf_eq h.1
  have hexec := exec_scratchLoad h hx
  rw [loadS_of_scratch sx (paid_strand_same i e s) (by simpa only [paid_phys] using hkeys), paid_mem] at hexec
  generalize hbase : (paid i e s).charge e.core e.ctx 5 (occupancy (e.ts.flatMap keys)) = base at hexec ⊢
  generalize (fun t => extended n sx (leNat ((keys t).map (readByte s.mem)))) = value at hexec ⊢
  have hcur : base.cur = (paid i e s).cur := by rw [← hbase, State.charge_cur]
  obtain ⟨st', hret⟩ := h.retires (u := base.setStrand e.k (e.st.setEachGroup d.toNat (regsOf n) e.ts value)) hcur
    (State.strand_setStrand_same base e.k _) (by rw [path_setEachGroup, hp]) (by rw [Strand.setEachGroup_rest])
  refine ⟨_, _, _, st', hexec, onlyStrand_setStrand base e.k _, ?_, ?_, hret, ?_, setEachGroup_writesVector e.st d.toNat (regsOf n) e.act _⟩
  · exact hp ▸ put_onlyRegs e.st e.pi 0 d.toNat (regsOf n) e.act _
  · exact put_accs e.st 0 d.toNat (regsOf n) e.act _
  · rw [Env.next_mem, State.setStrand_mem, ← hbase, State.charge_mem, paid_mem]

/-! Stores -/

theorem getElem?_leBytes {n : Nat} (v : Nat) {j : Nat} (hj : j < n) : (leBytes n v)[j]? = some (BitVec.ofNat 8 (v / 2 ^ (8 * j))) := by
  induction n generalizing v j with
  | zero => omega
  | succ n ih =>
    cases j with
    | zero => simp [leBytes]
    | succ j =>
      rw [leBytes, List.getElem?_cons_succ, ih _ (by omega), Nat.div_div_eq_div_mul, show 8 * (j + 1) = 8 + 8 * j by ring, pow_add]
      rfl

theorem readByte_writeBytes_at {ks : List Nat} {bs : List Byte} (m : List Host.Cell) (hks : ks.Nodup) (hlen : bs.length = ks.length) {j k : Nat} {b : Byte}
    (hk : ks[j]? = some k) (hb : bs[j]? = some b) : readByte (writeBytes m ks bs) k = b := by
  have h := congrArg (·[j]?) (map_readByte_writeBytes hks m hlen)
  simpa [hk, hb] using h

theorem scratch_ok {g : Gang} {a n : Nat} {ks : List Nat} (h : scratch g a n = .ok ks) : ∃ k, ks = keysFrom k n := by
  unfold scratch at h
  split_ifs at h <;> cases h <;> exact ⟨_, rfl⟩

/-- Memory after the listed threads have stored n bytes each, one after another. -/
def storedBy (n : Nat) (keys : Nat → List Nat) (val : Nat → Nat) (m : List Host.Cell) (ts : List Nat) : List Host.Cell :=
  ts.foldl (fun m t => writeBytes m (keys t) (leBytes n (val t))) m

section
variable {n : Nat} {keys : Nat → List Nat} {val : Nat → Nat}

theorem readByte_storedBy_other {k : Nat} (ts : List Nat) (m : List Host.Cell) (h : ∀ q ∈ ts, k ∉ keys q) :
    readByte (storedBy n keys val m ts) k = readByte m k := by
  induction ts generalizing m with
  | nil => rfl
  | cons t ts ih =>
    rw [storedBy, List.foldl_cons, ← storedBy, ih _ fun q hq => h q (List.mem_cons_of_mem t hq),
      readByte_writeBytes_other _ _ _ _ (h t List.mem_cons_self)]

/-- Of the threads that store a byte, in ascending order, the highest one's stands. -/
theorem readByte_storedBy_highest {ts : List Nat} (m : List Host.Cell) (hts : ts.Pairwise (· < ·)) (hkeys : ∀ t ∈ ts, ∃ k, keys t = keysFrom k n) {q j k : Nat}
    (hq : q ∈ ts) (hk : (keys q)[j]? = some k) (hhigh : ∀ q' ∈ ts, q < q' → k ∉ keys q') :
    readByte (storedBy n keys val m ts) k = BitVec.ofNat 8 (val q / 2 ^ (8 * j)) := by
  induction ts generalizing m with
  | nil => cases hq
  | cons t ts ih =>
    obtain ⟨habove, hts⟩ := List.pairwise_cons.mp hts
    have hhigh' : ∀ q' ∈ ts, q < q' → k ∉ keys q' := fun q' hq' => hhigh q' (List.mem_cons_of_mem t hq')
    rw [storedBy, List.foldl_cons, ← storedBy]
    rcases List.mem_cons.mp hq with rfl | hq
    · obtain ⟨k₀, hk₀⟩ := hkeys q List.mem_cons_self
      have hj : j < n := by
        have := (List.getElem?_eq_some_iff.mp hk).1
        rwa [hk₀, keysFrom_length] at this
      rw [readByte_storedBy_other ts _ fun q' hq' => hhigh' q' hq' (habove q' hq')]
      exact readByte_writeBytes_at m (hk₀ ▸ keysFrom_nodup k₀ n) (by rw [leBytes_length, hk₀, keysFrom_length]) hk (getElem?_leBytes _ hj)
    · exact ih _ hts (fun t' ht' => hkeys t' (List.mem_cons_of_mem t ht')) hq hhigh'

end

theorem covers_of_disabled {p : Watch} (h : p.ctl.getLsbD 14 = false) (ctx : Nat) (scr : Bool) (a n : Nat) : p.covers ctx scr a n = false := by
  simp [Watch.covers, (bits_one_eq_zero_iff p.ctl 14).mpr h]

/-- Where no watchpoint of the core is enabled, no write fires one (15 R377). -/
theorem fires_of_noWatch {s0 : State} {core : Nat} (h : noWatch s0 core) (s1 : State) (ctx : Nat) (g : Gang) (scr : Bool) (a : Nat) (dst : List Nat) :
    fires s0 s1 core ctx g scr a dst = [] := by
  have hoff : ∀ x ∈ watchpoints s0 core, ∀ w, x.2.covers ctx scr w 8 = false := by
    intro x hx w
    obtain ⟨n, hn, rfl⟩ := List.mem_map.mp hx
    exact covers_of_disabled (h n (List.mem_range.mp hn)) ctx scr w 8
  unfold fires
  rw [List.flatMap_eq_nil_iff]
  intro w _
  rw [List.filterMap_eq_nil_iff]
  intro x hx
  simp [hoff x hx w]

theorem noWatch_paid {i : Instr} {e : Env} {s : State} (h : noWatch s e.core) : noWatch (paid i e s) e.core := by
  intro n hn
  rw [paid, State.charge_core, State.charge_core, begun_core]
  exact h n hn

/-- A step that fires nothing leaves every core as it was. -/
theorem fired_nil_core (s : State) (core c : Nat) : (s.fired core []).core c = s.core c := by
  rw [State.fired, State.onCore, State.core_setCore]
  split
  · subst c; rfl
  · rfl

/-- What ST to the scratchpad leaves, where every thread's bytes lie in an area and no watchpoint is enabled. -/
theorem storeS_of_scratch {e : Env} {s : State} {d a : BitVec 7} {off : Int} {n : Nat} {keys : Nat → List Nat} (hw : noWatch s e.core)
    (h : ∀ t ∈ e.ts, scratch e.g (e.scratchAt a off t) n = .ok (keys t)) :
    e.storeS d a off n s = e.next (((s.charge e.core e.ctx 5 (occupancy (e.ts.flatMap keys))).setMem
      (storedBy n keys (e.get 0 d (regsOf n)) s.mem e.ts)).fired e.core []) := by
  have hfold (ts : List Nat) (u : State) (hu : noWatch u e.core) :
      (ts.map fun t => (t, e.scratchAt a off t, keys t)).foldl (fun (r : State × List (Nat × Nat × Nat)) p =>
        let s1 := r.1.setMem (writeBytes r.1.mem p.2.2 (leBytes n (e.st.srcN d.toNat (regsOf n) p.1)))
        (s1, r.2 ++ (fires r.1 s1 e.core e.ctx e.g true p.2.1 p.2.2).map fun f => (p.1, f))) (u, []) =
      (u.setMem (storedBy n keys (e.get 0 d (regsOf n)) u.mem ts), []) := by
    induction ts generalizing u with
    | nil => rfl
    | cons t ts ih =>
      rw [List.map_cons, List.foldl_cons]
      dsimp only
      rw [fires_of_noWatch hu]
      exact ih (u.setMem _) hu
  unfold Env.storeS
  dsimp only
  rw [scrAddr_eq, reachScr_of_scratch h, passed_of_ok, failed_of_ok, hfold e.ts s hw, nextFailed_none, List.flatMap_map, State.charge_setMem]
  rfl

theorem exec_scratchStore {i : Instr} {s : State} {e : Env} {r : Run} {d a : BitVec 7} {n : Nat} {off : Int} (h : Issues i s e r)
    (hx : scratchStore e i = some (d, a, n, off)) : exec i s = .next (e.storeS d a off n (paid i e s)) := by
  cases i <;> simp only [scratchStore, Option.some.injEq, reduceCtorEq, Prod.mk.injEq] at hx
  case stS z c d' a' o l u =>
    obtain ⟨rfl, rfl, rfl, rfl⟩ := hx
    exact issue_body _ h
  case stSB128 z d' a' l =>
    obtain ⟨rfl, rfl, rfl, rfl⟩ := hx
    exact issue_body _ h

/-- ST to the scratchpad (07 R160, 04 R79). -/
theorem scratchStoresPart : ScratchStoresPart := by
  intro i s e r d a n off keys h hx hw hkeys
  obtain ⟨-, -, hp, -, -, -⟩ := envOf_eq h.1
  have hexec := exec_scratchStore h hx
  rw [storeS_of_scratch (noWatch_paid hw) hkeys, paid_mem] at hexec
  generalize hbase : (paid i e s).charge e.core e.ctx 5 (occupancy (e.ts.flatMap keys)) = base at hexec ⊢
  generalize hm : storedBy n keys (e.get 0 d (regsOf n)) s.mem e.ts = m at hexec
  have hcur : base.cur = (paid i e s).cur := by rw [← hbase, State.charge_cur]
  have hstrand : base.strand e.k = some e.st := by rw [← hbase, State.charge_strand, paid_strand_same]
  obtain ⟨st', hret⟩ := h.retires (u := (base.setMem m).fired e.core []) hcur hstrand (by rw [hp]) rfl
  have hmem : (e.next ((base.setMem m).fired e.core [])).mem = m := Env.next_mem e _
  refine ⟨_, m, st', hexec, hret.of_cores rfl fun c => fired_nil_core _ _ c, fun q j k hq hk hhigh => ?_, fun k hk => ?_⟩
  · rw [hmem, ← hm]
    exact readByte_storedBy_highest s.mem (active_sorted e.act) (fun t ht => scratch_ok (hkeys t ht)) hq hk hhigh
  · rw [hmem, ← hm]
    exact readByte_storedBy_other e.ts s.mem hk

/-- Settles O9: a load writes its group of registers and charges; a store is `storedBy` of its threads in ascending order. -/
theorem scratchAccesses : Obligations.ScratchAccesses := ⟨scratchLoadsPart, scratchStoresPart⟩

end Sys2Proof.Machine
end

section
/-!
PROOFS. The tag table: what TLOOK finds in a set, what TSET and TINV leave in the table, and the threads that do not fit (04 R84; 07 R175).
-/

namespace Sys2Proof.Machine

/-! Tables written for one thread after another -/

section
variable {α : Type} [DecidableEq α] {d : α} {slot : Nat → Nat} {val : Nat → α}

theorem rd_foldl_wr_other {j : Nat} (ts : List Nat) (m : Tab α) (h : ∀ q ∈ ts, slot q ≠ j) :
    rd d (ts.foldl (fun m t => wr d m (slot t) (val t)) m) j = rd d m j := by
  induction ts generalizing m with
  | nil => rfl
  | cons t ts ih =>
    rw [List.foldl_cons, ih _ fun q hq => h q (List.mem_cons_of_mem t hq), rd_wr, if_neg (Ne.symm (h t List.mem_cons_self))]

/-- Of the threads that name a slot, in ascending order, the highest one's value stands. -/
theorem rd_foldl_wr_highest {ts : List Nat} (m : Tab α) (hts : ts.Pairwise (· < ·)) {q : Nat} (hq : q ∈ ts)
    (hhigh : ∀ q' ∈ ts, q < q' → slot q' ≠ slot q) : rd d (ts.foldl (fun m t => wr d m (slot t) (val t)) m) (slot q) = val q := by
  induction ts generalizing m with
  | nil => cases hq
  | cons t ts ih =>
    obtain ⟨habove, hts⟩ := List.pairwise_cons.mp hts
    have hhigh' : ∀ q' ∈ ts, q < q' → slot q' ≠ slot q := fun q' hq' => hhigh q' (List.mem_cons_of_mem t hq')
    rw [List.foldl_cons]
    rcases List.mem_cons.mp hq with rfl | hq
    · rw [rd_foldl_wr_other ts _ fun q' hq' => hhigh' q' hq' (habove q' hq'), rd_wr_same]
    · exact ih _ hts hq hhigh'

end

/-- Clearing the valid bit at the slots of the listed threads clears it there, once or more, and nowhere else. -/
theorem rd_foldl_clear {slot : Nat → Nat} {keep : Dword} (ts : List Nat) (m : Tab Dword) (j : Nat) :
    rd 0 (ts.foldl (fun m t => wr 0 m (slot t) (rd 0 m (slot t) &&& keep)) m) j = if ∃ q ∈ ts, slot q = j then rd 0 m j &&& keep else rd 0 m j := by
  induction ts generalizing m with
  | nil => simp
  | cons t ts ih =>
    rw [List.foldl_cons, ih, rd_wr]
    by_cases ht : slot t = j
    · subst ht
      simp [BitVec.and_assoc]
    · simp [ht, Ne.symm ht]

/-! Threads that all fail alike -/

/-- Where the threads that fail meet one failure at one address, the path stops with it and with those threads. -/
theorem nextFailed_alike {u : State} {e : Env} {r : Run} {st1 : Strand} {bad : List Nat} {f : Failed} (addr : Nat) (hc : u.cur = some (e.k, e.pi))
    (hs : u.strand e.k = some st1) (hr : (st1.path e.pi).run = some r) (hst : st1.stepping = e.st.stepping) (hsorted : bad.Pairwise (· < ·))
    (hthreads : ∀ t ∈ bad, t < 32) (hf : f.ofAccess) (hbad : bad ≠ []) :
    ∃ v st2 st3, Retires u v e r none false st1 st2 ∧
      Stops v (e.nextFailed u (bad.map fun t => (t, addr, f))) e { cause := f.cause, qual := f.qual, emask := maskOf bad, pc := e.chain, addr }
        e.after false st2 st3 := by
  obtain ⟨b, rest, rfl⟩ := List.exists_cons_of_ne_nil hbad
  have hfirst : ((b :: rest).map fun t => (t, addr, f)).find? (earliestIn ((b :: rest).map fun t => (t, addr, f))) = some (b, addr, f) := by
    rw [List.map_cons, List.find?_cons_of_pos]
    simp [earliestIn]
  have h := nextFailed_stops (fs := (b :: rest).map fun t => (t, addr, f)) hc hs hr hst (List.pairwise_map.mpr hsorted)
    (List.forall_mem_map.mpr hthreads) (List.forall_mem_map.mpr fun _ _ => hf) rfl hfirst
  rw [List.map_map] at h
  simpa only [Function.comp_def, List.map_id'] using h

/-! The core that an instruction charges -/

theorem State.charge_core_other (s : State) {core c : Nat} (ctx cls n : Nat) (h : c ≠ core) : (s.charge core ctx cls n).core c = s.core c := by
  unfold State.charge
  split
  · rfl
  · rw [State.onCore, State.core_setCore, if_neg h]

theorem paid_core_other (i : Instr) {e : Env} (s : State) {c : Nat} (h : c ≠ e.core) : (paid i e s).core c = s.core c := by
  rw [paid, State.charge_core_other _ _ _ _ h, State.charge_core_other _ _ _ _ h, begun_core]

theorem paid_tags (i : Instr) (e : Env) (s : State) (c : Nat) : ((paid i e s).core c).tags = (s.core c).tags := by
  rw [paid, State.charge_core, State.charge_core, begun_core]

/-- A core that is not the issuing one is as it was once the instruction has retired. -/
theorem Retires.core_other {u t : State} {e : Env} {r : Run} {jump : Option Word} {ends : Bool} {st1 st' : Strand} (h : Retires u t e r jump ends st1 st')
    {c : Nat} (hc : c ≠ e.core) : t.core c = u.core c := by
  refine (h.cores c).trans ?_
  rw [h.counts c (.inl hc)]

/-! What the instructions do -/

theorem pairAddr_eq (e : Env) (a : BitVec 7) (off : Int) : e.pairAddr a off = e.pairAt a off := by
  funext t
  simp [Env.pairAddr, Env.pairAt, Env.get, Strand.src64, unsigned, BitVec.toNat_ofInt]

/-- The slot that a thread names. -/
def Env.tagSlot (e : Env) (b : BitVec 7) (t : Nat) : Nat := (e.st.src b.toNat t).toNat
/-- The slot lies in the table. -/
def Env.tagInside (e : Env) (b : BitVec 7) (t : Nat) : Bool := decide (e.tagSlot b t < tagEntries e.g.hdr.carve)
/-- The slot lies in the table, in the set of the thread's address. -/
def Env.tagFits (e : Env) (a b : BitVec 7) (t : Nat) : Bool := e.tagInside b t && e.tagSlot b t / 4 == tagSet e.g.hdr.carve (e.pairAt a 0 t)
theorem tagEntries_le_tagSlot (e : Env) (b : BitVec 7) (t : Nat) :
    decide (tagEntries e.g.hdr.carve ≤ (e.st.src b.toNat t).toNat) = !e.tagInside b t := by
  rw [Env.tagInside, ← decide_not]
  exact decide_eq_decide.mpr Nat.not_lt.symm

/-- The entry that TSET writes for a thread: the line of its address, valid. -/
def Env.tagEntry (e : Env) (a : BitVec 7) (t : Nat) : Dword := BitVec.ofNat 64 (e.pairAt a 0 t / 256 * 256 + 1)

/-- The tag table of the issuing core is as `tags` makes it; the threads that are not `ok` stop the path. -/
def Env.tagWrite (e : Env) (ok : Nat → Bool) (tags : Tab Dword → Tab Dword) (s : State) : State :=
  e.nextFailed (s.onCore e.core fun c => { c with tags := tags c.tags }) ((e.ts.filter fun t => !ok t).map fun t => (t, 0, ⟨0, 0x83, 0⟩))

/-- An instruction that writes the tag table for the threads that are `ok`: what it leaves, `tagged` of the table. -/
def WritesTags (i : Instr) (s : State) (e : Env) (r : Run) (ok : Nat → Bool) (tagged : State → Prop) : Prop :=
  ∃ u v t st1 st', exec i s = .next t ∧ u = { paid i e s with cores := u.cores } ∧ Retires u v e r none false e.st st1 ∧
    (∀ c, c ≠ e.core → v.core c = s.core c) ∧
    v.core e.core = { (paid i e s).core e.core with tags := (v.core e.core).tags, evc0 := (v.core e.core).evc0 } ∧ tagged v ∧
    ((∀ q ∈ e.ts, ok q = true) → t = v) ∧ ((∃ q ∈ e.ts, ok q = false) →
      Stops v t e { cause := 0x83, emask := maskOf (e.ts.filter fun q => !ok q), pc := e.chain } e.after false st1 st')

theorem writesTags_of_tagWrite {i : Instr} {s : State} {e : Env} {r : Run} {ok : Nat → Bool} {tags : Tab Dword → Tab Dword} {tagged : State → Prop}
    (h : Issues i s e r) (hx : exec i s = .next (e.tagWrite ok tags (paid i e s)))
    (htagged : ∀ v : State, (v.core e.core).tags = tags (s.core e.core).tags → tagged v) : WritesTags i s e r ok tagged := by
  obtain ⟨-, -, hp, hrun, -, -⟩ := envOf_eq h.1
  rw [hp] at hrun
  generalize hu : (paid i e s).onCore e.core (fun c => { c with tags := tags c.tags }) = u at hx
  have hframe : u = { paid i e s with cores := u.cores } := by rw [← hu]; rfl
  have hcur : u.cur = some (e.k, e.pi) := by rw [hframe]; exact paid_cur h
  have hstrand : u.strand e.k = some e.st := by rw [hframe]; exact paid_strand_same i e s
  have hcore (c : Nat) : u.core c = if c = e.core then { (paid i e s).core e.core with tags := tags (s.core e.core).tags } else (paid i e s).core c := by
    rw [← hu, State.onCore, State.core_setCore, paid_tags]
  have hcores {v : State} {st1 : Strand} (hret : Retires u v e r none false e.st st1) : (∀ c, c ≠ e.core → v.core c = s.core c) ∧
      v.core e.core = { (paid i e s).core e.core with tags := (v.core e.core).tags, evc0 := (v.core e.core).evc0 } ∧ tagged v := by
    have hv := hret.cores e.core
    rw [hcore, if_pos rfl] at hv
    refine ⟨fun c hc => ?_, ?_, htagged v (congrArg Core.tags hv)⟩
    · rw [hret.core_other hc, hcore, if_neg hc, paid_core_other i s hc]
    · rw [hv]
  rw [Env.tagWrite, hu] at hx
  by_cases hall : ∀ q ∈ e.ts, ok q = true
  · have hnone : (e.ts.filter fun t => !ok t) = [] := List.filter_eq_nil_iff.mpr fun t ht => by simp [hall t ht]
    rw [hnone, List.map_nil, nextFailed_none] at hx
    obtain ⟨st1, hret⟩ := next_retires hcur hstrand hrun rfl
    obtain ⟨hother, hown, htag⟩ := hcores hret
    exact ⟨u, _, _, st1, st1, hx, hframe, hret, hother, hown, htag, fun _ => rfl, fun ⟨q, hq, hbad⟩ => by simp [hall q hq] at hbad⟩
  · have hsome : (e.ts.filter fun t => !ok t) ≠ [] := fun hnil => hall fun q hq => by simpa using List.filter_eq_nil_iff.mp hnil q hq
    obtain ⟨v, st1, st', hret, hstop⟩ := nextFailed_alike (f := ⟨0, 0x83, 0⟩) 0 hcur hstrand hrun rfl ((active_sorted e.act).filter _)
      (fun t ht => (mem_active.mp (List.mem_of_mem_filter ht)).1) (ofAccess_of_lt (by decide)) hsome
    obtain ⟨hother, hown, htag⟩ := hcores hret
    exact ⟨u, v, _, st1, st', hx, hframe, hret, hother, hown, htag, fun h => absurd h hall, fun _ => hstop⟩

theorem exec_tset {z : BitVec 1} {a b : BitVec 7} {s : State} {e : Env} {r : Run} (h : Issues (.tset z a b) s e r) :
    exec (.tset z a b) s = .next (e.tagWrite (e.tagFits a b)
      (fun m => (e.ts.filter (e.tagFits a b)).foldl (fun m t => wr 0 m (e.tagSlot b t) (e.tagEntry a t)) m) (paid (.tset z a b) e s)) := by
  have hbad (t : Nat) : (decide (tagEntries e.g.hdr.carve ≤ (e.st.src b.toNat t).toNat) ||
      (e.st.src b.toNat t).toNat / 4 != tagSet e.g.hdr.carve (e.pairAt a 0 t)) = !e.tagFits a b t := by
    rw [tagEntries_le_tagSlot, Env.tagFits, Bool.not_and]
    rfl
  rw [show exec (.tset z a b) s = execTset z a b s from rfl, execTset, issue_body _ h]
  simp only [pairAddr_eq, hbad, Bool.not_not]
  rfl

theorem exec_tinv {z : BitVec 1} {b : BitVec 7} {s : State} {e : Env} {r : Run} (h : Issues (.tinv z b) s e r) :
    exec (.tinv z b) s = .next (e.tagWrite (e.tagInside b)
      (fun m => (e.ts.filter (e.tagInside b)).foldl (fun m t => wr 0 m (e.tagSlot b t) (rd 0 m (e.tagSlot b t) &&& ~~~1#64)) m)
      (paid (.tinv z b) e s)) := by
  rw [show exec (.tinv z b) s = execTinv z b s from rfl, execTinv, issue_body _ h]
  simp only [tagEntries_le_tagSlot, Bool.not_not]
  rfl

theorem tagLook_getD (tags : Tab Dword) (code x n : Nat) : (tagLook tags code x).getD n = if tagEntries code = 0 then n
    else (((List.range 4).map fun w => tagSet code x * 4 + w).find? fun i => (rd 0 tags i).toNat == x / 256 * 256 + 1).getD n := by
  unfold tagLook
  split <;> rfl

/-- TLOOK gives each thread the lowest way of its set that holds the line of its address, or all ones (07 R175). -/
theorem tlook_computes {z : BitVec 1} {d a : BitVec 7} {s : State} {e : Env} {r : Run} (h : Issues (.tlook z d a) s e r) :
    Computes (.tlook z d a) s e r e.p.nfr fun st st' => SameAccs st st' ∧
      WritesVector st st' e.act d.toNat 1 fun t => (tagLook (s.core e.core).tags e.g.hdr.carve (e.pairAt a 0 t)).getD 0xFFFFFFFF := by
  have hexec : exec (.tlook z d a) s = .next (e.next (e.put 0 d 1
      (fun t => (tagLook (s.core e.core).tags e.g.hdr.carve (e.pairAt a 0 t)).getD 0xFFFFFFFF) (paid (.tlook z d a) e s))) := by
    rw [show exec (.tlook z d a) s = execTlook z d a s from rfl, execTlook, issue_body _ h]
    simp only [pairAddr_eq, paid_tags]
  obtain ⟨u, t, st1, st', hx, honly, hregs, ⟨hwrites, haccs⟩, hret⟩ := put_computes h.1 0 d 1 _ hexec
  rw [Writes, if_neg (by decide)] at hwrites
  exact ⟨u, t, st1, st', hx, honly, hregs, ⟨haccs, hwrites⟩, hret⟩

/-- Settles O15: TLOOK writes what tagLook finds; TSET and TINV are each a `tagWrite`, of an entry for each thread that fits and of the valid bit. -/
theorem tagTable : Obligations.TagTable := by
  unfold Obligations.TagTable
  intro z d a b s e r
  refine ⟨fun h => ?_, fun h => ?_, fun h => ?_⟩
  · have hlook := tlook_computes h
    simp only [tagLook_getD] at hlook
    exact hlook
  · refine writesTags_of_tagWrite (ok := e.tagFits a b) h (exec_tset h) fun v hv => ⟨fun j hj => ?_, fun q hq hfits hhigh => ?_⟩
    · rw [hv]
      exact rd_foldl_wr_other _ _ fun q hq => hj q (List.mem_of_mem_filter hq) (List.mem_filter.mp hq).2
    · rw [hv]
      exact rd_foldl_wr_highest _ ((active_sorted e.act).filter _) (List.mem_filter.mpr ⟨hq, hfits⟩)
        fun q' hq' => hhigh q' (List.mem_of_mem_filter hq') (List.mem_filter.mp hq').2
  · refine writesTags_of_tagWrite (ok := e.tagInside b) h (exec_tinv h) fun v hv j => ?_
    rw [hv, rd_foldl_clear]
    simp only [List.mem_filter, and_assoc]
    rfl

end Sys2Proof.Machine
end

section
/-!
PROOFS. What a translation reads: storage, contexts and the package, and no core (01 R18 to R30, R42). What an instruction charges changes none of it.
-/

namespace Sys2Proof.Machine

/-- The state with other cores and other free values to come. -/
def State.accounted (s : State) (cs : Tab Core) (n : Nat) : State := { s with cores := cs, free := n }

section
variable (s : State) (cs : Tab Core) (n : Nat)

@[simp] theorem accounted_mem : (s.accounted cs n).mem = s.mem := rfl
@[simp] theorem accounted_strands : (s.accounted cs n).strands = s.strands := rfl
@[simp] theorem accounted_cur : (s.accounted cs n).cur = s.cur := rfl
@[simp] theorem accounted_uncorrectable : (s.accounted cs n).uncorrectable = s.uncorrectable := rfl

theorem recordCheck_accounted (d ctx fuel : Nat) (r : ObjRec) (sl : Slot) :
    recordCheck (s.accounted cs n) d ctx fuel r sl = recordCheck s d ctx fuel r sl := by
  induction fuel generalizing r sl with
  | zero => rfl
  | succ fuel ih =>
    simp only [recordCheck, ih]
    rfl

theorem recordBad_accounted (d ctx : Nat) (r : ObjRec) (sl : Slot) : recordBad (s.accounted cs n) d ctx r sl = recordBad s d ctx r sl := by
  rw [recordBad, recordCheck_accounted]
  rfl

theorem translateAt_accounted (fuel d ctx addr m : Nat) (kind : Kind) (host : Bool) (named : Option Nat) :
    translateAt fuel (s.accounted cs n) d ctx addr m kind host named = translateAt fuel s d ctx addr m kind host named := by
  induction fuel generalizing addr m kind host named with
  | zero => rfl
  | succ fuel ih =>
    simp only [translateAt, ih, recordBad_accounted]
    rfl

theorem walkOn_accounted (d ctx : Nat) : walkOn (s.accounted cs n) d ctx = walkOn s d ctx := by
  funext a m
  rw [walkOn, translateAt_accounted]
  rfl

theorem translateFrom_accounted (d ctx : Nat) (r : Option ObjRec) (base off m : Nat) (kind : Kind) (host : Bool) :
    translateFrom (s.accounted cs n) d ctx r base off m kind host = translateFrom s d ctx r base off m kind host := by
  simp only [translateFrom, recordBad_accounted, walkOn_accounted]
  rfl

theorem spillKeys_accounted (core ctx : Nat) (r : Option ObjRec) (base off m : Nat) (kind : Kind) :
    spillKeys (s.accounted cs n) core ctx r base off m kind = spillKeys s core ctx r base off m kind := by
  simp only [spillKeys, translateFrom_accounted]
  rfl

theorem spillCount_accounted (core ctx : Nat) (r : Option ObjRec) (d : KeyDesc) (kind : Kind) :
    spillCount (s.accounted cs n) core ctx r d kind = spillCount s core ctx r d kind := by
  simp only [spillCount, spillKeys_accounted, accounted_mem]

theorem findSpill_accounted (core ctx : Nat) (r : Option ObjRec) (d : KeyDesc) (key i m : Nat) :
    findSpill (s.accounted cs n) core ctx r d key i m = findSpill s core ctx r d key i m := by
  induction m generalizing i with
  | zero => rfl
  | succ m ih =>
    simp only [findSpill, spillKeys_accounted, accounted_mem, ih]

theorem findKey_accounted (g : Gang) (core ctx : Nat) (r : Option ObjRec) (d : KeyDesc) (key : Nat) :
    findKey (s.accounted cs n) g core ctx r d key = findKey s g core ctx r d key := by
  simp only [findKey, inBuckets, spillCount_accounted, findSpill_accounted, accounted_uncorrectable, accounted_mem]

/-- What a thread's application comes to rests on nothing that is charged. -/
theorem applyKey_accounted (g : Gang) (core ctx : Nat) (r : Option ObjRec) (d : KeyDesc) (f key v : Nat) :
    applyKey (s.accounted cs n) g core ctx r d f key v = applyKey s g core ctx r d f key v := by
  simp only [applyKey, findKey_accounted, spillKeys_accounted, accounted_mem]

end

/-! Charges at homes -/

theorem chargeHome_accounted (s : State) (core ctx line : Nat) : ∃ cs n, s.chargeHome core ctx line = s.accounted cs n := by
  unfold State.chargeHome
  dsimp only
  split_ifs
  · exact ⟨_, s.free, State.charge_eq ..⟩
  · exact ⟨_, s.free, State.charge_eq ..⟩
  · exact ⟨_, s.free + 1, State.charge_eq ..⟩
  · exact ⟨s.cores, s.free, rfl⟩

theorem chargeHomes_accounted (s : State) (core ctx : Nat) (ls : List Nat) : ∃ cs n, s.chargeHomes core ctx ls = s.accounted cs n := by
  unfold State.chargeHomes
  induction ls generalizing s with
  | nil => exact ⟨s.cores, s.free, rfl⟩
  | cons l ls ih =>
    obtain ⟨cs, n, h⟩ := chargeHome_accounted s core ctx l
    obtain ⟨cs', n', h'⟩ := ih (s.accounted cs n)
    exact ⟨cs', n', by rw [List.foldl_cons, h, h']; rfl⟩

/-- A charge at homes changes of a core its energy accounts alone (14 R364). -/
theorem chargeHomes_core (s : State) (core ctx : Nat) (ls : List Nat) (c : Nat) : (s.chargeHomes core ctx ls).core c =
    { s.core c with energy := ((s.chargeHomes core ctx ls).core c).energy, charges := ((s.chargeHomes core ctx ls).core c).charges } := by
  have hhome (s : State) (l : Nat) : (s.chargeHome core ctx l).core c =
      { s.core c with energy := ((s.chargeHome core ctx l).core c).energy, charges := ((s.chargeHome core ctx l).core c).charges } := by
    unfold State.chargeHome
    dsimp only
    split_ifs
    · exact State.charge_core ..
    · exact State.charge_core ..
    · exact State.charge_core ..
    · rfl
  unfold State.chargeHomes
  induction ls generalizing s with
  | nil => rfl
  | cons l ls ih =>
    rw [List.foldl_cons, ih, hhome]

end Sys2Proof.Machine
end

section
/-!
PROOFS. HINS, HPRB, HDEL and HACC where no thread appends and none fails: the threads in order, and their results (04 R88 to R91; 07 R177).
-/

namespace Sys2Proof.Machine

/-! The threads, one after another -/

section
variable {g : Gang} {core ctx : Nat} {r : Option ObjRec} {d : KeyDesc} {f : Nat}

/-- Applying threads changes memory and what is charged. -/
theorem applyAll_frame (its : List Item) (s : State) :
    ∃ m cs n, (applyAll g core ctx r d f s its).1 = (s.setMem m).accounted cs n := by
  induction its generalizing s with
  | nil => exact ⟨s.mem, s.cores, s.free, rfl⟩
  | cons i its ih =>
    obtain ⟨cs, n, hcharge⟩ := chargeHomes_accounted s core ctx (spillTouched s g core ctx r d f i.cmp)
    rw [applyAll]
    split
    · exact ih s
    · dsimp only
      rw [hcharge]
      cases applyKey s g core ctx r d f i.cmp i.val with
      | append => exact ⟨s.mem, cs, n, rfl⟩
      | failed x a => exact ih (s.accounted cs n)
      | done m present v => exact ih ((s.accounted cs n).setMem m)

/-- What becomes of the item of a thread that has been applied and has not failed. -/
def keyItem (key own : Nat → Nat) (t : Nat) : Item := { t, cmp := key t, val := own t }
def keyApplied (key own : Nat → Nat) (found : Nat → Bool) (value : Nat → Nat) (t : Nat) : Item :=
  (keyItem key own t).outcome (if found t then 1 else 2) (value t) ⟨0, 0, 0⟩ 0

/-- Where each thread's application completes, all are applied, each to the state that the one before it left. -/
theorem applyAll_of_done {key own : Nat → Nat} {found : Nat → Bool} {value : Nat → Nat} {ts : List Nat} {x : Nat → State}
    (h : ∀ j t, ts[j]? = some t → ∃ m,
      applyKey ((x j).chargeHomes core ctx (spillTouched (x j) g core ctx r d f (key t))) g core ctx r d f (key t) (own t) = .done m (found t) (value t) ∧
        x (j + 1) = ((x j).chargeHomes core ctx (spillTouched (x j) g core ctx r d f (key t))).setMem m) :
    applyAll g core ctx r d f (x 0) (ts.map (keyItem key own)) = (x ts.length, ts.map (keyApplied key own found value), true) := by
  induction ts generalizing x with
  | nil => rfl
  | cons t ts ih =>
    obtain ⟨m, hdone, hnext⟩ := h 0 t rfl
    obtain ⟨cs, n, hcharge⟩ := chargeHomes_accounted (x 0) core ctx (spillTouched (x 0) g core ctx r d f (key t))
    rw [hcharge] at hdone hnext
    rw [applyKey_accounted] at hdone
    have hrest := ih (x := fun j => x (j + 1)) fun j t' ht' => h (j + 1) t' ht'
    rw [hnext] at hrest
    rw [List.map_cons, applyAll, if_neg (by simp [keyItem])]
    dsimp only [keyItem] at hrest ⊢
    rw [hcharge, hdone]
    dsimp only
    rw [hrest]
    rfl

end

/-! Their results -/

section
variable {key own : Nat → Nat} {found : Nat → Bool} {value : Nat → Nat}

theorem keyApplied_line (t : Nat) : (keyApplied key own found value t).line = if found t then 1 else 2 := rfl

theorem keyFailures_applied (ts : List Nat) : keyFailures (ts.map (keyApplied key own found value)) = [] := by
  have hnone : (ts.map (keyApplied key own found value)).filter (·.line == 3) = [] := by
    rw [List.filter_eq_nil_iff]
    intro i hi
    obtain ⟨t, -, rfl⟩ := List.mem_map.mp hi
    rw [keyApplied_line]
    cases found t <;> decide
  rw [keyFailures, hnone]
  rfl

theorem filter_present (ts : List Nat) :
    (ts.map (keyApplied key own found value)).filter (·.line == 1) = (ts.filter found).map (keyApplied key own found value) := by
  rw [List.filter_map]
  congr 2
  funext t
  rw [Function.comp_apply, keyApplied_line]
  cases found t <;> rfl

/-- The predicate says for each thread whether its key was present; where it was, HINS, HPRB and HDEL give the value (07 R177). -/
theorem keyResults_applied (f pd dst : Nat) (ts : List Nat) (st : Strand) :
    keyResults f pd dst (ts.map (keyApplied key own found value)) st =
      let st1 := st.setP pd (maskOf ts) (maskOf (ts.filter found))
      if f ≤ 2 then st1.setEachGroup dst 2 (ts.filter found) value else st1 := by
  have hall : (ts.map (keyApplied key own found value)).filter (·.line != 3) = ts.map (keyApplied key own found value) := by
    rw [List.filter_eq_self]
    intro i hi
    obtain ⟨t, -, rfl⟩ := List.mem_map.mp hi
    rw [keyApplied_line]
    cases found t <;> decide
  have hthreads (l : List Nat) : (l.map (keyApplied key own found value)).map (·.t) = l := by
    rw [List.map_map]
    exact List.map_id l
  unfold keyResults
  dsimp only
  rw [hall, filter_present, hthreads, hthreads, List.foldl_map]
  rfl

end

theorem Strand.setP_rest (st : Strand) (p : Nat) (m val : Mask) : st.setP p m val = { st with p := (st.setP p m val).p } := by
  unfold Strand.setP
  split <;> rfl

/-- A predicate takes the bits of a value for the threads of a mask (05 R97). -/
theorem pred_setP (st : Strand) (p q : Nat) {t : Nat} (m val : Mask) (ht : t < 32) :
    (st.setP p m val).pred q t = if q = p ∧ p ≠ 0 ∧ has m t then has val t else st.pred q t := by
  have hbits (old : Mask) : has ((old &&& ~~~m) ||| (val &&& m)) t = if has m t then has val t else has old t := by
    simp only [has, BitVec.getLsbD_or, BitVec.getLsbD_and, BitVec.getLsbD_not, ht]
    rcases Bool.eq_false_or_eq_true (m.getLsbD t) with h | h <;> simp only [h] <;> simp
  rw [Strand.pred, Strand.pmask_setP]
  by_cases hq : q = p ∧ p ≠ 0
  · rw [if_pos hq, hbits]
    simp [hq, Strand.pred]
  · rw [if_neg hq, if_neg fun h => hq ⟨h.1, h.2.1⟩]
    rfl

/-- The number of a predicate is 0 where its code is. -/
theorem pcode_ne_zero (p : BitVec 3) : p.toNat ≠ 0 ↔ p ≠ 0 := by
  rw [Ne, Ne, ← BitVec.toNat_inj]
  rfl

/-! The instruction -/

theorem exec_keyForm {i : Instr} {s : State} {e : Env} {r : Run} {f : Nat} {d a : BitVec 7} {p h : BitVec 3} (hi : Issues i s e r)
    (hf : keyForm i = some (f, d, a, p, h)) : exec i s = .next (e.keyOp f d a p h (paid i e s)) := by
  cases i <;> simp only [keyForm, Option.some.injEq, reduceCtorEq, Prod.mk.injEq] at hf <;> obtain ⟨rfl, rfl, rfl, rfl, rfl⟩ := hf <;>
    exact issue_body _ hi

/-- The strand that a key-table instruction leaves, where no thread fails. -/
def Env.keyStrand (e : Env) (f : Nat) (d : BitVec 7) (p : BitVec 3) (found : Nat → Bool) (value : Nat → Nat) : Strand :=
  let st1 := e.st.setP p.toNat (maskOf e.ts) (maskOf (e.ts.filter found))
  if f ≤ 2 then st1.setEachGroup d.toNat 2 (e.ts.filter found) value else st1

section
variable {e : Env} {f : Nat} {d a : BitVec 7} {p h : BitVec 3} {found : Nat → Bool} {value : Nat → Nat}

theorem keyOp_of_done {s : State} {n : Nat} {desc : KeyDesc} {x : Nat → State} (htable : tableOf e.g (e.st.sreg (56 + h.toNat)).toNat = some (n, desc))
    (hs : (x e.ts.length).strand e.k = some e.st) (h0 : x 0 = s.charge e.core e.ctx 5 e.ts.length)
    (hall : applyAll e.g e.core e.ctx (carriedRecord (spillRecord s e.core e.ctx desc)) desc f (x 0)
      (e.ts.map (keyItem (e.get 0 a 2) fun t => if f = 1 ∨ f = 2 then 0 else e.get 0 d 2 t)) =
        (x e.ts.length, e.ts.map (keyApplied (e.get 0 a 2) (fun t => if f = 1 ∨ f = 2 then 0 else e.get 0 d 2 t) found value), true)) :
    e.keyOp f d a p h s = e.next ((x e.ts.length).setStrand e.k (e.keyStrand f d p found value)) := by
  unfold Env.keyOp
  rw [htable]
  dsimp only
  rw [List.length_map, ← h0]
  have hitems : (e.ts.map fun t => ({ t, cmp := e.st.src64 a.toNat t, val := if f = 1 ∨ f = 2 then 0 else e.st.src64 d.toNat t } : Item)) =
      e.ts.map (keyItem (e.get 0 a 2) fun t => if f = 1 ∨ f = 2 then 0 else e.get 0 d 2 t) := rfl
  rw [hitems, hall]
  dsimp only
  rw [keyFailures_applied, State.keyDone]
  dsimp only
  rw [onStrand_of_some hs, keyResults_applied]
  rfl

theorem keyStrand_rest : e.keyStrand f d p found value = { e.st with v := (e.keyStrand f d p found value).v, p := (e.keyStrand f d p found value).p } := by
  unfold Env.keyStrand
  dsimp only
  split
  · rw [Strand.setEachGroup_rest, Strand.setP_rest]
  · rw [Strand.setP_rest]

theorem keyStrand_pred (q : Nat) {t : Nat} (ht : t < 32) : (e.keyStrand f d p found value).pred q t =
    if q = p.toNat ∧ p ≠ 0 ∧ has e.act t then found t else e.st.pred q t := by
  have hset : (e.keyStrand f d p found value).pred q t = (e.st.setP p.toNat (maskOf e.ts) (maskOf (e.ts.filter found))).pred q t := by
    unfold Env.keyStrand
    dsimp only
    split
    · rw [Strand.setEachGroup_rest]; rfl
    · rfl
  have hts : t ∈ e.ts ↔ has e.act t = true := by rw [Env.ts, mem_active]; exact and_iff_right ht
  rw [hset, pred_setP _ _ _ _ _ ht, has_maskOf e.ts ht, has_maskOf _ ht]
  simp only [pcode_ne_zero, decide_eq_true_eq, hts]
  by_cases hc : q = p.toNat ∧ p ≠ 0 ∧ has e.act t = true
  · rw [if_pos hc, if_pos hc]
    simp [List.mem_filter, hts, hc.2.2]
  · rw [if_neg hc, if_neg hc]

theorem keyStrand_vreg (c : Nat) {t : Nat} (ht : t < 32) : (e.keyStrand f d p found value).vreg c t =
    if f ≤ 2 ∧ has e.act t ∧ found t ∧ d.toNat ≤ c ∧ c < d.toNat + 2
      then BitVec.ofNat 32 (value t / 2 ^ (32 * (c - d.toNat))) else e.st.vreg c t := by
  have hts : t ∈ e.ts ↔ has e.act t = true := by rw [Env.ts, mem_active]; exact and_iff_right ht
  have hlt : ∀ u ∈ e.ts.filter found, u < 32 := fun u hu => (mem_active.mp (List.mem_of_mem_filter hu)).1
  unfold Env.keyStrand
  dsimp only
  by_cases hf : f ≤ 2
  · rw [if_pos hf, Strand.vreg_setEachGroup _ _ _ _ _ _ _ hlt ht, Strand.vreg_setP]
    simp [hf, List.mem_filter, hts, and_assoc]
  · simp [hf]

end

/-- Settles O16: the instruction is `applyAll` of its threads, which goes through the given states, and `keyResults` of what it leaves. -/
theorem keyTableResults : Obligations.KeyTableResults := by
  unfold Obligations.KeyTableResults
  intro i f d a p h s e r hi hf
  have hexec := exec_keyForm hi hf
  refine ⟨fun hnone => stopsWhole_of_raise (hexec.trans ?_) (by decide), fun n desc x found value htable h0 hsteps => ?_⟩
  · rw [Env.keyOp, hnone]
  obtain ⟨-, -, hp, -, -, -⟩ := envOf_eq hi.1
  have hall := applyAll_of_done hsteps
  obtain ⟨m, cs, k, hframe⟩ := applyAll_frame (g := e.g) (core := e.core) (ctx := e.ctx) (r := carriedRecord (spillRecord (paid i e s) e.core e.ctx desc))
    (d := desc) (f := f) (e.ts.map (keyItem (e.get 0 a 2) fun t => if f = 1 ∨ f = 2 then 0 else e.get 0 d 2 t)) (x 0)
  rw [hall] at hframe
  dsimp only at hframe
  have hstrand : (x e.ts.length).strand e.k = some e.st := by
    rw [hframe]
    show (x 0).strand e.k = some e.st
    rw [h0, State.charge_strand, paid_strand_same]
  have hcur : (x e.ts.length).cur = (paid i e s).cur := by
    rw [hframe]
    show (x 0).cur = _
    rw [h0, State.charge_cur]
  rw [keyOp_of_done htable hstrand h0 hall] at hexec
  have hrest := keyStrand_rest (e := e) (f := f) (d := d) (p := p) (found := found) (value := value)
  have hpred := fun q t (ht : t < 32) => keyStrand_pred (e := e) (f := f) (d := d) (p := p) (found := found) (value := value) q ht
  have hvreg := fun c t (ht : t < 32) => keyStrand_vreg (e := e) (f := f) (d := d) (p := p) (found := found) (value := value) c ht
  generalize e.keyStrand f d p found value = st1 at hexec hrest hpred hvreg
  have hpath (j : Nat) : st1.path j = e.st.path j := by rw [hrest]; rfl
  obtain ⟨st', hret⟩ := hi.retires (u := (x e.ts.length).setStrand e.k st1) hcur (State.strand_setStrand_same _ e.k st1) (by rw [hpath, hp])
    (by rw [hrest])
  exact ⟨_, _, st1, st', hexec, onlyStrand_setStrand _ e.k st1, ⟨by rw [hpath, hp], fun _ => hpath _, by rw [hrest]⟩,
    ⟨by rw [hrest], by rw [hrest], by rw [hrest], by rw [hrest]⟩, hret, fun c => by rw [hrest]; rfl, hpred, hvreg⟩

end Sys2Proof.Machine
end

section
/-!
PROOFS. HCLAIM and HREL: the table that is claimed, the operation that clears it, and the table that is freed (04 R86, R87; 07 R176).
-/

namespace Sys2Proof.Machine

theorem State.charge_setGang (s : State) (k : Nat) (g : Gang) (core ctx cls n : Nat) :
    (s.setGang k g).charge core ctx cls n = (s.charge core ctx cls n).setGang k g := by
  unfold State.charge
  split <;> rfl

theorem onGang_of_some {s : State} {k : Nat} {g : Gang} (h : s.gang k = some g) (f : Gang → Gang) : s.onGang k f = s.setGang k (f g) := by
  rw [State.onGang, h]

theorem paid_gang (i : Instr) (e : Env) (s : State) (k : Nat) : (paid i e s).gang k = s.gang k := by
  rw [paid_eq]
  rfl

/-- The issuing strand's gang is that of e. -/
theorem Issues.gang {i : Instr} {s : State} {e : Env} {r : Run} (h : Issues i s e r) : s.gang e.st.gang = some e.g := by
  obtain ⟨-, ⟨st, -, hg, hst⟩, -⟩ := envOf_eq h.1
  rw [hst, Strand.setPath_gang]
  exact hg

theorem paid_gang_own {i : Instr} {s : State} {e : Env} {r : Run} (h : Issues i s e r) : (paid i e s).gang e.st.gang = some e.g :=
  (paid_gang i e s _).trans h.gang

/-! A claim -/

/-- The descriptor of the table that HCLAIM takes at unit b (04 R87). -/
def Env.claimDesc (e : Env) (x y : BitVec 5) (w : BitVec 3) (b : Nat) : KeyDesc :=
  { logu := w.toNat, serial := e.g.claims, baseu := b, seed := e.st.upair (2 * x.toNat), spobj := e.st.upair (2 * y.toNat) }

/-- The gang with that table in descriptor n. -/
def Env.claimGang (e : Env) (n : Nat) (desc : KeyDesc) : Gang := { e.g with keys := upd e.g.keys n (some desc), claims := (e.g.claims + 1) % 65536 }

/-- The operation that clears the table and then writes its handle (04 R86). -/
def Env.claimOp (e : Env) (d : BitVec 7) (w : BitVec 3) (n : Nat) (now : Nat) : Op :=
  { kind := .hclaim (2 ^ w.toNat), items := [{ t := n, val := n + 65536 * e.g.claims }], sregs := [d.toNat]
    strand := e.k, gang := e.st.gang, ctx := e.ctx, core := e.core, path := e.opPath, pc := e.chain, mask := e.act, active := e.p.act
    named := e.vregsNamed, from1 := e.pi == 1, born := now }

/-- The strand with operation id among the outstanding ones of its path, and of the other path of a divided strand: both wait for the handle. -/
def Env.claimStrand (e : Env) (id : Nat) : Strand :=
  let st1 := e.st.setPath e.pi { e.st.path e.pi with outs := (e.st.path e.pi).outs ++ [(id, (e.st.path e.pi).words + e.len, lookahead e.i)] }
  let q := st1.path (1 - e.pi)
  if st1.divided then st1.setPath (1 - e.pi) { q with outs := q.outs ++ [(id, q.words, 0)] } else st1

theorem run_setPath_outs (st : Strand) (i j : Nat) (outs : List (Nat × Nat × Nat)) :
    ((st.setPath i { st.path i with outs }).path j).run = (st.path j).run := by
  unfold Strand.setPath Strand.path
  split_ifs <;> rfl

theorem claimStrand_run (e : Env) (id j : Nat) : ((e.claimStrand id).path j).run = (e.st.path j).run := by
  unfold Env.claimStrand
  dsimp only
  split
  · rw [run_setPath_outs, run_setPath_outs]
  · rw [run_setPath_outs]

theorem claimStrand_rest (e : Env) (id : Nat) :
    e.claimStrand id = { e.st with path0 := (e.claimStrand id).path0, path1 := (e.claimStrand id).path1 } := by
  unfold Env.claimStrand
  dsimp only
  split
  · rw [Strand.setPath_eq, Strand.setPath_eq e.st]
  · rw [Strand.setPath_eq]

/-- The package once HCLAIM has taken descriptor n for desc. -/
def Env.claimed (e : Env) (d : BitVec 7) (w : BitVec 3) (n : Nat) (desc : KeyDesc) (s : State) : State :=
  { s.charge e.core e.ctx 5 (16 * 2 ^ w.toNat) with
    gangs := upd s.gangs e.st.gang (some (e.claimGang n desc)), ops := upd s.ops s.nextId (some (e.claimOp d w n s.now)), nextId := s.nextId + 1
    strands := upd (upd s.strands e.k (some (e.st.setPath e.pi { e.st.path e.pi with
      outs := (e.st.path e.pi).outs ++ [(s.nextId, (e.st.path e.pi).words + e.len, lookahead e.i)] }))) e.k (some (e.claimStrand s.nextId)) }

section
variable {z : BitVec 1} {d : BitVec 7} {x y : BitVec 5} {w : BitVec 3} {s : State} {e : Env} {r : Run}

theorem exec_hclaim (h : Issues (.hclaim z d x y w) s e r) : exec (.hclaim z d x y w) s = .next (
    if 5 < w.toNat then e.raise (paid (.hclaim z d x y w) e s) 0x81 0x15
    else match freeRun e.g.keys e.g.hdr.keyu (2 ^ w.toNat), (List.range 8).find? fun n => (look e.g.keys n).isNone with
      | some b, some n => e.next (e.claimed d w n (e.claimDesc x y w b) (paid (.hclaim z d x y w) e s))
      | _, _ => e.next (e.put 1 d 1 (fun _ => 0xFFFFFFFF) (paid (.hclaim z d x y w) e s))) := by
  have hgang := paid_gang_own h
  have hstrand := paid_strand_same (.hclaim z d x y w) e s
  rw [show exec (.hclaim z d x y w) s = execHclaim z d x y w s from rfl, execHclaim, issue_body _ h]
  dsimp only
  split
  · rfl
  cases freeRun e.g.keys e.g.hdr.keyu (2 ^ w.toNat) with
  | none => rfl
  | some b =>
    cases (List.range 8).find? fun n => (look e.g.keys n).isNone with
    | none => rfl
    | some n =>
      have hbase (g : Gang) : (((paid (.hclaim z d x y w) e s).charge e.core e.ctx 5 (16 * 2 ^ w.toNat)).setGang e.st.gang g).strand e.k = some e.st :=
        (State.charge_strand (paid (.hclaim z d x y w) e s) e.core e.ctx 5 (16 * 2 ^ w.toNat) e.k).trans hstrand
      dsimp only
      rw [onGang_of_some hgang, State.charge_setGang, start_eq _ (hbase _)]
      dsimp only [State.onStrand, State.strand]
      rw [look_upd_same, Env.claimed, State.charge_eq]
      rfl

/-- HCLAIM with room retires from the state in which the table is claimed. -/
theorem hclaim_retires (h : Issues (.hclaim z d x y w) s e r) (n : Nat) (desc : KeyDesc) : ∃ st',
    Retires (e.claimed d w n desc (paid (.hclaim z d x y w) e s)) (e.next (e.claimed d w n desc (paid (.hclaim z d x y w) e s))) e r none false
      (e.claimStrand s.nextId) st' := by
  obtain ⟨-, -, hp, -, -, -⟩ := envOf_eq h.1
  refine h.retires (State.charge_cur ..) ?_ (by rw [claimStrand_run, hp]) (by rw [claimStrand_rest])
  exact (look_upd_same _ e.k (some _)).trans (by rw [paid_nextId])

end

/-! A release -/

theorem exec_hrel {z : BitVec 1} {h : BitVec 3} {s : State} {e : Env} {r : Run} (hi : Issues (.hrel z h) s e r) : exec (.hrel z h) s = .next (
    match tableOf e.g (e.st.sreg (56 + h.toNat)).toNat with
    | none => e.raise (paid (.hrel z h) e s) 0x81
    | some (n, _) => e.next ((paid (.hrel z h) e s).setGang e.st.gang { e.g with keys := upd e.g.keys n none })) := by
  rw [show exec (.hrel z h) s = execHrel z h s from rfl, execHrel, issue_body _ hi]
  cases tableOf e.g (e.st.sreg (56 + h.toNat)).toNat with
  | none => rfl
  | some y =>
    dsimp only
    rw [onGang_of_some (paid_gang_own hi)]

/-- HCLAIM and HREL (04 R86, R87; 07 R176). -/
theorem keyTablesClaimedPart : KeyTablesClaimedPart := by
  intro s e r
  refine ⟨fun z d x y w h => ⟨fun hw => ?_, fun hw hnone => ?_, fun hw b n hroom hslot => ?_⟩, fun z h hi => ⟨fun hnone => ?_, fun n desc htable => ?_⟩⟩
  · refine stopsWhole_of_raise ((exec_hclaim h).trans ?_) (by decide)
    rw [if_pos hw]
  · have hexec := exec_hclaim h
    rw [if_neg (by omega)] at hexec
    have hput : exec (.hclaim z d x y w) s = .next (e.next (e.put 1 d 1 (fun _ => 0xFFFFFFFF) (paid (.hclaim z d x y w) e s))) := by
      rcases hnone with hnone | hnone
      · rw [hexec, hnone]
      · rw [hexec, hnone]
        cases freeRun e.g.keys e.g.hdr.keyu (2 ^ w.toNat) <;> rfl
    obtain ⟨u, t, st1, st', hx, honly, hregs, ⟨hwrites, haccs⟩, hret⟩ := put_computes h.1 1 d 1 _ hput
    rw [Writes, if_pos rfl] at hwrites
    exact ⟨u, t, st1, st', hx, honly, hregs, ⟨haccs, hwrites⟩, hret⟩
  · have hexec := exec_hclaim h
    rw [if_neg (by omega), hroom, hslot] at hexec
    obtain ⟨st', hret⟩ := hclaim_retires h n (e.claimDesc x y w b)
    refine ⟨_, _, _, st', hexec, hret, ⟨_, look_upd_same _ _ (some _), rfl, look_upd_same e.g.keys n (some _), fun m hm =>
      look_upd_other e.g.keys (some _) hm⟩, ⟨e.claimOp d w n (paid (.hclaim z d x y w) e s).now, ?_, rfl, rfl, rfl, rfl⟩, claimStrand_rest e _, fun m hm => ?_, fun m hm => ?_, ?_⟩
    · rw [← paid_nextId (.hclaim z d x y w) e s]
      exact look_upd_same _ _ (some _)
    · exact (look_upd_other _ (some _) hm).trans (paid_gang _ e s m)
    · rw [← paid_nextId (.hclaim z d x y w) e s] at hm
      exact (look_upd_other _ (some _) hm).trans (congrArg (look · m) (paid_ops _ e s))
    · rw [← paid_nextId (.hclaim z d x y w) e s]
      rfl
  · refine stopsWhole_of_raise ((exec_hrel hi).trans ?_) (by decide)
    rw [hnone]
  · obtain ⟨-, -, hp, -, -, -⟩ := envOf_eq hi.1
    have hexec := exec_hrel hi
    rw [htable] at hexec
    obtain ⟨st', hret⟩ := hi.retires (u := (paid (.hrel z h) e s).setGang e.st.gang { e.g with keys := upd e.g.keys n none }) rfl
      (paid_strand_same _ e s) (by rw [hp]) rfl
    refine ⟨_, _, st', hexec, rfl, hret, fun m hm => ?_, _, State.gang_setGang_same _ _ _, rfl, look_upd_same e.g.keys n none, fun m hm =>
      look_upd_other e.g.keys none hm⟩
    rw [State.gang_setGang, if_neg hm, paid_gang]

end Sys2Proof.Machine
end

section
/-!
PROOFS. HDRN and HDRN.del: what a drain takes and where it stops, the registers that its entries reach, and its failures (04 R92; 07 R178).
-/

namespace Sys2Proof.Machine

/-! The causes with which an access to the spill fails -/

theorem walkOn_sound (s : State) (d ctx : Nat) : (walkOn s d ctx).sound := by
  intro a m f h
  rw [walkOn] at h
  cases ht : translateAt (recordDepth s ctx) s d ctx a m .read false none with
  | error y => rw [ht] at h; cases h; exact translateAt_ofAccess ht
  | ok l => rw [ht] at h; exact number_ofAccess h

theorem translateFrom_ofAccess {s : State} {d ctx base off n : Nat} {r : Option ObjRec} {kind : Kind} {host : Bool} {f : Failed}
    (h : translateFrom s d ctx r base off n kind host = .error f) : f.ofAccess := by
  unfold translateFrom at h
  dsimp only at h
  split at h
  · cases h; exact ofAccess_of_lt (by decide)
  split at h
  · cases h; exact ofAccess_of_lt (by decide)
  split at h
  · cases h; exact ofAccess_of_lt (by decide)
  · exact translateRec_ofAccess (walkOn_sound s d ctx) h

theorem spillKeys_ofAccess {s : State} {core ctx base off n : Nat} {r : Option ObjRec} {kind : Kind} {f : Failed}
    (h : spillKeys s core ctx r base off n kind = .error f) : f.ofAccess := by
  unfold spillKeys at h
  dsimp only at h
  split at h
  next f' hf' =>
    cases h
    split
    · exact ofAccess_of_lt (by decide)
    · exact translateFrom_ofAccess hf'
  · split_ifs at h
    · cases h; exact ofAccess_of_lt (by decide)
    · cases h; exact readCause_ofAccess _ _ _ _

theorem spillCount_ofAccess {s : State} {core ctx : Nat} {r : Option ObjRec} {d : KeyDesc} {kind : Kind} {f : Failed}
    (h : spillCount s core ctx r d kind = .error f) : f.ofAccess := by
  unfold spillCount at h
  split at h
  next f' hf' => cases h; exact spillKeys_ofAccess hf'
  · cases h

/-! Drains -/

/-- The keys of the entry at a position: of the table, then of the spill, or why it cannot be read (04 R92). -/
def drainKeys (s : State) (g : Gang) (core ctx : Nat) (r : Option ObjRec) (d : KeyDesc) (del : Bool) (x : Drain) : Except (Failed × Nat) (List Nat) :=
  if x.pos < 4 * d.buckets then (if (entryKeys g d x.pos).any s.uncorrectable then .error (⟨9, 0xB2, 0⟩, 0) else .ok (entryKeys g d x.pos))
  else
    let off := 16 + 16 * (x.pos - 4 * d.buckets)
    match spillKeys (s.setMem x.mem) core ctx r d.spobj off 16 .read, spillKeys (s.setMem x.mem) core ctx r d.spobj off 16 (if del then .write else .read) with
    | .error f, _ => .error (f, d.spobj + off)
    | _, .error f => .error (f, d.spobj + off)
    | .ok ks, .ok _ => .ok ks

/-- The drain past an entry at keys ks: an empty one is passed over, another is taken. -/
def Drain.past (x : Drain) (d : KeyDesc) (del : Bool) (ks : List Nat) : Drain :=
  if (entryOf x.mem ks).1 = emptyKey then { x with pos := x.pos + 1 }
  else { x with
    taken := x.taken ++ [entryOf x.mem ks], pos := x.pos + 1, mem := if del then setEntry x.mem ks emptyKey 0 else x.mem
    wrote := if del && decide (4 * d.buckets ≤ x.pos) then dedup (x.wrote ++ ks.map lineOf) else x.wrote }

section
variable {s : State} {g : Gang} {core ctx : Nat} {r : Option ObjRec} {d : KeyDesc} {del : Bool}

theorem drain_succ (n : Nat) (x : Drain) : drain s g core ctx r d del (n + 1) x =
    if 32 ≤ x.taken.length then x
    else match drainKeys s g core ctx r d del x with
      | .error f => { x with failed := some f }
      | .ok ks => drain s g core ctx r d del n (x.past d del ks) := by
  rw [drain]
  split
  · rfl
  dsimp only
  change (match drainKeys s g core ctx r d del x with | .error f => _ | .ok ks => _) = _
  cases drainKeys s g core ctx r d del x with
  | error f => rfl
  | ok ks =>
    dsimp only
    unfold Drain.past
    split <;> rfl

theorem drainKeys_ofAccess {x : Drain} {f : Failed × Nat} (h : drainKeys s g core ctx r d del x = .error f) : f.1.ofAccess := by
  unfold drainKeys at h
  dsimp only at h
  split at h
  · split at h
    · cases h; exact .inr rfl
    · cases h
  split at h
  · next hk => cases h; exact spillKeys_ofAccess hk
  · next hk _ => cases h; exact spillKeys_ofAccess hk
  · cases h

/-- What holds of a drain that begins, and of what passing an entry leaves while fewer than 32 are taken, and survives a failing entry, holds at its end. -/
theorem drain_induct {P : Nat → Drain → Prop} (hstop : ∀ n x, P n x → P 0 x)
    (hfail : ∀ n x f, P (n + 1) x → drainKeys s g core ctx r d del x = .error f → P 0 { x with failed := some f })
    (hpast : ∀ n x ks, P (n + 1) x → x.taken.length < 32 → P n (x.past d del ks)) :
    ∀ n x, P n x → P 0 (drain s g core ctx r d del n x) := by
  intro n
  induction n with
  | zero => exact fun x hx => hx
  | succ n ih =>
    intro x hx
    rw [drain_succ]
    split
    · exact hstop _ x hx
    · next hroom =>
      cases hks : drainKeys s g core ctx r d del x with
      | error f => exact hfail n x f hx hks
      | ok ks => exact ih _ (hpast n x ks hx (by omega))

theorem past_pos (x : Drain) (ks : List Nat) : (x.past d del ks).pos = x.pos + 1 := by
  unfold Drain.past
  split <;> rfl

theorem past_failed (x : Drain) (ks : List Nat) : (x.past d del ks).failed = x.failed := by
  unfold Drain.past
  split <;> rfl

theorem past_taken_length (x : Drain) (ks : List Nat) : (x.past d del ks).taken.length ≤ x.taken.length + 1 := by
  unfold Drain.past
  split
  · exact Nat.le_succ _
  · exact (List.length_append ..).le

theorem past_mem (x : Drain) (ks : List Nat) : (x.past d false ks).mem = x.mem := by
  unfold Drain.past
  split <;> rfl

theorem past_wrote {x : Drain} (h : x.pos < 4 * d.buckets) (ks : List Nat) : (x.past d del ks).wrote = x.wrote := by
  unfold Drain.past
  split
  · rfl
  · simp [Nat.not_le.mpr h]

theorem drain_taken_length {x : Drain} (n : Nat) (h : x.taken.length ≤ 32) : (drain s g core ctx r d del n x).taken.length ≤ 32 :=
  drain_induct (P := fun _ x => x.taken.length ≤ 32) (fun _ _ hx => hx) (fun _ _ _ hx _ => hx)
    (fun _ x ks _ hroom => (past_taken_length x ks).trans hroom) n x h

theorem drain_failed_ofAccess {x : Drain} {n : Nat} {f : Failed × Nat} (h : x.failed = none)
    (hf : (drain s g core ctx r d del n x).failed = some f) : f.1.ofAccess :=
  drain_induct (P := fun _ x => ∀ f, x.failed = some f → f.1.ofAccess) (fun _ _ hx => hx)
    (fun _ _ f _ hks f' hf' => by cases hf'; exact drainKeys_ofAccess hks) (fun _ x ks hx _ => by rwa [past_failed]) n x
    (fun f hf => by rw [h] at hf; cases hf) f hf

/-- HDRN leaves memory as it was (04 R92). -/
theorem drain_mem (n : Nat) (x : Drain) : (drain s g core ctx r d false n x).mem = x.mem :=
  drain_induct (P := fun _ y => y.mem = x.mem) (fun _ _ hy => hy) (fun _ _ _ hy _ => hy) (fun _ y ks hy _ => (past_mem y ks).trans hy) n x rfl

theorem drain_pos_le (n : Nat) (x : Drain) : (drain s g core ctx r d del n x).pos ≤ x.pos + n :=
  drain_induct (P := fun m y => y.pos + m ≤ x.pos + n) (fun _ _ hy => (Nat.le_add_right _ _).trans hy) (fun _ _ _ hy _ => (Nat.le_add_right _ _).trans hy)
    (fun m y ks hy _ => by rw [past_pos]; omega) n x le_rfl

/-- A drain that ends with the table has written no line of the spill. -/
theorem drain_wrote {x : Drain} {n : Nat} (h : n = 0 ∨ x.pos + n ≤ 4 * d.buckets) (hx : x.wrote = []) :
    (drain s g core ctx r d del n x).wrote = [] :=
  (drain_induct (P := fun m y => (m = 0 ∨ y.pos + m ≤ 4 * d.buckets) ∧ y.wrote = []) (fun _ _ hy => ⟨.inl rfl, hy.2⟩)
    (fun _ _ _ hy _ => ⟨.inl rfl, hy.2⟩) (fun m y ks hy _ => by
      obtain ⟨hend, hwrote⟩ := hy
      have hpos : y.pos + (m + 1) ≤ 4 * d.buckets := hend.resolve_left (Nat.succ_ne_zero m)
      exact ⟨.inr (by rw [past_pos]; omega), (past_wrote (by omega) ks).trans hwrote⟩) n x ⟨h, hx⟩).2

end

/-! The registers of a drain -/

/-- The number that an entry gives to a group of four registers: its key, then its value (07 R178). -/
def entryNumber (en : Nat × Nat) : Nat := en.1 + 2 ^ 64 * en.2

/-- The strand with the entries taken given to the threads from 0 up, and the cursor. -/
def Env.drainStrand (e : Env) (d a : BitVec 7) (p : BitVec 3) (taken : List (Nat × Nat)) (cursor : Nat) : Strand :=
  ((e.st.setEachGroup d.toNat 4 (List.range taken.length) fun t => entryNumber (taken.getD t (0, 0))).setP p.toNat 0xFFFFFFFF
    (maskOf (List.range taken.length))).setS a.toNat (BitVec.ofNat 32 cursor)

theorem foldl_mapIdx_setGroup (taken : List (Nat × Nat)) (st : Strand) (d : Nat) :
    (taken.mapIdx fun t en => (t, en)).foldl (fun st r => st.setGroup d 4 r.1 (r.2.1 + 2 ^ 64 * r.2.2)) st =
      st.setEachGroup d 4 (List.range taken.length) fun t => entryNumber (taken.getD t (0, 0)) := by
  have hmap : (taken.mapIdx fun t en => (t, en)) = (List.range taken.length).map fun t => (t, taken.getD t (0, 0)) :=
    List.ext_getElem (by simp) fun t ht _ => by
      rw [List.length_mapIdx] at ht
      simp [ht]
  rw [hmap, List.foldl_map]
  rfl

/-- What a drain changes of its strand: four registers of each thread that takes an entry, the predicate of all, and the cursor (07 R178). -/
def Env.DrainRegs (e : Env) (d a : BitVec 7) (p : BitVec 3) (taken : List (Nat × Nat)) (cursor : Word) (st1 : Strand) : Prop :=
  OnlyRegs e.st st1 e.pi e.p.nfr ∧ SameAccs e.st st1 ∧ (∀ c, st1.sreg c = if c = a.toNat then cursor else e.st.sreg c) ∧
    (∀ q t, t < 32 → st1.pred q t = if q = p.toNat ∧ p ≠ 0 then decide (t < taken.length) else e.st.pred q t) ∧
    ∀ c t, t < 32 → st1.vreg c t = match taken[t]? with
      | some (key, v) => if d.toNat ≤ c ∧ c < d.toNat + 4 then BitVec.ofNat 32 ((key + 2 ^ 64 * v) / 2 ^ (32 * (c - d.toNat))) else e.st.vreg c t
      | none => e.st.vreg c t

theorem Env.DrainRegs.run {e : Env} {d a : BitVec 7} {p : BitVec 3} {taken : List (Nat × Nat)} {cursor : Word} {st1 : Strand}
    (h : e.DrainRegs d a p taken cursor st1) (hp : e.p = e.st.path e.pi) : (st1.path e.pi).run = e.p.run := by
  obtain ⟨⟨hpath, -, -⟩, -⟩ := h
  rw [hpath, hp]

theorem Env.DrainRegs.stepping {e : Env} {d a : BitVec 7} {p : BitVec 3} {taken : List (Nat × Nat)} {cursor : Word} {st1 : Strand}
    (h : e.DrainRegs d a p taken cursor st1) : st1.stepping = e.st.stepping := by
  obtain ⟨⟨-, -, hrest⟩, -⟩ := h
  rw [hrest]

theorem has_all {t : Nat} (ht : t < 32) : has 0xFFFFFFFF t = true := by
  interval_cases t <;> rfl

section
variable {e : Env} {d a : BitVec 7} {p : BitVec 3}

theorem drainStrand_rest (taken : List (Nat × Nat)) (cursor : Nat) :
    e.drainStrand d a p taken cursor =
      { e.st with v := (e.drainStrand d a p taken cursor).v, s := (e.drainStrand d a p taken cursor).s, p := (e.drainStrand d a p taken cursor).p } := by
  rw [Env.drainStrand, Strand.setS, Strand.setP_rest, Strand.setEachGroup_rest]

theorem onlyRegs_of_rest {st st1 : Strand} {pi : Nat} (h : st1 = { st with v := st1.v, s := st1.s, p := st1.p }) :
    OnlyRegs st st1 pi (st.path pi).nfr ∧ SameAccs st st1 := by
  refine ⟨⟨?_, fun _ => ?_, ?_⟩, ?_, ?_, ?_, ?_⟩ <;> rw [h] <;> rfl

theorem drainStrand_regs {taken : List (Nat × Nat)} (cursor : Nat) (hp : e.p = e.st.path e.pi) (hlen : taken.length ≤ 32) :
    e.DrainRegs d a p taken (BitVec.ofNat 32 cursor) (e.drainStrand d a p taken cursor) := by
  have hrest := drainStrand_rest (e := e) (d := d) (a := a) (p := p) taken cursor
  obtain ⟨honly, haccs⟩ := onlyRegs_of_rest (pi := e.pi) hrest
  refine ⟨hp ▸ honly, haccs, fun c => ?_, fun q t ht => ?_, fun c t ht => ?_⟩
  · rw [Env.drainStrand, Strand.sreg_setS, Strand.setP_rest, Strand.setEachGroup_rest]
    rfl
  · have hset : (e.drainStrand d a p taken cursor).pred q t = (e.st.setP p.toNat 0xFFFFFFFF (maskOf (List.range taken.length))).pred q t := by
      rw [Env.drainStrand, Strand.setEachGroup_rest]
      unfold Strand.setP
      split <;> rfl
    rw [hset, pred_setP _ _ _ _ _ ht, has_all ht, has_maskOf _ ht]
    simp only [pcode_ne_zero, List.mem_range, and_true]
  · rw [Env.drainStrand, Strand.vreg_setS, Strand.vreg_setP,
      Strand.vreg_setEachGroup _ _ _ _ _ _ _ (fun u hu => (List.mem_range.mp hu).trans_le hlen) ht, List.getD_eq_getElem?_getD]
    simp only [List.mem_range]
    cases htaken : taken[t]? with
    | none =>
      rw [if_neg fun h => absurd h.1 (Nat.not_lt.mpr (List.getElem?_eq_none_iff.mp htaken))]
    | some en =>
      obtain ⟨key, v⟩ := en
      simp [(List.getElem?_eq_some_iff.mp htaken).1, entryNumber]

/-- Where NSP cannot be read no thread takes an entry and the cursor stays (log 105). -/
theorem undrained_regs (hp : e.p = e.st.path e.pi) : e.DrainRegs d a p [] (e.st.sreg a.toNat) (e.st.setP p.toNat 0xFFFFFFFF 0) := by
  obtain ⟨honly, haccs⟩ := onlyRegs_of_rest (st := e.st) (st1 := e.st.setP p.toNat 0xFFFFFFFF 0) (pi := e.pi) (by rw [Strand.setP_rest])
  refine ⟨hp ▸ honly, haccs, fun c => ?_, fun q t ht => ?_, fun c t ht => ?_⟩
  · rw [Strand.setP_rest]
    split
    · next hc => rw [hc]; rfl
    · rfl
  · rw [pred_setP _ _ _ _ _ ht, has_all ht]
    simp [pcode_ne_zero, has]
  · rw [Strand.vreg_setP]
    rfl

end

/-! The instruction -/

/-- The position a drain that goes on to `last` leaves in the cursor: all ones where it has reached the end (07 R178). -/
def Drain.cursor (x : Drain) (last : Nat) : Nat :=
  match x.failed with
  | some _ => x.pos
  | none => if x.pos < last then x.pos else 0xFFFFFFFF

theorem cursor_of_done {x : Drain} {last : Nat} (h : x.failed = none) :
    BitVec.ofNat 32 (x.cursor last) = if x.pos < last then BitVec.ofNat 32 x.pos else 0xFFFFFFFF := by
  rw [Drain.cursor, h]
  exact apply_ite (BitVec.ofNat 32) _ _ _

theorem cursor_of_failed {x : Drain} {last : Nat} {f : Failed × Nat} (h : x.failed = some f) : x.cursor last = x.pos := by rw [Drain.cursor, h]

/-- A drain goes on, or stops the strand for the entry that failed. -/
def Env.drainEnd (e : Env) (u : State) : Option (Failed × Nat) → State
  | none => e.next u
  | some (f, addr) => e.raise u f.cause f.qual addr

/-- The buckets of its table that a drain from a position to another has examined (log 49). -/
def drainSteps (d : KeyDesc) (c pos : Nat) : Nat :=
  if min c (4 * d.buckets) < min pos (4 * d.buckets) then (min pos (4 * d.buckets) - 1) / 4 - min c (4 * d.buckets) / 4 + 1 else 0

/-- The lines of the spill that a drain charges: of NSP, of the entries it reads, and of those it takes out (log 49). -/
def Env.drainLines (e : Env) (s : State) (d : KeyDesc) (c : Nat) (x : Drain) : List Nat :=
  let r := carriedRecord (spillRecord s e.core e.ctx d)
  let first := max c (4 * d.buckets) - 4 * d.buckets
  (if d.spl then (match spillKeys s e.core e.ctx r d.spobj 0 8 .read with | .ok ks => dedup (ks.map lineOf) | .error _ => []) else []) ++
    entryLines s e.core e.ctx r d first (x.pos - (4 * d.buckets + first)) ++ x.wrote

/-- The state that a drain leaves: memory, what it charges, and its strand. -/
def Env.drainState (e : Env) (s : State) (m : List Host.Cell) (steps : Nat) (spent : List Nat) (st1 : Strand) : State :=
  (((s.setMem m).charge e.core e.ctx 5 steps).chargeHomes e.core e.ctx spent).setStrand e.k st1

section
variable {e : Env} {s : State} {d a : BitVec 7} {p h : BitVec 3} {del : Bool} {n : Nat} {desc : KeyDesc}

theorem drain_strand_kept (m : List Host.Cell) (steps : Nat) (spent : List Nat) (k : Nat) :
    (((s.setMem m).charge e.core e.ctx 5 steps).chargeHomes e.core e.ctx spent).strand k = s.strand k := by
  obtain ⟨cs, fr, hcharge⟩ := chargeHomes_accounted ((s.setMem m).charge e.core e.ctx 5 steps) e.core e.ctx spent
  rw [hcharge]
  exact State.charge_strand ..

theorem hdrn_of_count {nsp : Nat} {x : Drain} (hs : s.strand e.k = some e.st) (htable : tableOf e.g (e.st.sreg (56 + h.toNat)).toNat = some (n, desc))
    (hcount : (if desc.spl then spillCount s e.core e.ctx (carriedRecord (spillRecord s e.core e.ctx desc)) desc .read else .ok 0) = .ok nsp)
    (hx : drain s e.g e.core e.ctx (carriedRecord (spillRecord s e.core e.ctx desc)) desc del (4 * desc.buckets + nsp - (e.st.sreg a.toNat).toNat)
      { pos := (e.st.sreg a.toNat).toNat, mem := s.mem } = x) :
    e.hdrn d a p h del s = e.drainEnd (e.drainState s x.mem (drainSteps desc (e.st.sreg a.toNat).toNat x.pos)
      (e.drainLines s desc (e.st.sreg a.toNat).toNat x) (e.drainStrand d a p x.taken (x.cursor (4 * desc.buckets + nsp)))) x.failed := by
  unfold Env.hdrn
  rw [htable]
  dsimp only
  rw [hcount]
  dsimp only
  rw [hx, onStrand_of_some ((drain_strand_kept ..).trans hs), foldl_mapIdx_setGroup]
  unfold Env.drainStrand Drain.cursor
  cases x.failed <;> rfl

theorem hdrn_of_uncounted {f : Failed} (hs : s.strand e.k = some e.st) (htable : tableOf e.g (e.st.sreg (56 + h.toNat)).toNat = some (n, desc))
    (hcount : (if desc.spl then spillCount s e.core e.ctx (carriedRecord (spillRecord s e.core e.ctx desc)) desc .read else .ok 0) = .error f) :
    e.hdrn d a p h del s = e.raise (s.setStrand e.k (e.st.setP p.toNat 0xFFFFFFFF 0)) f.cause f.qual desc.spobj := by
  unfold Env.hdrn
  rw [htable]
  dsimp only
  rw [hcount]
  dsimp only
  rw [onStrand_of_some hs]

theorem count_ofAccess {r : Option ObjRec} {f : Failed} (h : (if desc.spl then spillCount s e.core e.ctx r desc .read else .ok 0) = .error f) :
    f.ofAccess := by
  split at h
  · exact spillCount_ofAccess h
  · cases h

/-- Of a table without a spill a drain charges no line. -/
theorem drainLines_without_spill {r : Option ObjRec} {c : Nat} (hspl : desc.spl = false) :
    e.drainLines s desc c (drain s e.g e.core e.ctx r desc del (4 * desc.buckets + 0 - c) { pos := c, mem := s.mem }) = [] := by
  have hpos := drain_pos_le (s := s) (g := e.g) (core := e.core) (ctx := e.ctx) (r := r) (d := desc) (del := del) (4 * desc.buckets + 0 - c)
    { pos := c, mem := s.mem }
  have hnone (pos : Nat) (h : pos ≤ c + (4 * desc.buckets + 0 - c)) : pos - (4 * desc.buckets + (max c (4 * desc.buckets) - 4 * desc.buckets)) = 0 := by
    omega
  rw [Env.drainLines, hspl, hnone _ hpos, drain_wrote (by dsimp only; omega) rfl]
  rfl

theorem exec_drain {i : Instr} {r : Run} (hi : Issues i s e r)
    (hform : ∃ z, (del = false ∧ i = .hdrn z d a p h) ∨ (del = true ∧ i = .hdrnDel z d a p h)) : exec i s = .next (e.hdrn d a p h del (paid i e s)) := by
  obtain ⟨z, ⟨rfl, rfl⟩ | ⟨rfl, rfl⟩⟩ := hform
  · exact issue_body _ hi
  · exact issue_body _ hi

end

/-- What a drain leaves of the package: memory, what it has charged, and its own strand. -/
structure DrainFrame (i : Instr) (s : State) (e : Env) (spl : Bool) (m : List Host.Cell) (u : State) : Prop where
  package : u = { paid i e s with mem := m, cores := u.cores, free := u.free, strands := u.strands }
  free : spl = false → u.free = s.free
  cores : ∀ c, u.core c = { s.core c with energy := (u.core c).energy, charges := (u.core c).charges }
  strands : ∀ k, k ≠ e.k → u.strand k = s.strand k

theorem paid_core_accounts (i : Instr) (e : Env) (s : State) (c : Nat) :
    (paid i e s).core c = { s.core c with energy := ((paid i e s).core c).energy, charges := ((paid i e s).core c).charges } := by
  unfold paid
  rw [State.charge_core, State.charge_core, begun_core]

theorem paid_free (i : Instr) (e : Env) (s : State) : (paid i e s).free = s.free := by
  rw [paid_eq]
  rfl

theorem drainState_frame (i : Instr) (s : State) (e : Env) (m : List Host.Cell) (steps : Nat) {spent : List Nat} {spl : Bool} (st1 : Strand)
    (h : spl = false → spent = []) : DrainFrame i s e spl m (e.drainState (paid i e s) m steps spent st1) := by
  obtain ⟨cs, fr, hcharge⟩ := chargeHomes_accounted (((paid i e s).setMem m).charge e.core e.ctx 5 steps) e.core e.ctx spent
  refine ⟨?_, fun hspl => ?_, fun c => ?_, fun k hk => ?_⟩
  · rw [Env.drainState, hcharge, State.charge_eq]
    rfl
  · rw [h hspl, Env.drainState, State.charge_eq]
    exact paid_free i e s
  · have hcores : (e.drainState (paid i e s) m steps spent st1).core c =
      ((((paid i e s).setMem m).charge e.core e.ctx 5 steps).chargeHomes e.core e.ctx spent).core c := rfl
    have hset : ((paid i e s).setMem m).core c = (paid i e s).core c := rfl
    rw [hcores, chargeHomes_core, State.charge_core, hset, paid_core_accounts]
  · rw [Env.drainState, State.strand_setStrand, if_neg hk, drain_strand_kept, paid_strand_other i e s hk]

theorem undrained_frame (i : Instr) (s : State) (e : Env) (spl : Bool) (st1 : Strand) : DrainFrame i s e spl s.mem ((paid i e s).setStrand e.k st1) := by
  refine ⟨?_, fun _ => paid_free i e s, paid_core_accounts i e s, fun k hk => ?_⟩
  · rw [← paid_mem i e s]
    rfl
  · rw [State.strand_setStrand, if_neg hk, paid_strand_other i e s hk]

theorem ofAccess_not_breakpoint {f : Failed} (h : f.ofAccess) : f.cause ≠ 0xB0 ∧ f.cause ≠ 0xB1 := by
  unfold Failed.ofAccess at h
  omega

/-- What a drain x leaves in the package u and the strand st1 (04 R92; 07 R178). -/
def Env.Drained (i : Instr) (s : State) (e : Env) (del spl : Bool) (d a : BitVec 7) (p : BitVec 3) (u : State) (st1 : Strand) (x : Drain)
    (cursor : Word) : Prop :=
  u = { paid i e s with mem := x.mem, cores := u.cores, free := u.free, strands := u.strands } ∧ (spl = false → u.free = s.free) ∧
    (∀ c, u.core c = { s.core c with energy := (u.core c).energy, charges := (u.core c).charges }) ∧ (∀ k, k ≠ e.k → u.strand k = s.strand k) ∧
    (del = false → u.mem = s.mem) ∧ x.taken.length ≤ 32 ∧ e.DrainRegs d a p x.taken cursor st1

section
variable {i : Instr} {s : State} {e : Env} {del : Bool} {d a : BitVec 7} {p : BitVec 3} {desc : KeyDesc}

theorem drained_of_frame {spl : Bool} {u : State} {st1 : Strand} {x : Drain} {cursor : Word} (hframe : DrainFrame i s e spl x.mem u)
    (hmem : del = false → x.mem = s.mem) (hlen : x.taken.length ≤ 32) (hregs : e.DrainRegs d a p x.taken cursor st1) :
    Env.Drained i s e del spl d a p u st1 x cursor := by
  obtain ⟨hpackage, hfree, hcores, hstrands⟩ := hframe
  exact ⟨hpackage, hfree, hcores, hstrands, fun hdel => by rw [hpackage]; exact hmem hdel, hlen, hregs⟩

/-- Where NSP can be read, or there is none, HDRN leaves what its drain does, and ends as that has. -/
theorem hdrn_drains {h : BitVec 3} {n nsp : Nat} {x : Drain} (hp : e.p = e.st.path e.pi)
    (htable : tableOf e.g (e.st.sreg (56 + h.toNat)).toNat = some (n, desc))
    (hcount : (if desc.spl then spillCount (paid i e s) e.core e.ctx (carriedRecord (spillRecord (paid i e s) e.core e.ctx desc)) desc .read
      else .ok 0) = .ok nsp)
    (hx : drain (paid i e s) e.g e.core e.ctx (carriedRecord (spillRecord (paid i e s) e.core e.ctx desc)) desc del
      (4 * desc.buckets + nsp - (e.st.sreg a.toNat).toNat) { pos := (e.st.sreg a.toNat).toNat, mem := s.mem } = x) :
    ∃ u st1, e.hdrn d a p h del (paid i e s) = e.drainEnd u x.failed ∧ u.strand e.k = some st1 ∧
      Env.Drained i s e del desc.spl d a p u st1 x (BitVec.ofNat 32 (x.cursor (4 * desc.buckets + nsp))) := by
  have hlen : x.taken.length ≤ 32 := hx ▸ drain_taken_length _ (Nat.zero_le _)
  refine ⟨_, _, hdrn_of_count (paid_strand_same i e s) htable hcount (by rw [paid_mem, hx]), State.strand_setStrand_same .., ?_⟩
  refine drained_of_frame (drainState_frame i s e x.mem _ _ fun hspl => ?_) ?_ hlen (drainStrand_regs _ hp hlen)
  · obtain rfl : 0 = nsp := by simpa [hspl] using hcount
    rw [← hx, ← paid_mem i e s]
    exact drainLines_without_spill hspl
  · rintro rfl
    rw [← hx, drain_mem]

end

/-- HDRN and HDRN.del (04 R92, 07 R178). -/
theorem keyTableDrainsPart : KeyTableDrainsPart := by
  intro i del d a p h s e r hform hi
  obtain ⟨-, -, hp, -, -, -⟩ := envOf_eq hi.1
  have hexec := exec_drain hi hform
  refine ⟨fun hnone => stopsWhole_of_raise (hexec.trans ?_) (by decide), fun n desc htable => ⟨fun nsp hcount => ?_, fun f hcount => ?_⟩⟩
  · rw [Env.hdrn, hnone]
  · obtain ⟨u, st1, hdrn, hstrand, hdrained⟩ := hdrn_drains (d := d) (p := p) hp htable hcount rfl
    obtain ⟨hpackage, -, -, -, -, -, hregs⟩ := id hdrained
    rw [hdrn] at hexec
    refine ⟨fun hfailed => ?_, fun f addr hfailed => ?_⟩
    · obtain ⟨st', hret⟩ := hi.retires (by rw [hpackage]) hstrand (hregs.run hp) hregs.stepping
      rw [hfailed] at hexec
      rw [cursor_of_done hfailed] at hdrained
      exact ⟨u, _, st1, st', hexec, hret, hdrained⟩
    · obtain ⟨st', hstop⟩ := raise_stops f.cause f.qual addr 0 hstrand (ofAccess_not_breakpoint (drain_failed_ofAccess rfl hfailed))
      rw [hfailed] at hexec
      rw [cursor_of_failed hfailed] at hdrained
      exact ⟨u, _, st1, st', hexec, hstop, hdrained⟩
  · rw [hdrn_of_uncounted (paid_strand_same i e s) htable hcount] at hexec
    obtain ⟨st', hstop⟩ := raise_stops f.cause f.qual desc.spobj 0 (State.strand_setStrand_same (paid i e s) e.k (e.st.setP p.toNat 0xFFFFFFFF 0))
      (ofAccess_not_breakpoint (count_ofAccess hcount))
    exact ⟨_, _, _, st', hexec, hstop, drained_of_frame (d := d) (undrained_frame i s e desc.spl _) (fun _ => rfl) (Nat.zero_le _)
      (undrained_regs hp)⟩

/-- Settles O18: a claim and a release set one descriptor of the gang; a drain takes entries up to one that fails, and its strand takes those. -/
theorem keyTableClaims : Obligations.KeyTableClaims := ⟨keyTablesClaimedPart, keyTableDrainsPart⟩

end Sys2Proof.Machine
end

section
/-!
PROOFS. Source codes, and the machine at reset: which register a code reads, and what no step has changed yet (05 R95, R96; 06 R134).
-/

namespace Sys2Proof.Machine

theorem srcN_one (st : Strand) (c t : Nat) : st.srcN c 1 t = (st.src c t).toNat := by simp [Strand.srcN]

theorem srcN_two (st : Strand) (c t : Nat) : st.srcN c 2 t = (st.src c t).toNat + 2 ^ 32 * (st.src (c + 1) t).toNat := by
  rw [Strand.srcN, srcN_one]

theorem uniN_one (st : Strand) (c : Nat) : st.uniN c 1 = (st.sreg c).toNat := by simp [Strand.uniN]

theorem uniN_two (st : Strand) (c : Nat) : st.uniN c 2 = (st.sreg c).toNat + 2 ^ 32 * (st.sreg (c + 1)).toNat := by
  rw [Strand.uniN, uniN_one]

/-- Settles O1: a vector form reads its group of `src`s, a uniform form its group of uniform registers. -/
theorem sourcesRead : Obligations.SourcesRead := by
  unfold Obligations.SourcesRead
  intro e c t
  exact ⟨srcN_one e.st c.toNat t, srcN_two e.st c.toNat t, uniN_one e.st c.toNat, uniN_two e.st c.toNat⟩

/-- Settles O59: the reset state is the empty one, so every register has its default and every table reads as an empty one does. -/
theorem resetValues : Obligations.ResetValues := by
  unfold Obligations.ResetValues
  refine ⟨by decide, by decide, by decide, by decide, fun d => ?_, fun c => ?_, fun q => ⟨rfl, rfl⟩, fun k => ⟨rfl, rfl, rfl, rfl, rfl⟩, ?_, rfl,
    fun a => rfl⟩
  · exact ⟨rfl, rfl, rfl, rfl, rfl, rfl⟩
  · exact ⟨rfl, rfl, rfl, rfl, fun n => rfl, fun n => rfl⟩
  · exact ⟨fun r t => rfl, fun r => rfl, fun p hp => if_neg hp, rfl, rfl, rfl⟩

end Sys2Proof.Machine
end

section
/-!
PROOFS. Results that raise flags: the sticky flags they leave, the threads that have their results, and the stop of the others (05 R104, R105;
08 R180; 14 R344).
-/

namespace Sys2Proof.Machine

/-! States that differ in one strand -/

theorem OnlyStrand.refl {s : State} {k : Nat} {st : Strand} (h : s.strand k = some st) : OnlyStrand s s k st := ⟨h, fun _ _ => rfl, rfl⟩

theorem OnlyStrand.onStrand {s u : State} {k : Nat} {st : Strand} (h : OnlyStrand s u k st) (f : Strand → Strand) :
    OnlyStrand s (u.onStrand k f) k (f st) := by
  rw [onStrand_of_some h.strand]
  refine ⟨State.strand_setStrand_same _ _ _, fun j hj => ?_, ?_⟩
  · rw [State.strand_setStrand, if_neg hj, h.others j hj]
  · conv_lhs => rw [State.setStrand, h.package]
    rfl

theorem OnlyStrand.cur {s u : State} {k : Nat} {st : Strand} (h : OnlyStrand s u k st) : u.cur = s.cur := by rw [h.package]

theorem OnlyRegs.run {st st1 : Strand} {pi : Nat} {nfr : Word} (h : OnlyRegs st st1 pi nfr) : (st1.path pi).run = (st.path pi).run := by rw [h.path]

theorem OnlyRegs.stepping {st st1 : Strand} {pi : Nat} {nfr : Word} (h : OnlyRegs st st1 pi nfr) : st1.stepping = st.stepping := by rw [h.rest]

theorem Issues.path_eq {i : Instr} {s : State} {e : Env} {r : Run} (h : Issues i s e r) : e.p = e.st.path e.pi := by
  obtain ⟨-, -, hp, -, -, -⟩ := envOf_eq h.1
  exact hp

/-! Sticky flags (05 R104) -/

/-- The strand with flags set in the NFR of one of its paths. -/
def Strand.stuck (st : Strand) (pi flags : Nat) : Strand := st.setPath pi { st.path pi with nfr := stick (st.path pi).nfr flags }

section
variable (st : Strand) (pi flags : Nat)

@[simp] theorem Strand.stuck_vreg (c t : Nat) : (st.stuck pi flags).vreg c t = st.vreg c t := by simp [Strand.stuck]
@[simp] theorem Strand.stuck_sreg (c : Nat) : (st.stuck pi flags).sreg c = st.sreg c := by simp [Strand.stuck]
@[simp] theorem Strand.stuck_pmask (p : Nat) : (st.stuck pi flags).pmask p = st.pmask p := by simp [Strand.stuck]
@[simp] theorem Strand.stuck_pred (p t : Nat) : (st.stuck pi flags).pred p t = st.pred p t := by simp [Strand.pred]

end

section
variable {st st1 : Strand} {pi flags : Nat}

theorem SameAccs.stuck (h : SameAccs st st1) : SameAccs st (st1.stuck pi flags) := by simpa [SameAccs, Strand.stuck] using h

theorem WritesVector.stuck {act : Mask} {d n : Nat} {f : Nat → Nat} (h : WritesVector st st1 act d n f) : WritesVector st (st1.stuck pi flags) act d n f :=
  ⟨by simpa using h.vec, by simpa using h.uni, by simpa using h.pred⟩

theorem WritesUniform.stuck {d n v : Nat} (h : WritesUniform st st1 d n v) : WritesUniform st (st1.stuck pi flags) d n v :=
  ⟨by simpa using h.uni, by simpa using h.vec, by simpa using h.pred⟩

theorem WritesPred.stuck {act : Mask} {p : Nat} {val : Nat → Bool} (h : WritesPred st st1 act p val) : WritesPred st (st1.stuck pi flags) act p val :=
  ⟨by simpa using h.pred, by simpa using h.vec, by simpa using h.uni⟩

theorem OnlyRegs.stuck {nfr : Word} (h : OnlyRegs st st1 pi nfr) (flags : Nat) :
    OnlyRegs st (st1.stuck pi flags) pi (nfr ||| BitVec.ofNat 32 flags <<< 4) := by
  refine ⟨?_, fun hpi => ?_, ?_⟩
  · rw [Strand.stuck, Strand.path_setPath, h.path]
    rfl
  · rw [Strand.stuck, Strand.path_setPath_other _ _ (by omega), h.other hpi]
  · rw [Strand.stuck, Strand.setPath_eq, h.rest]

end

theorem OnlyStrand.sticky {e : Env} {s u : State} {st : Strand} (h : OnlyStrand s u e.k st) (flags : Nat) :
    OnlyStrand s (e.sticky flags u) e.k (st.stuck e.pi flags) := h.onStrand _

/-! The ends of an instruction that computes -/

/-- The threads of a fault have no effect, the others have theirs, as `what` says of the strand, and the path stops after the instruction (05 R105,
14 R344). -/
def TrapsAfter (i : Instr) (s base : State) (e : Env) (r : Run) (nfr : Word) (f : PathFault) (what : Strand → Prop) : Prop :=
  ∃ u v t st1 st2 st3, exec i s = .next t ∧ OnlyStrand base u e.k st1 ∧ OnlyRegs e.st st1 e.pi nfr ∧ SameAccs e.st st1 ∧ what st1 ∧
    Retires u v e r none false st1 st2 ∧ Stops v t e f e.after false st2 st3

section
variable {i : Instr} {s base u : State} {e : Env} {r : Run} {nfr : Word} {st1 : Strand}

theorem computesFrom_of_next {what : Strand → Strand → Prop} (h : Issues i s e r) (hcur : base.cur = (paid i e s).cur) (hx : exec i s = .next (e.next u))
    (hu : OnlyStrand base u e.k st1) (ho : OnlyRegs e.st st1 e.pi nfr) (hw : what e.st st1) : ComputesFrom i s base e r nfr what := by
  obtain ⟨st', hret⟩ := h.retires (hu.cur.trans hcur) hu.strand (h.path_eq ▸ ho.run) ho.stepping
  exact ⟨u, _, st1, st', hx, hu, ho, hw, hret⟩

/-- Where some threads fault, the instruction retires and its path then stops for them (14 R344). -/
theorem trapsAfter_of_nextFault {cause : Nat} {m : Mask} {what : Strand → Prop} (h : Issues i s e r) (hcur : base.cur = (paid i e s).cur)
    (hx : exec i s = .next (e.nextFault u cause 0 m 0)) (hm : m ≠ 0) (hcause : cause ≠ 0xB0 ∧ cause ≠ 0xB1) (hu : OnlyStrand base u e.k st1)
    (ho : OnlyRegs e.st st1 e.pi nfr) (ha : SameAccs e.st st1) (hw : what st1) :
    TrapsAfter i s base e r nfr { cause, emask := m, pc := e.chain } what := by
  obtain ⟨st2, hret⟩ := h.retires (hu.cur.trans hcur) hu.strand (h.path_eq ▸ ho.run) ho.stepping
  obtain ⟨st3, hstop⟩ := faultPath_stops { cause, emask := m, pc := e.chain } e.after hret.strand
  simp only [beq_eq_false_iff_ne.mpr hcause.1, beq_eq_false_iff_ne.mpr hcause.2, Bool.or_self, Bool.and_false, Bool.false_and] at hstop
  rw [Env.nextFault, if_neg hm] at hx
  exact ⟨u, _, _, st1, st2, st3, hx, hu, ho, ha, hw, hret, hstop⟩

end

/-! Threads that raise flags -/

theorem numericCause_lt (flags : Nat) : numericCause flags < 0xB0 := by
  unfold numericCause
  split_ifs <;> decide

theorem numericCause_not_breakpoint (flags : Nat) : numericCause flags ≠ 0xB0 ∧ numericCause flags ≠ 0xB1 := by
  have := numericCause_lt flags
  omega

/-- The threads of a list whose flags meet an enable, and those whose flags do not. -/
def Env.trapping (e : Env) (flags : Nat → Nat) (ts : List Nat) : List Nat := ts.filter fun t => trapped e.p.nfr (flags t) != 0
def Env.untrapped (e : Env) (flags : Nat → Nat) (ts : List Nat) : List Nat := ts.filter fun t => trapped e.p.nfr (flags t) == 0

theorem flagged_eq (e : Env) (ts : List Nat) (flags : Nat → Nat) (write : Mask → State → State) (base : State) :
    e.flagged (ts.map fun t => (t, flags t)) write base =
      e.nextFault (e.sticky (unionFlags ((e.untrapped flags ts).map flags))
          (write (maskOf (e.untrapped flags ts)) base))
        (numericCause (unionFlags ((e.trapping flags ts).map fun t => trapped e.p.nfr (flags t)))) 0
        (maskOf (e.trapping flags ts)) 0 := by
  simp only [Env.flagged, List.filter_map, List.map_map, Function.comp_def, List.map_id']
  rfl

section
variable {i : Instr} {s base : State} {e : Env} {r : Run} {st1 : Strand} {flags : Nat → Nat} {ts : List Nat} {write : Mask → State → State}

/-- Where no thread's flags meet an enable, every thread has its result, and their flags stick. -/
theorem computesFrom_of_flagged {what : Strand → Strand → Prop} (h : Issues i s e r) (hcur : base.cur = (paid i e s).cur)
    (hx : exec i s = .next (e.flagged (ts.map fun t => (t, flags t)) write base)) (hnone : ∀ t ∈ ts, trapped e.p.nfr (flags t) = 0)
    (hwrite : OnlyStrand base (write (maskOf ts) base) e.k st1) (ho : OnlyRegs e.st st1 e.pi e.p.nfr)
    (hw : what e.st (st1.stuck e.pi (unionFlags (ts.map flags)))) :
    ComputesFrom i s base e r (e.p.nfr ||| BitVec.ofNat 32 (unionFlags (ts.map flags)) <<< 4) what := by
  have hgood : e.untrapped flags ts = ts := List.filter_eq_self.mpr fun t ht => beq_iff_eq.mpr (hnone t ht)
  have hbad : e.trapping flags ts = [] := List.filter_eq_nil_iff.mpr fun t ht => by simp [hnone t ht]
  rw [flagged_eq, hgood, hbad, Env.nextFault, if_pos (show maskOf [] = 0 from rfl)] at hx
  exact computesFrom_of_next h hcur hx (hwrite.sticky _) (ho.stuck _) hw

/-- Where some threads' flags meet an enable, the others have their results, and the path stops after the instruction. -/
theorem trapsAfter_of_flagged {what : Strand → Prop} (h : Issues i s e r) (hcur : base.cur = (paid i e s).cur)
    (hx : exec i s = .next (e.flagged (ts.map fun t => (t, flags t)) write base)) (hts : ∀ t ∈ ts, t < 32)
    (hbad : e.trapping flags ts ≠ [])
    (hwrite : OnlyStrand base (write (maskOf (e.untrapped flags ts)) base) e.k st1) (ho : OnlyRegs e.st st1 e.pi e.p.nfr)
    (ha : SameAccs e.st st1) (hw : what (st1.stuck e.pi (unionFlags ((e.untrapped flags ts).map flags)))) :
    TrapsAfter i s base e r (e.p.nfr ||| BitVec.ofNat 32 (unionFlags ((e.untrapped flags ts).map flags)) <<< 4)
      { cause := numericCause (unionFlags ((e.trapping flags ts).map fun t => trapped e.p.nfr (flags t)))
        emask := maskOf (e.trapping flags ts), pc := e.chain } what := by
  obtain ⟨t, ht⟩ := List.exists_mem_of_ne_nil _ hbad
  have hmask := maskOf_ne_zero (hts t (List.mem_of_mem_filter ht)) ht
  rw [flagged_eq] at hx
  exact trapsAfter_of_nextFault h hcur hx hmask (numericCause_not_breakpoint _) (hwrite.sticky _) (ho.stuck _) ha.stuck hw

end

/-! The uniform form (08 R180) -/

section
variable {i : Instr} {s : State} {e : Env} {r : Run} {st1 : Strand} {flags : Nat} {write : State → State}

theorem computes_of_flaggedOnce {what : Strand → Strand → Prop} (h : Issues i s e r)
    (hx : exec i s = .next (e.flaggedOnce flags write (paid i e s))) (hnone : trapped e.p.nfr flags = 0)
    (hwrite : OnlyStrand (paid i e s) (write (paid i e s)) e.k st1) (ho : OnlyRegs e.st st1 e.pi e.p.nfr) (hw : what e.st (st1.stuck e.pi flags)) :
    Computes i s e r (e.p.nfr ||| BitVec.ofNat 32 flags <<< 4) what := by
  rw [Env.flaggedOnce, hnone] at hx
  exact computesFrom_of_next h rfl hx (hwrite.sticky _) (ho.stuck _) hw

theorem stopsWhole_of_flaggedOnce (hx : exec i s = .next (e.flaggedOnce flags write (paid i e s))) (htrap : trapped e.p.nfr flags ≠ 0) :
    StopsWhole i s e (numericCause (trapped e.p.nfr flags)) 0 0 := by
  refine stopsWhole_of_raise (hx.trans ?_) (numericCause_lt _)
  simp [Env.flaggedOnce, htrap]

end

/-! Masks and lists of threads -/

theorem active_maskOf_filter (m : Mask) (p : Nat → Bool) : active (maskOf ((active m).filter p)) = (active m).filter p := by
  conv_rhs => rw [active, List.filter_filter]
  refine List.filter_congr fun t ht => ?_
  have hlt : t < 32 := by simp only [threads] at ht; simp at ht; omega
  rw [has_maskOf _ hlt, Bool.eq_iff_iff]
  simp [mem_active, hlt, and_comm]

theorem maskOf_active (m : Mask) : maskOf (active m) = m := by
  refine BitVec.eq_of_getLsbD_eq fun t ht => ?_
  have := has_maskOf (active m) ht
  rw [has] at this
  rw [this, Bool.eq_iff_iff]
  simp [mem_active, ht, has]

/-! Groups of registers of the threads of a mask -/

/-- The listed threads' results of n registers, with their flags: those of a mask write theirs (05 R105). -/
def Env.flagThreads (e : Env) (ts : List Nat) (d : BitVec 7) (n : Nat) (f : Nat → Nat × Nat) (s : State) : State :=
  e.flagged (ts.map fun t => (t, (f t).2)) (fun m s => s.onStrand e.k fun st =>
    (ts.map fun t => (t, f t)).foldl (fun st r => if has m r.1 then st.setGroup d.toNat n r.1 r.2.1 else st) st) s

/-- One result of n uniform registers, or one for each thread of a mask, with their flags (08 R180). -/
def Env.putResults (e : Env) (x : BitVec 1) (m : Mask) (d : BitVec 7) (n : Nat) (f : Nat → Nat × Nat) (s : State) : State :=
  if x = 1 then e.flaggedOnce (f (lowest e.act)).2 (e.put 1 d n fun _ => (f (lowest e.act)).1) s else e.flagThreads (active m) d n f s

theorem putFlagged_eq (e : Env) (x : BitVec 1) (d : BitVec 7) (n : Nat) (f : Nat → Nat × Nat) (s : State) :
    e.putFlagged x d n f s = e.putResults x e.act d n f s := by
  by_cases hx : x = 1
  · subst hx
    rfl
  · rw [Env.putFlagged, if_neg (by simpa using hx), Env.putResults, if_neg hx, Env.flagThreads]
    dsimp only
    rw [List.map_map]
    rfl

theorem foldl_setGroup_filter (p : Nat → Bool) (d n : Nat) (f : Nat → Nat × Nat) (ts : List Nat) (st : Strand) :
    (ts.map fun t => (t, f t)).foldl (fun st r => if p r.1 then st.setGroup d n r.1 r.2.1 else st) st =
      st.setEachGroup d n (ts.filter p) fun t => (f t).1 := by
  rw [List.foldl_map, Strand.setEachGroup, List.foldl_filter]

/-- An instruction that issues and writes registers and predicates alone leaves its flags and the accumulators. -/
theorem Issues.onlyRegs_of_rest {i : Instr} {s : State} {e : Env} {r : Run} {st1 : Strand} (h : Issues i s e r)
    (hrest : st1 = { e.st with v := st1.v, s := st1.s, p := st1.p }) : OnlyRegs e.st st1 e.pi e.p.nfr ∧ SameAccs e.st st1 :=
  h.path_eq ▸ Machine.onlyRegs_of_rest hrest

theorem Issues.setEachGroup_onlyRegs {i : Instr} {s : State} {e : Env} {r : Run} (h : Issues i s e r) (d n : Nat) (ts : List Nat) (f : Nat → Nat) :
    OnlyRegs e.st (e.st.setEachGroup d n ts f) e.pi e.p.nfr ∧ SameAccs e.st (e.st.setEachGroup d n ts f) :=
  h.onlyRegs_of_rest (by rw [Strand.setEachGroup_rest])

section
variable {i : Instr} {s base : State} {e : Env} {r : Run} {m : Mask} {d : BitVec 7} {n : Nat} {f : Nat → Nat × Nat}

/-- The threads p of the mask write their groups. -/
theorem flagThreads_write (hs : base.strand e.k = some e.st) (p : Nat → Bool) :
    OnlyStrand base (base.onStrand e.k fun st => ((active m).map fun t => (t, f t)).foldl
      (fun st r => if has (maskOf ((active m).filter p)) r.1 then st.setGroup d.toNat n r.1 r.2.1 else st) st) e.k
      (e.st.setEachGroup d.toNat n (active (maskOf ((active m).filter p))) fun t => (f t).1) := by
  have hfilter : (active m).filter (has (maskOf ((active m).filter p))) = active (maskOf ((active m).filter p)) := by
    rw [active_maskOf_filter]
    refine List.filter_congr fun t ht => ?_
    rw [has_maskOf _ (mem_active.mp ht).1, Bool.eq_iff_iff]
    simp [ht]
  rw [← hfilter, ← foldl_setGroup_filter]
  exact (OnlyStrand.refl hs).onStrand _

theorem computesFrom_of_flagThreads (h : Issues i s e r) (hs : base.strand e.k = some e.st) (hcur : base.cur = (paid i e s).cur)
    (hx : exec i s = .next (e.flagThreads (active m) d n f base)) (hnone : ∀ t ∈ active m, trapped e.p.nfr (f t).2 = 0) :
    ComputesFrom i s base e r (e.p.nfr ||| BitVec.ofNat 32 (unionFlags ((active m).map fun t => (f t).2)) <<< 4) fun st st' =>
      SameAccs st st' ∧ WritesVector st st' m d.toNat n fun t => (f t).1 := by
  have hwrite := flagThreads_write (m := m) (d := d) (n := n) (f := f) hs fun _ => true
  rw [List.filter_true, maskOf_active] at hwrite
  obtain ⟨ho, ha⟩ := h.setEachGroup_onlyRegs d.toNat n (active m) fun t => (f t).1
  exact computesFrom_of_flagged h hcur hx hnone ((maskOf_active m).symm ▸ hwrite) ho
    ⟨ha.stuck, (setEachGroup_writesVector e.st d.toNat n m _).stuck⟩

theorem trapsAfter_of_flagThreads (h : Issues i s e r) (hs : base.strand e.k = some e.st) (hcur : base.cur = (paid i e s).cur)
    (hx : exec i s = .next (e.flagThreads (active m) d n f base))
    (hbad : e.trapping (fun t => (f t).2) (active m) ≠ []) :
    TrapsAfter i s base e r
      (e.p.nfr ||| BitVec.ofNat 32 (unionFlags ((e.untrapped (fun t => (f t).2) (active m)).map fun t => (f t).2)) <<< 4)
      { cause := numericCause (unionFlags ((e.trapping (fun t => (f t).2) (active m)).map fun t => trapped e.p.nfr (f t).2))
        emask := maskOf (e.trapping (fun t => (f t).2) (active m)), pc := e.chain }
      fun st1 => WritesVector e.st st1 (maskOf (e.untrapped (fun t => (f t).2) (active m))) d.toNat n fun t => (f t).1 := by
  obtain ⟨ho, ha⟩ := h.setEachGroup_onlyRegs d.toNat n (active (maskOf (e.untrapped (fun t => (f t).2) (active m)))) fun t => (f t).1
  exact trapsAfter_of_flagged h hcur hx (fun t ht => (mem_active.mp ht).1) hbad (flagThreads_write hs _) ho ha
    (setEachGroup_writesVector e.st d.toNat n _ _).stuck

end

end Sys2Proof.Machine
end

section
/-!
PROOFS. FP32, packed, conversion, function and accumulator instructions: the results and flags of each thread, and the table lookups that cannot be
served (05 R103 to R118; 08 R189 to R196, R204; 09 R207 to R219).
-/

namespace Sys2Proof.Machine

/-! What the instructions compute, in the words of the statement -/

theorem fp_eq : Env.fp = Env.fp32In := rfl

theorem fpDone_eq : Env.fpDone = Env.fp32Out := rfl

theorem third_eq (e : Env) (d : BitVec 7) : e.third d = e.h.third.getD d := rfl

theorem fp2_eq (e : Env) (x : BitVec 1) (d a b : BitVec 7) (f : FV → FV → FV × Nat) (s : State) :
    e.fp2 x d a b f s = e.putFlagged x d 1 (fun t => e.fp32Out (f (e.fp32In x a e.h.nega t) (e.fp32In x b e.h.negb t))) s := rfl

theorem halfFmt_eq (h : BitVec 1) : halfFmt h = if h = 1 then bf16 else fp16 := by
  by_cases hh : h = 1 <;> simp [halfFmt, hh]

theorem half_eq (e : Env) (h x : BitVec 1) (c : BitVec 7) (neg : Bool) (t j : Nat) : e.half h x c neg t j = e.halfIn h x c neg t j := by
  rw [Env.half, halfFmt_eq]
  rfl

theorem halves_eq (e : Env) (h x : BitVec 1) (d : BitVec 7) (f : Nat → Nat → FV × Nat) (s : State) :
    e.halves h x d f s = e.putFlagged x d 1 (fun t => e.halfOut h (f t 0) (f t 1)) s := by
  rw [Env.halves, halfFmt_eq]
  rfl

/-- Parts of a result side by side, with the flags of all (08 R196). -/
theorem foldl_parts (value flags : Nat → Nat) (js : List Nat) (v g : Nat) :
    js.foldl (fun (r : Nat × Nat) j => (r.1 + value j, orFlags r.2 (flags j))) (v, g) =
      (v + (js.map value).sum, js.foldl (fun g j => orFlags g (flags j)) g) := by
  induction js generalizing v g with
  | nil => rfl
  | cons j js ih => rw [List.foldl_cons, ih, List.map_cons, List.sum_cons, List.foldl_cons, Nat.add_assoc]

theorem tableImage_paid (i : Instr) (e : Env) (s : State) : tableImage (paid i e s) = tableImage s := by
  rw [paid_eq]
  rfl

theorem tableFails_paid (i : Instr) (e : Env) (s : State) : tableFails (paid i e s) = tableFails s := by
  rw [paid_eq]
  rfl

theorem putServed_of_served {e : Env} {lost : Nat → Bool} (h : e.ts.any lost = false) (d : BitVec 7) (f : Nat → Nat × Nat) (s : State) :
    e.putServed d lost f s = e.putResults 0 e.act d 1 f s := by
  rw [Env.putServed, h, ← putFlagged_eq]
  rfl

theorem exec_sfe {z : BitVec 1} {d a : BitVec 7} {f : BitVec 5} {l u : BitVec 4} {s : State} {e : Env} {r : Run} (h : Issues (.sfe z d a f l u) s e r) :
    exec (.sfe z d a f l u) s = .next (
      let s := paid (.sfe z d a f l u) e s
      if f.toNat < 16 then e.putFlagged 0 d 1 (fun t => builtin f.toNat e.fz32 (e.get 0 a 1 t)) s
      else match tableImage s e.ctx e.p.run (f.toNat - 16) with
        | none => e.raise s 0xA2
        | some tab => e.putServed d (fun t => tableFails s e.die e.ctx e.p.run (f.toNat - 16) (tab.touches e.fz32 (e.get 0 a 1 t)))
            (fun t => tab.eval e.fz32 (e.get 0 a 1 t)) s) := by
  rw [show exec (.sfe z d a f l u) s = execSfe z d a f l u s from rfl, execSfe, issue_body _ h] <;> rfl

/-- The body of each instruction of `flaggedValue` puts its results. -/
theorem exec_flaggedValue {i : Instr} {s : State} {e : Env} {r : Run} {x : BitVec 1} {m : Mask} {d : BitVec 7} {n : Nat} {f : Nat → Nat × Nat}
    (h : Issues i s e r) (hf : flaggedValue s e i = some (x, m, d, n, f)) : exec i s = .next (e.putResults x m d n f (paid i e s)) := by
  have hput {body : Env → State → State} {x : BitVec 1} {d : BitVec 7} {n : Nat} {f : Nat → Nat × Nat} (hx : exec i s = issue i s body)
      (hbody : body e (paid i e s) = e.putFlagged x d n f (paid i e s)) : exec i s = .next (e.putResults x e.act d n f (paid i e s)) := by
    rw [hx, issue_body _ h, hbody, putFlagged_eq]
  cases i <;> simp only [flaggedValue, Option.some.injEq, reduceCtorEq, Prod.mk.injEq] at hf
  case sfe z d' a g l u =>
    split_ifs at hf with hg
    · obtain ⟨rfl, rfl, rfl, rfl, rfl⟩ := by simpa using hf
      rw [exec_sfe h, ← putFlagged_eq]
      exact congrArg _ (if_pos hg)
    · split at hf
      · next tab htab =>
        split_ifs at hf with hlost
        obtain ⟨rfl, rfl, rfl, rfl, rfl⟩ := by simpa using hf
        rw [exec_sfe h, if_neg hg, tableImage_paid, htab, tableFails_paid]
        exact congrArg _ (putServed_of_served (Bool.eq_false_iff.mpr hlost) _ _ _)
      · cases hf
  all_goals obtain ⟨rfl, rfl, rfl, rfl, rfl⟩ := hf
  case fadd => exact hput rfl (fp2_eq ..)
  case fsub => exact hput rfl (fp2_eq ..)
  case fmul => exact hput rfl (fp2_eq ..)
  case ffma => exact hput rfl (by simp only [fp_eq, fpDone_eq, third_eq])
  case fmin => exact hput rfl (by simp only [fp_eq])
  case fmax => exact hput rfl (by simp only [fp_eq])
  case frnd => exact hput rfl (by simp only [fp_eq])
  case hadd2 => exact hput rfl (by simp only [halves_eq, half_eq])
  case hmul2 => exact hput rfl (by simp only [halves_eq, half_eq])
  case hfma2 => exact hput rfl (by simp only [halves_eq, half_eq, third_eq])
  case fdot2 => exact hput rfl (by simp only [half_eq, fp_eq, fpDone_eq, third_eq])
  case cvt => exact hput rfl rfl
  case fmt z g d' a t' =>
    rw [show exec (.fmt z g d' a t') s = execFmt z g d' a t' s from rfl, execFmt, issue_body _ h, ← putFlagged_eq]
    simp only [foldl_parts, Nat.zero_add]
    rfl
  case kcomb z d' a b =>
    rw [show exec (.kcomb z d' a b) s = execKcomb z d' a b s from rfl, execKcomb, issue_body _ h, Env.putResults, if_neg (by decide),
      Env.ts, active_maskOf_filter, Env.flagThreads]
    dsimp only
    rw [List.map_map]
    rfl
  case lrd => exact hput rfl rfl
  case lvar => exact hput rfl rfl

/-! The uniform form -/

section
variable {i : Instr} {s : State} {e : Env} {r : Run} {m : Mask} {d : BitVec 7} {n : Nat} {f : Nat → Nat × Nat}

theorem computes_of_uniform (h : Issues i s e r) (hx : exec i s = .next (e.putResults 1 m d n f (paid i e s)))
    (hnone : trapped e.p.nfr (f (lowest e.act)).2 = 0) :
    Computes i s e r (e.p.nfr ||| BitVec.ofNat 32 (f (lowest e.act)).2 <<< 4) fun st st' =>
      SameAccs st st' ∧ WritesUniform st st' d.toNat n (f (lowest e.act)).1 := by
  have hs := paid_strand_same i e s
  have hput := Env.put_strand e 1 d n (fun _ => (f (lowest e.act)).1) (paid i e s) e.st hs
  obtain ⟨ho, ha⟩ := h.onlyRegs_of_rest (st1 := e.st.setSGroup d.toNat n (f (lowest e.act)).1) (by rw [Strand.setSGroup_rest])
  have hw := put_writes e.st 1 d.toNat n e.act fun _ => (f (lowest e.act)).1
  rw [Writes, if_pos rfl] at hw
  exact computes_of_flaggedOnce h hx hnone (hput ▸ onlyStrand_setStrand _ e.k _) ho ⟨ha.stuck, hw.stuck⟩

end

/-- Settles O3: each instruction puts its results, for the strand or for the threads of its mask, and no flag of them meets an enable. -/
theorem flaggedResults : Obligations.FlaggedResults := by
  unfold Obligations.FlaggedResults
  intro i s e r x m d n f h hf hnone
  have hexec := exec_flaggedValue h hf
  by_cases hx : x = 1
  · subst hx
    simp only [Writes, flagsOf, if_true] at hnone ⊢
    exact computes_of_uniform h hexec (hnone 0)
  · simp only [Writes, flagsOf, hx, if_false] at hnone ⊢
    rw [Env.putResults, if_neg hx] at hexec
    exact computesFrom_of_flagThreads h (paid_strand_same i e s) rfl hexec fun t ht => by simpa [(mem_active.mp ht).2] using hnone t

theorem numericTrapsPart : NumericTrapsPart := by
  intro i s e r x m d n f h hf
  have hexec := exec_flaggedValue h hf
  refine ⟨fun hx htrap => ?_, fun hx hbad => ?_⟩
  · subst hx
    exact stopsWhole_of_flaggedOnce hexec htrap
  · subst hx
    rw [flagsOf, if_neg (by decide), active_maskOf_filter]
    exact trapsAfter_of_flagThreads h (paid_strand_same i e s) rfl hexec hbad

/-! Table lookups (09 R211, R214) -/

/-- Where some threads are not served, those of the others that no flag stops have their results (01 R22, 05 R110). -/
theorem putServed_of_lost {e : Env} {lost : Nat → Bool} (h : e.ts.any lost = true) (d : BitVec 7) (f : Nat → Nat × Nat) (s : State) :
    e.putServed d lost f s =
      let good := e.ts.filter fun t => !lost t && trapped e.p.nfr (f t).2 == 0
      e.nextFault (e.sticky (unionFlags (good.map fun t => (f t).2)) (s.onStrand e.k fun st => st.setEachGroup d.toNat 1 good fun t => (f t).1)) 0xB2 0
        (e.act &&& ~~~(maskOf good)) 0 := by
  simp only [Env.putServed, h, Bool.not_true, Bool.false_eq_true, if_false, List.filter_map, List.map_map, List.foldl_map, Function.comp_def, List.map_id',
    Strand.setEachGroup]

theorem lost_ne_zero {m : Mask} {ts : List Nat} {t : Nat} (ht : t ∈ active m) (hout : t ∉ ts) : m &&& ~~~(maskOf ts) ≠ 0 := by
  obtain ⟨hlt, hact⟩ := mem_active.mp ht
  have hbit : has (m &&& ~~~(maskOf ts)) t = true := by
    have hnot := has_maskOf ts hlt
    rw [has] at hact hnot ⊢
    rw [BitVec.getLsbD_and, BitVec.getLsbD_not, hact, hnot]
    simp [hlt, hout]
  rintro hzero
  rw [hzero] at hbit
  simp [has] at hbit

theorem tableLookupsPart : TableLookupsPart := by
  intro z d a f l u s e r i h hf
  have hexec : exec i s = .next (match tableImage s e.ctx e.p.run (f.toNat - 16) with
      | none => e.raise (paid i e s) 0xA2
      | some tab => e.putServed d (fun t => tableFails s e.die e.ctx e.p.run (f.toNat - 16) (tab.touches e.fz32 (e.get 0 a 1 t)))
          (fun t => tab.eval e.fz32 (e.get 0 a 1 t)) (paid i e s)) := by
    rw [exec_sfe h, if_neg (by omega), tableImage_paid, tableFails_paid]
  refine ⟨fun hnone => stopsWhole_of_raise (hexec.trans ?_) (by decide), fun tab htab => ?_⟩
  · rw [hnone]
  · intro x lost good hlost
    obtain ⟨t, ht, htlost⟩ := hlost
    have hany : e.ts.any lost = true := List.any_eq_true.mpr ⟨t, ht, htlost⟩
    have hout : t ∉ good := by simp [good, htlost]
    obtain ⟨ho, ha⟩ := h.setEachGroup_onlyRegs d.toNat 1 good fun t => (tab.eval e.fz32 (x t)).1
    have hw := setEachGroup_writesVector e.st d.toNat 1 (maskOf good) fun t => (tab.eval e.fz32 (x t)).1
    rw [show active (maskOf good) = good from active_maskOf_filter e.act _] at hw
    rw [htab] at hexec
    dsimp only at hexec
    rw [putServed_of_lost hany] at hexec
    exact trapsAfter_of_nextFault h rfl hexec (lost_ne_zero ht hout) (by decide)
      (((OnlyStrand.refl (paid_strand_same i e s)).onStrand _).sticky _) (ho.stuck _) ha.stuck hw.stuck

/-- Settles O4: the uniform form raises its cause, the threads of the vector form that no flag stops have their results, and so have those of a table
lookup that are served. -/
theorem numericTraps : Obligations.NumericTraps := ⟨numericTrapsPart, tableLookupsPart⟩

end Sys2Proof.Machine
end

section
/-!
PROOFS. Comparisons: the condition of ICMP in the numbers of the spec, and the predicate that a comparison writes (05 R97, R105; 08 R187, R192).
-/

namespace Sys2Proof.Machine

/-! Numbers of n bits -/

theorem signed_eq_toInt (n v : Nat) : signed n v = (BitVec.ofNat n v).toInt := by
  have hhalf : v % 2 ^ n < 2 ^ (n - 1) ↔ 2 * (v % 2 ^ n) < 2 ^ n := by
    cases n with
    | zero => simp [Nat.mod_one]
    | succ n =>
      have hpow : 2 ^ (n + 1) = 2 * 2 ^ n := pow_succ' 2 n
      rw [Nat.add_sub_cancel]
      omega
  rw [BitVec.toInt_eq_toNat_cond, BitVec.toNat_ofNat, signed]
  simp only [hhalf]

theorem srcN_lt (st : Strand) (c n t : Nat) : st.srcN c n t < 2 ^ (32 * n) := by
  induction n generalizing c with
  | zero => simp [Strand.srcN]
  | succ n ih =>
    have hlow : (st.src c t).toNat < 2 ^ 32 := (st.src c t).isLt
    have hpow : 2 ^ (32 * (n + 1)) = 2 ^ 32 * 2 ^ (32 * n) := by rw [← pow_add]; congr 1; omega
    have hrest := ih (c + 1)
    rw [Strand.srcN, hpow]
    omega

theorem uniN_lt (st : Strand) (c n : Nat) : st.uniN c n < 2 ^ (32 * n) := by
  induction n generalizing c with
  | zero => simp [Strand.uniN]
  | succ n ih =>
    have hlow : (st.sreg c).toNat < 2 ^ 32 := (st.sreg c).isLt
    have hpow : 2 ^ (32 * (n + 1)) = 2 ^ 32 * 2 ^ (32 * n) := by rw [← pow_add]; congr 1; omega
    have hrest := ih (c + 1)
    rw [Strand.uniN, hpow]
    omega

theorem get_lt (e : Env) (x : BitVec 1) (c : BitVec 7) (n t : Nat) : e.get x c n t < 2 ^ (32 * n) := by
  unfold Env.get
  split
  · exact uniN_lt e.st c.toNat n
  · exact srcN_lt e.st c.toNat n t

/-- The condition of two numbers of n bits is that of the words that hold them (08 R187). -/
theorem intCompare_eq (c : BitVec 3) {n a b : Nat} (ha : a < 2 ^ n) (hb : b < 2 ^ n) :
    intCompare c n a b = icmpCondition c (BitVec.ofNat n a) (BitVec.ofNat n b) := by
  have hna : (BitVec.ofNat n a).toNat = a := by rw [BitVec.toNat_ofNat, Nat.mod_eq_of_lt ha]
  have hnb : (BitVec.ofNat n b).toNat = b := by rw [BitVec.toNat_ofNat, Nat.mod_eq_of_lt hb]
  have heq : (BitVec.ofNat n a == BitVec.ofNat n b) = decide (a = b) := by
    rw [Bool.eq_iff_iff, beq_iff_eq, decide_eq_true_iff, BitVec.toNat_eq, hna, hnb]
  rw [intCompare, signed_eq_toInt, signed_eq_toInt]
  obtain rfl | rfl | rfl | rfl | rfl | rfl | rfl | rfl : c = 0 ∨ c = 1 ∨ c = 2 ∨ c = 3 ∨ c = 4 ∨ c = 5 ∨ c = 6 ∨ c = 7 := by
    revert c
    decide
  · exact heq.symm
  · exact (decide_not (p := a = b)).trans (congrArg not heq.symm)
  · exact (BitVec.slt_eq_decide ..).symm
  · exact (BitVec.sle_eq_decide ..).symm
  · exact (BitVec.slt_eq_decide ..).symm
  · exact (BitVec.sle_eq_decide ..).symm
  · exact (congrArg₂ (fun p q => decide (p < q)) hna hnb).symm
  · exact (congrArg₂ (fun p q => decide (p ≤ q)) hna hnb).symm

/-! A predicate of the threads of a mask -/

theorem setP_writesPred {st : Strand} {p : Nat} {m val : Mask} {f : Nat → Bool} (h : ∀ t, t < 32 → has m t = true → has val t = f t) :
    WritesPred st (st.setP p m val) m p f := by
  refine ⟨fun q t ht => ?_, fun c t _ => Strand.vreg_setP .., fun c => Strand.sreg_setP ..⟩
  rw [pred_setP _ _ _ _ _ ht]
  split_ifs with hc
  · exact h t ht hc.2.2
  · rfl

theorem Issues.setP_onlyRegs {i : Instr} {s : State} {e : Env} {r : Run} (h : Issues i s e r) (p : Nat) (m val : Mask) :
    OnlyRegs e.st (e.st.setP p m val) e.pi e.p.nfr ∧ SameAccs e.st (e.st.setP p m val) :=
  h.onlyRegs_of_rest (by rw [Strand.setP_rest])

theorem putPred_onlyStrand {e : Env} {s : State} (h : s.strand e.k = some e.st) (p : Nat) (val : Mask) :
    OnlyStrand s (e.putPred p val s) e.k (e.st.setP p e.act val) := (OnlyStrand.refl h).onStrand _

theorem has_maskWhere (f : Nat → Bool) {t : Nat} (ht : t < 32) : has (maskWhere f) t = f t := by
  have hmem : t ∈ threads := by unfold threads; interval_cases t <;> decide
  rw [maskWhere, has_maskOf _ ht, Bool.eq_iff_iff]
  simp [hmem]

/-- ICMP (08 R187). -/
theorem icmpResultsPart : IcmpResultsPart := by
  intro z c d a b x s e r h
  have hexec : exec (.icmp z c d a b x) s =
      .next (e.next (e.putPred d.toNat (maskWhere fun t => intCompare c e.n (e.get x a e.w t) (e.get x b e.w t)) (paid (.icmp z c d a b x) e s))) := by
    rw [show exec (.icmp z c d a b x) s = execIcmp z c d a b x s from rfl, execIcmp, issue_body _ h]
  obtain ⟨ho, ha⟩ := h.setP_onlyRegs d.toNat e.act (maskWhere fun t => intCompare c e.n (e.get x a e.w t) (e.get x b e.w t))
  refine computesFrom_of_next h rfl hexec (putPred_onlyStrand (paid_strand_same _ e s) _ _) ho
    (what := fun st st' => SameAccs st st' ∧ WritesPred st st' e.act d.toNat _) ⟨ha, setP_writesPred fun t ht _ => ?_⟩
  rw [has_maskWhere _ ht]
  exact intCompare_eq c (get_lt e x a e.w t) (get_lt e x b e.w t)

/-! Comparisons that raise flags -/

/-- The listed threads' conditions, with their flags: those of a mask write theirs (05 R105). -/
def Env.compareThreads (e : Env) (ts : List Nat) (d : BitVec 7) (f : Nat → Bool × Nat) (s : State) : State :=
  e.flagged (ts.map fun t => (t, (f t).2)) (fun m s => s.onStrand e.k fun st => st.setP d.toNat m (maskOf (ts.filter fun t => (f t).1))) s

theorem putCompare_threads (e : Env) {x : BitVec 1} (hx : ¬ x = 1) (d : BitVec 7) (f : Nat → Bool × Nat) (s : State) :
    e.putCompare x d f s = e.compareThreads e.ts d f s := by
  rw [Env.putCompare, if_neg (by simpa using hx), Env.compareThreads]
  simp only [List.map_map, List.filter_map, Function.comp_def, List.map_id']

theorem exec_fcmp {z : BitVec 1} {c : BitVec 3} {d a b : BitVec 7} {x : BitVec 1} {s : State} {e : Env} {r : Run} (h : Issues (.fcmp z c d a b x) s e r) :
    exec (.fcmp z c d a b x) s = .next (e.putCompare x d (fun t => floatCompare c (e.fp32In x a e.h.nega t) (e.fp32In x b e.h.negb t))
      (paid (.fcmp z c d a b x) e s)) := issue_body _ h

section
variable {i : Instr} {s : State} {e : Env} {r : Run} {d : BitVec 7} {f : Nat → Bool × Nat}

theorem compare_write {base : State} (hs : base.strand e.k = some e.st) (m : Mask) :
    OnlyStrand base (base.onStrand e.k fun st => st.setP d.toNat m (maskOf (e.ts.filter fun t => (f t).1))) e.k
      (e.st.setP d.toNat m (maskOf (e.ts.filter fun t => (f t).1))) := (OnlyStrand.refl hs).onStrand _

/-- The threads of a mask of active ones write their conditions. -/
theorem compare_writesPred (st : Strand) {m : Mask} (hm : ∀ t, t < 32 → has m t = true → t ∈ e.ts) :
    WritesPred st (st.setP d.toNat m (maskOf (e.ts.filter fun t => (f t).1))) m d.toNat fun t => (f t).1 := by
  refine setP_writesPred fun t ht hmem => ?_
  rw [has_maskOf _ ht, Bool.eq_iff_iff]
  simp [hm t ht hmem]

end

/-- FCMP where no flag meets an enable (08 R192). -/
theorem fcmpResultsPart : FcmpResultsPart := by
  intro z c d a b x s e r h f flags hnone
  have hexec := exec_fcmp h
  have hs := paid_strand_same (.fcmp z c d a b x) e s
  by_cases hx : x = 1
  · subst hx
    have ⟨ho, ha⟩ := h.setP_onlyRegs d.toNat e.act (if (f (lowest e.act)).1 then 0xFFFFFFFF else 0)
    refine computes_of_flaggedOnce h hexec (hnone 0) (putPred_onlyStrand hs _ _) ho ⟨ha.stuck, (setP_writesPred fun t ht _ => ?_).stuck⟩
    cases hc : (f (lowest e.act)).1
    · simp [has, hc]
    · simpa [hc] using has_all ht
  · have ⟨ho, ha⟩ := h.setP_onlyRegs d.toNat e.act (maskOf (e.ts.filter fun t => (f t).1))
    rw [putCompare_threads e hx] at hexec
    have hmask : maskOf e.ts = e.act := maskOf_active e.act
    have hw := compare_writesPred (d := d) (f := f) e.st (m := e.act) fun t ht hact => mem_active.mpr ⟨ht, hact⟩
    simp only [hx, if_false, flags, flagsOf] at hnone ⊢
    exact computesFrom_of_flagged (what := fun st st' => SameAccs st st' ∧ WritesPred st st' e.act d.toNat fun t => (f t).1) h rfl hexec
      (fun t ht => by simpa [(mem_active.mp ht).2] using hnone t) (hmask.symm ▸ compare_write hs e.act) ho
      ⟨ha.stuck, hw.stuck⟩

/-- FCMP of threads whose flags meet an enable (05 R105, 08 R180). -/
theorem fcmpTrapsPart : FcmpTrapsPart := by
  intro z c d a b x s e r i f caught h
  have hexec := exec_fcmp h
  refine ⟨fun hx htrap => ?_, fun hx => ?_⟩
  · subst hx
    exact stopsWhole_of_flaggedOnce hexec htrap
  · intro hbad
    rw [putCompare_threads e (by rw [hx]; decide)] at hexec
    have ⟨ho, ha⟩ := h.setP_onlyRegs d.toNat (maskOf (e.untrapped (fun t => (f t).2) e.ts)) (maskOf (e.ts.filter fun t => (f t).1))
    have hw := compare_writesPred (d := d) (f := f) e.st (m := maskOf (e.untrapped (fun t => (f t).2) e.ts)) fun t ht hgood => by
      rw [has_maskOf _ ht, decide_eq_true_iff] at hgood
      exact List.mem_of_mem_filter hgood
    exact trapsAfter_of_flagged h rfl hexec (fun t ht => (mem_active.mp ht).1) hbad (compare_write (paid_strand_same i e s) _) ho ha hw.stuck

/-- Settles O6: a comparison sets its predicate for the threads of one mask, to its one condition or to each thread's. -/
theorem comparisons : Obligations.Comparisons := ⟨icmpResultsPart, fcmpResultsPart, fcmpTrapsPart⟩

end Sys2Proof.Machine
end

section
/-!
PROOFS. Special registers: what a reading writes and holds, and what SWR writes (05 R101 to R103; 14 R361, R362).
-/

namespace Sys2Proof.Machine

/-! Readings -/

theorem bit_zero_or_one (x : BitVec 1) : x = 0 ∨ x = 1 := by
  revert x
  decide

/-- The halves that a strand holds once it has read a code (05 R102). -/
def Env.held (e : Env) (s : State) (code : Nat) : Tab Word :=
  match highOf code with
  | some high => upd e.st.latch high (some (BitVec.ofNat 32 (e.special s high 0)))
  | none => upd e.st.latch code none

/-- Thread t's reading of a code: the held half, or the special register. -/
def Env.reading (e : Env) (s : State) (code t : Nat) : Nat := match look e.st.latch code with | some w => w.toNat | none => e.special s code t

theorem highOf_low {m : BitVec 8} (h : m = 0x10 ∨ m = 0x12 ∨ m = 0x14 ∨ m = 0x20 ∨ m = 0x22) : highOf m.toNat = some (m.toNat + 1) := by
  rcases h with rfl | rfl | rfl | rfl | rfl <;> rfl

theorem highOf_other {m : BitVec 8} (h : ¬ (m = 0x10 ∨ m = 0x12 ∨ m = 0x14 ∨ m = 0x20 ∨ m = 0x22)) : highOf m.toNat = none := by
  refine if_neg fun hcode => h ?_
  simpa [BitVec.toNat_eq] using hcode

theorem held_of_low (e : Env) (s : State) {m : BitVec 8} (h : m = 0x10 ∨ m = 0x12 ∨ m = 0x14 ∨ m = 0x20 ∨ m = 0x22) :
    look (e.held s m.toNat) (m.toNat + 1) = some (BitVec.ofNat 32 (e.special s (m.toNat + 1) 0)) := by
  rw [Env.held, highOf_low h]
  exact look_upd_same _ _ (some _)

theorem held_of_released (e : Env) (s : State) {m : BitVec 8} (h : ¬ (m = 0x10 ∨ m = 0x12 ∨ m = 0x14 ∨ m = 0x20 ∨ m = 0x22)) :
    look (e.held s m.toNat) m.toNat = none := by
  rw [Env.held, highOf_other h]
  exact look_upd_same ..

theorem held_of_other (e : Env) (s : State) {code c : Nat} (h : c ≠ code) (hhigh : c ≠ code + 1) : look (e.held s code) c = look e.st.latch c := by
  unfold Env.held highOf
  split_ifs
  · exact look_upd_other _ _ hhigh
  · exact look_upd_other _ _ h

/-- The strand once it holds what a reading for some thread, or for the strand, leaves. -/
def Env.latched (e : Env) (s : State) (x : BitVec 1) (code : Nat) : Strand :=
  if x = 1 ∨ e.act ≠ 0 then { e.st with latch := e.held s code } else e.st

theorem latched_rest (e : Env) (s : State) (x : BitVec 1) (code : Nat) : e.latched s x code = { e.st with latch := (e.latched s x code).latch } := by
  unfold Env.latched
  split_ifs <;> rfl

theorem latched_of_other (e : Env) (s : State) (x : BitVec 1) {code c : Nat} (h : c ≠ code) (hhigh : c ≠ code + 1) :
    look (e.latched s x code).latch c = look e.st.latch c := by
  unfold Env.latched
  split_ifs
  · exact held_of_other e s h hhigh
  · rfl

/-- The record of a region that a reading for some thread, or for the strand, needs and cannot have (01 R22). -/
def Env.unreadable (e : Env) (s : State) (x : BitVec 1) (code : Nat) : Prop :=
  0x20 ≤ code ∧ look e.st.latch code = none ∧ (x = 1 ∨ e.act ≠ 0) ∧ s.regionFails e.die e.ctx e.st.rsel.toNat = true

theorem readSpecial_unreadable {e : Env} {s : State} {x : BitVec 1} {code : Nat} (h : e.unreadable s x code) (d : BitVec 7) :
    e.readSpecial x d code s = e.raise (s.charge e.core e.ctx 2 1) 0xB2 := by
  obtain ⟨hcode, hheld, hreads, hfails⟩ := h
  refine if_pos ?_
  rw [hheld, hfails, decide_eq_true hcode, decide_eq_true hreads]
  rfl

theorem readSpecial_readable {e : Env} {s : State} {x : BitVec 1} {code : Nat} (hs : s.strand e.k = some e.st) (h : ¬ e.unreadable s x code) (d : BitVec 7) :
    ∃ s1, OnlyStrand s s1 e.k (e.latched s x code) ∧ e.readSpecial x d code s = e.next ((e.put x d 1 (e.reading s code) s1).charge e.core e.ctx 2 1) := by
  refine ⟨_, ?_, (if_neg fun hbad => h ?_).trans rfl⟩
  · unfold Env.latched
    by_cases hreads : x = 1 ∨ e.act ≠ 0
    · have hnone : ¬ ((x == 0 && decide (e.act = 0)) = true) := by
        rintro hnone
        obtain ⟨hx, hact⟩ : x = 0 ∧ e.act = 0 := by simpa using hnone
        exact hreads.elim (fun hone => by rw [hx] at hone; exact absurd hone (by decide)) fun hne => hne hact
      rw [if_pos hreads, if_neg hnone]
      exact (OnlyStrand.refl hs).onStrand _
    · obtain ⟨hx, hact⟩ := not_or.mp hreads
      rw [if_neg hreads, if_pos (by simp [(bit_zero_or_one x).resolve_right hx, not_not.mp hact])]
      exact .refl hs
  · simpa [Env.unreadable, and_assoc] using hbad

/-- A group write of a strand leaves its group and the rest of the strand. -/
theorem put_onlyStrand {e : Env} {s u : State} {st : Strand} (h : OnlyStrand s u e.k st) (x : BitVec 1) (d : BitVec 7) (n : Nat) (f : Nat → Nat) :
    ∃ st1, OnlyStrand s (e.put x d n f u) e.k st1 ∧ Writes x st st1 e.act d.toNat n f ∧ st1 = { st with v := st1.v, s := st1.s } := by
  refine ⟨_, h.onStrand _, put_writes st x d.toNat n e.act f, ?_⟩
  split_ifs
  · rw [Strand.setSGroup_rest]
  · rw [Strand.setEachGroup_rest]

theorem Writes.of_latched {e : Env} {s : State} {x : BitVec 1} {code d : Nat} {st1 : Strand} {act : Mask} {f : Nat → Nat}
    (h : Writes x (e.latched s x code) st1 act d 1 f) : Writes x e.st st1 act d 1 f := by
  rw [latched_rest] at h
  unfold Writes at h ⊢
  split_ifs at h ⊢
  · exact ⟨h.uni, h.vec, h.pred⟩
  · exact ⟨h.vec, h.uni, h.pred⟩

/-! SWR -/

theorem onlyStrand_onPath {s : State} {k pi : Nat} {st : Strand} (h : s.strand k = some st) (f : Path → Path) :
    OnlyStrand s (s.onPath k pi f) k (st.setPath pi (f (st.path pi))) := (OnlyStrand.refl h).onStrand _

/-- An instruction whose body changes its own strand alone, but for its runs, has that effect. -/
theorem effects_of_onlyStrand {i : Instr} {s u : State} {e : Env} {r : Run} {st1 : Strand} {what : State → Strand → Prop} (h : Issues i s e r)
    (hx : exec i s = .next (e.next u)) (hu : OnlyStrand (paid i e s) u e.k st1) (hrun : (st1.path e.pi).run = e.p.run)
    (hstep : st1.stepping = e.st.stepping) (hw : what u st1) : Effects i s e r what := by
  obtain ⟨st', hret⟩ := h.retires hu.cur hu.strand hrun hstep
  exact ⟨u, _, st1, st', hx, hret, fun k hk => (hu.others k hk).trans (paid_strand_other i e s hk), hw⟩

/-- SWR (14 R362). -/
theorem swr_effects {z : BitVec 1} {d : BitVec 7} {m : BitVec 8} {s : State} {e : Env} {r : Run} (h : Issues (.swr z d m) s e r) :
    Effects (.swr z d m) s e r fun u st1 => OnlyStrand (paid (.swr z d m) e s) u e.k st1 ∧ st1 =
      if m = 0x18 then e.st.setPath e.pi { e.p with nfr := swrNfr e.p.nfr (e.st.sreg d.toNat) }
      else { e.st with rsel := (e.st.sreg d.toNat).setWidth 8 } := by
  have hs := paid_strand_same (.swr z d m) e s
  have hexec : exec (.swr z d m) s = .next (e.next (if m.toNat = 0x18 then
      (paid (.swr z d m) e s).onPath e.k e.pi fun p => { p with nfr := swrNfr p.nfr (e.st.sreg d.toNat) }
    else (paid (.swr z d m) e s).onStrand e.k fun st => { st with rsel := (e.st.sreg d.toNat).setWidth 8 })) := by
    rw [show exec (.swr z d m) s = execSwr z d m s from rfl, execSwr, issue_body _ h]
  have hcode : m = 0x18 ↔ m.toNat = 0x18 := by simp [BitVec.toNat_eq]
  by_cases hm : m = 0x18
  · rw [if_pos (hcode.mp hm)] at hexec
    have hu := onlyStrand_onPath (pi := e.pi) hs fun p => { p with nfr := swrNfr p.nfr (e.st.sreg d.toNat) }
    rw [← h.path_eq] at hu
    exact effects_of_onlyStrand h hexec hu (by rw [Strand.path_setPath]) (by rw [Strand.setPath_stepping]) ⟨hu, (if_pos hm).symm⟩
  · rw [if_neg (mt hcode.mpr hm)] at hexec
    have hu := (OnlyStrand.refl hs).onStrand fun st => { st with rsel := (e.st.sreg d.toNat).setWidth 8 }
    exact effects_of_onlyStrand h hexec hu (congrArg Path.run h.path_eq.symm) rfl ⟨hu, (if_neg hm).symm⟩

/-- Settles O30: a reading raises 0xB2, or writes its value and holds or releases a half; SWR writes one of the two registers it names. -/
theorem specialRegisters : Obligations.SpecialRegisters := by
  unfold Obligations.SpecialRegisters
  intro i x z d m s e r h lost
  have hs := paid_strand_same i e s
  have hread (hi : i = if x = 1 then .srdU z d m else .srd z d m) : exec i s = .next (e.readSpecial x d m.toNat (paid i e s)) := by
    obtain rfl | rfl := bit_zero_or_one x
    · rw [if_neg (by decide)] at hi
      subst hi
      exact issue_body _ h
    · rw [if_pos rfl] at hi
      subst hi
      exact issue_body _ h
  refine ⟨fun hi hlost => ?_, fun hi hlost => ?_, fun hi => ?_⟩
  · obtain ⟨st', hstop⟩ := raise_stops (e := e) 0xB2 0 0 0 ((State.charge_strand (paid i e s) e.core e.ctx 2 1 e.k).trans hs) (by decide)
    exact ⟨_, st', (hread hi).trans (congrArg _ (readSpecial_unreadable hlost d)), hstop⟩
  · obtain ⟨s1, hlatch, hexec⟩ := readSpecial_readable hs hlost d
    obtain ⟨st1, hu, hw, hrest⟩ := put_onlyStrand hlatch x d 1 (e.reading (paid i e s) m.toNat)
    have hheld : st1.latch = (e.latched (paid i e s) x m.toNat).latch := by rw [hrest]
    have hsame : st1 = { e.st with v := st1.v, s := st1.s, latch := st1.latch } := by
      rw [hrest, latched_rest]
    obtain ⟨st', hret⟩ := h.retires (u := (e.put x d 1 (e.reading (paid i e s) m.toNat) s1).charge e.core e.ctx 2 1) (st1 := st1)
      ((State.charge_cur ..).trans hu.cur) ((State.charge_strand ..).trans hu.strand) (by rw [hsame, h.path_eq]; rfl) (by rw [hsame])
    refine ⟨_, _, st1, st', (hread hi).trans (congrArg _ hexec), hu, hret, hw.of_latched, hsame, fun hreads => ?_, fun c hc hhigh => ?_⟩
    · rw [hheld, Env.latched, if_pos hreads]
      exact ⟨held_of_low e _, held_of_released e _⟩
    · rw [hheld, latched_of_other _ _ _ hc hhigh]
  · subst hi
    exact swr_effects h

end Sys2Proof.Machine
end

section
/-!
PROOFS. Long accumulators: what LZ and LADD leave in one, and what LMRG and LST exchange with scratchpad memory (05 R128, R129; 09 R216, R217).
-/

namespace Sys2Proof.Machine

/-! Accumulators of a strand -/

section
variable (st : Strand) (l : BitVec 1) (a : Acc)

theorem Strand.acc_setAcc_same : (st.setAcc l a).acc l = a := by
  unfold Strand.setAcc Strand.acc
  split_ifs <;> rfl

theorem Strand.acc_setAcc_other : (st.setAcc l a).acc (1 - l) = st.acc (1 - l) := by
  obtain rfl | rfl := bit_zero_or_one l <;> rfl

theorem Strand.setAcc_rest : st.setAcc l a =
    { st with l0 := (st.setAcc l a).l0, l1 := (st.setAcc l a).l1, fl0 := (st.setAcc l a).fl0, fl1 := (st.setAcc l a).fl1 } := by
  unfold Strand.setAcc
  split_ifs <;> rfl

theorem setAcc_sameRegs : SameRegs st (st.setAcc l a) := by
  rw [Strand.setAcc_rest]
  exact ⟨fun _ _ _ => rfl, fun _ => rfl, fun _ => rfl⟩

end

theorem Issues.setAcc_onlyRegs {i : Instr} {s : State} {e : Env} {r : Run} (h : Issues i s e r) (l : BitVec 1) (a : Acc) :
    OnlyRegs e.st (e.st.setAcc l a) e.pi e.p.nfr := by
  rw [h.path_eq, Strand.setAcc_rest]
  exact ⟨rfl, fun _ => rfl, rfl⟩

/-- An accumulator of a strand that an instruction sets, from a state that is the charged one but for its runs. -/
theorem computesFrom_of_setAcc {i : Instr} {s base : State} {e : Env} {r : Run} {l : BitVec 1} {f : Acc → Acc} (h : Issues i s e r)
    (hs : base.strand e.k = some e.st) (hcur : base.cur = (paid i e s).cur)
    (hx : exec i s = .next (e.next (base.onStrand e.k fun st => st.setAcc l (f (st.acc l))))) :
    ComputesFrom i s base e r e.p.nfr fun st st' => SameRegs st st' ∧ st'.acc l = f (st.acc l) ∧ st'.acc (1 - l) = st.acc (1 - l) :=
  computesFrom_of_next h hcur hx ((OnlyStrand.refl hs).onStrand _) (h.setAcc_onlyRegs l _)
    ⟨setAcc_sameRegs e.st l _, Strand.acc_setAcc_same .., Strand.acc_setAcc_other ..⟩

/-- LZ and LADD (09 R216, 05 R128). -/
theorem longAccumulatorsPart : LongAccumulatorsPart := by
  refine fun s e r => ⟨fun z l h => ?_, fun z a l q h => ?_⟩
  · refine computesFrom_of_setAcc (f := fun _ => (0, 0)) h (paid_strand_same _ e s) rfl ?_
    rw [show exec (.lz z l) s = execLz z l s from rfl, execLz, issue_body _ h]
  · obtain ⟨u, t, st1, st', hx, hu, ho, ⟨hregs, hacc, hother⟩, hret⟩ :=
      computesFrom_of_setAcc (l := l) (f := fun acc => e.ts.foldl (fun c t => c.term (e.fp32In 0 a false t) (q == 1)) acc) h (paid_strand_same _ e s) rfl (by
        rw [show exec (.ladd z a l q) s = execLadd z a l q s from rfl, execLadd, issue_body _ h]
        rfl)
    exact ⟨u, t, st1, st', hx, hu, ho, ⟨hregs, hother, hacc⟩, hret⟩

/-! Scratchpad memory -/

theorem scratch_error_lt {g : Gang} {a n : Nat} {f : Failed} (h : scratch g a n = .error f) : f.cause < 0xB0 := by
  unfold scratch at h
  split_ifs at h <;> cases h <;> decide

theorem any_uncorrectable_eq_false {s : State} {ks : List Nat} (h : ∀ k ∈ ks, k ∉ s.phys.bad) : ks.any s.uncorrectable = false := by
  simpa [State.uncorrectable] using h

section
variable {z : BitVec 1} {a : BitVec 7} {l : BitVec 1} {n : BitVec 4} {s : State} {e : Env} {r : Run}

theorem exec_lmrg_scratch (h : Issues (.lmrg z a l 0 n) s e r) : exec (.lmrg z a l 0 n) s = .next (
    let u := paid (.lmrg z a l 0 n) e s
    let addr := (e.st.sreg a.toNat).toNat
    match scratch e.g addr 64 with
    | .error f => e.raise u f.cause f.qual addr
    | .ok ks =>
      if ks.any u.uncorrectable then e.raise u 0xB2 0 addr
      else e.next ((u.charge e.core e.ctx 5 (occupancy ks)).onStrand e.k fun st =>
        st.setAcc l ((st.acc l).merge (BitVec.ofNat 512 (leNat (ks.map (readByte u.mem))))))) := by
  rw [show exec (.lmrg z a l 0 n) s = execLmrg z a l 0 n s from rfl, execLmrg, issue_body _ h]
  rfl

theorem exec_lst_scratch (h : Issues (.lst z a l 0 n) s e r) : exec (.lst z a l 0 n) s = .next (
    let u := paid (.lst z a l 0 n) e s
    let addr := (e.st.sreg a.toNat).toNat
    match scratch e.g addr 64 with
    | .error f => e.raise u f.cause f.qual addr
    | .ok ks => e.next ((u.setMem (writeBytes u.mem ks (leBytes 64 (e.st.acc l).spill.toNat))).charge e.core e.ctx 5 (occupancy ks))) := by
  rw [show exec (.lst z a l 0 n) s = execLst z a l 0 n s from rfl, execLst, issue_body _ h]
  rfl

theorem lmrg_merges {ks : List Nat} (h : Issues (.lmrg z a l 0 n) s e r) (hks : scratch e.g (e.st.sreg a.toNat).toNat 64 = .ok ks)
    (hgood : ∀ k ∈ ks, k ∉ s.phys.bad) :
    ComputesFrom (.lmrg z a l 0 n) s ((paid (.lmrg z a l 0 n) e s).charge e.core e.ctx 5 (occupancy ks)) e r e.p.nfr fun st st' => SameRegs st st' ∧
      st'.acc l = (st.acc l).merge (BitVec.ofNat 512 (leNat (ks.map (readByte s.mem)))) ∧ st'.acc (1 - l) = st.acc (1 - l) := by
  have hreadable : ks.any (paid (.lmrg z a l 0 n) e s).uncorrectable = false := any_uncorrectable_eq_false (by rwa [paid_phys])
  refine computesFrom_of_setAcc (f := fun acc => acc.merge (BitVec.ofNat 512 (leNat (ks.map (readByte s.mem))))) h
    ((State.charge_strand ..).trans (paid_strand_same _ e s)) (State.charge_cur ..) ?_
  rw [exec_lmrg_scratch h]
  dsimp only
  rw [hks]
  dsimp only
  rw [hreadable, paid_mem, if_neg Bool.false_ne_true]

theorem lst_spills {ks : List Nat} (h : Issues (.lst z a l 0 n) s e r) (hks : scratch e.g (e.st.sreg a.toNat).toNat 64 = .ok ks) :
    ∃ t st', exec (.lst z a l 0 n) s = .next t ∧ t.mem = writeBytes s.mem ks (leBytes 64 (e.st.acc l).spill.toNat) ∧
      Retires { ((paid (.lst z a l 0 n) e s).charge e.core e.ctx 5 (occupancy ks)) with
        mem := writeBytes s.mem ks (leBytes 64 (e.st.acc l).spill.toNat) } t e r none false e.st st' := by
  obtain ⟨st', hret⟩ := h.retires (u := ((paid (.lst z a l 0 n) e s).charge e.core e.ctx 5 (occupancy ks)).setMem
    (writeBytes s.mem ks (leBytes 64 (e.st.acc l).spill.toNat))) (State.charge_cur ..) ((State.charge_strand ..).trans (paid_strand_same _ e s))
    (congrArg Path.run h.path_eq.symm) rfl
  refine ⟨_, st', ?_, Env.next_mem .., hret⟩
  rw [exec_lst_scratch h]
  dsimp only
  rw [hks]
  dsimp only
  rw [State.charge_setMem, paid_mem]

/-- LMRG and LST in their scratchpad form (09 R217). -/
theorem longAccumulatorScratchPart : LongAccumulatorScratchPart := by
  refine fun z a l n s e r => ⟨fun h => ⟨fun ks hks hgood => ?_, fun f hf => ?_⟩, fun h => ⟨fun ks hks => ?_, fun f hf => ?_⟩⟩
  · obtain ⟨u, t, st1, st', hx, hu, ho, ⟨hregs, hacc, hother⟩, hret⟩ := lmrg_merges h hks hgood
    exact ⟨u, t, st1, st', hx, hu, ho, hregs, hacc, hother, hret⟩
  · refine stopsWhole_of_raise ((exec_lmrg_scratch h).trans ?_) (scratch_error_lt hf)
    dsimp only
    rw [hf]
  · obtain ⟨t, st', hx, hmem, hret⟩ := lst_spills h hks
    obtain ⟨k₀, rfl⟩ := scratch_ok hks
    refine ⟨t, _, st', hx, hret, fun j k hk => ?_, fun k hk => ?_⟩
    · have hj : j < 64 := by simpa using (List.getElem?_eq_some_iff.mp hk).1
      rw [hmem]
      exact readByte_writeBytes_at s.mem (keysFrom_nodup k₀ 64) (by rw [leBytes_length, keysFrom_length]) hk (getElem?_leBytes _ hj)
    · rw [hmem]
      exact readByte_writeBytes_other _ _ _ _ hk
  · refine stopsWhole_of_raise ((exec_lst_scratch h).trans ?_) (scratch_error_lt hf)
    dsimp only
    rw [hf]

end

/-- Settles O11: one accumulator of the strand is set, and merges or spills one range of bytes. -/
theorem longAccumulators : Obligations.LongAccumulators := ⟨longAccumulatorsPart, longAccumulatorScratchPart⟩

end Sys2Proof.Machine
end

section
/-!
PROOFS. Plane blocks: the block that PLN writes and the elements that UPLN gives the threads, with their checks (10 R261, R262; 05 R105, R119 to R124).
-/

namespace Sys2Proof.Machine

theorem scratchRange_error_lt {g : Gang} {a n al : Nat} {f : Failed} (h : scratchRange g a n al = .error f) : f.cause < 0xB0 := by
  unfold scratchRange at h
  split_ifs at h <;> cases h <;> decide

/-- A state that differs in one strand from one that differs in memory. -/
theorem OnlyStrand.eq_of_mem {s base u : State} {k : Nat} {st : Strand} {m : List Host.Cell} (h : OnlyStrand base u k st)
    (hbase : base = { s with mem := m }) :
    u = { s with mem := u.mem, strands := u.strands } := by
  subst hbase
  rw [h.package]

/-! PLN -/

section
variable {z : BitVec 1} {a : BitVec 7} {u : BitVec 6} {p : BitVec 4} {d : BitVec 1} {c : BitVec 2} {s : State} {e : Env} {r : Run}

theorem planes_eq (e : Env) (a : BitVec 7) (p : BitVec 4) (d : BitVec 1) (c : BitVec 2) : e.planes a p d c =
    let xs : List (Option FV) := (List.range 32).map fun t =>
      let w := e.get 0 a 1 t
      if !has e.act t then none
      else some (if c == 1 then fp16.value (bits w 0 16) else if c == 2 then bf16.value (bits w 0 16) else fp32.value w)
    if c == 3 then makeTs8 (d == 1) xs else makeBlock (if p == 0 then 16 else p.toNat) (0x10 + c.toNat) (d == 1) xs := by
  simp only [Env.planes, Env.packed, bits_from_zero, beq_iff_eq, Bool.not_eq_eq_eq_not, Bool.not_true]

/-- PLN's block in memory, and what the access costs. -/
def Env.planted (e : Env) (k : Nat) (bytes : List Byte) (s : State) : State :=
  (s.setMem (writeBytes s.mem (keysFrom k bytes.length) bytes)).charge e.core e.ctx 5 (occupancy (keysFrom k bytes.length))

theorem exec_pln (h : Issues (.pln z a u p d c) s e r) : exec (.pln z a u p d c) s = .next (
    let v := paid (.pln z a u p d c) e s
    let addr := (e.st.sreg u.toNat).toNat
    let block := e.planes a p d c
    match scratchRange e.g addr block.1.length 16 with
    | .error f => e.raise v f.cause f.qual addr
    | .ok k => e.flaggedOnce block.2 (e.planted k block.1) v) := by
  rw [show exec (.pln z a u p d c) s = execPln z a u p d c s from rfl, execPln, issue_body _ h, planes_eq]
  rfl

theorem planted_eq (e : Env) (k : Nat) (bytes : List Byte) (v : State) : e.planted k bytes v =
    { v.charge e.core e.ctx 5 (occupancy (keysFrom k bytes.length)) with mem := writeBytes v.mem (keysFrom k bytes.length) bytes } :=
  State.charge_setMem ..

theorem planted_strand (e : Env) (k : Nat) (bytes : List Byte) (v : State) (j : Nat) : (e.planted k bytes v).strand j = v.strand j := by
  rw [planted_eq]
  exact State.charge_strand ..

theorem getElem?_keysFrom {k n j : Nat} (h : j < n) : (keysFrom k n)[j]? = some (k + j) := by simp [keysFrom, h]

theorem pln_writes {k : Nat} (h : Issues (.pln z a u p d c) s e r)
    (hk : scratchRange e.g (e.st.sreg u.toNat).toNat (e.planes a p d c).1.length 16 = .ok k) (hnone : trapped e.p.nfr (e.planes a p d c).2 = 0) :
    Effects (.pln z a u p d c) s e r fun v st1 =>
      st1 = e.st.setPath e.pi { e.p with nfr := e.p.nfr ||| BitVec.ofNat 32 (e.planes a p d c).2 <<< 4 } ∧
      v = { (paid (.pln z a u p d c) e s).charge e.core e.ctx 5 (occupancy (keysFrom k (e.planes a p d c).1.length)) with
        mem := v.mem, strands := v.strands } ∧
      (∀ j b, (e.planes a p d c).1[j]? = some b → readByte v.mem (k + j) = b) ∧
      ∀ a', a' < k ∨ k + (e.planes a p d c).1.length ≤ a' → readByte v.mem a' = readByte s.mem a' := by
  have hexec := exec_pln h
  dsimp only at hexec
  rw [hk] at hexec
  dsimp only at hexec
  rw [Env.flaggedOnce, hnone] at hexec
  generalize (e.planes a p d c).1 = bytes at hexec ⊢
  generalize (e.planes a p d c).2 = flags at hexec ⊢
  generalize hbase : e.planted k bytes (paid (.pln z a u p d c) e s) = base at hexec
  have hstrand (j : Nat) : base.strand j = (paid (.pln z a u p d c) e s).strand j := hbase ▸ planted_strand ..
  have hbaseEq := (planted_eq e k bytes (paid (.pln z a u p d c) e s)).symm.trans hbase
  have hu := (OnlyStrand.refl ((hstrand e.k).trans (paid_strand_same _ e s))).sticky flags
  have hmem : (e.sticky flags base).mem = writeBytes s.mem (keysFrom k bytes.length) bytes := by
    rw [hu.package, ← hbaseEq, paid_mem]
  obtain ⟨st', hret⟩ := h.retires (hu.cur.trans (by rw [← hbaseEq]; exact State.charge_cur ..)) hu.strand
    (by rw [Strand.stuck, Strand.path_setPath, h.path_eq])
    (by rw [Strand.stuck, Strand.setPath_stepping])
  refine ⟨_, _, _, st', hexec, hret, fun j hj => ((hu.others j hj).trans (hstrand j)).trans (paid_strand_other _ e s hj), ?_, ?_,
    fun j b hb => ?_, fun a' ha' => ?_⟩
  · rw [h.path_eq]
    rfl
  · exact hu.eq_of_mem hbaseEq.symm
  · rw [hmem]
    exact readByte_writeBytes_at s.mem (keysFrom_nodup ..) (by rw [keysFrom_length]) (getElem?_keysFrom (List.getElem?_eq_some_iff.mp hb).1) hb
  · rw [hmem]
    exact readByte_writeBytes_other _ _ _ _ (by rw [mem_keysFrom]; omega)

end

/-! UPLN -/

section
variable {z : BitVec 1} {d : BitVec 7} {u : BitVec 6} {t : BitVec 2} {s : State} {e : Env} {r : Run}

/-- The bytes of a block by its form (05 R119, R123). -/
def Block.size (b : Block) : Nat := if b.sfmt = 0x15 then 48 else 16 + 4 * b.p

/-- Thread q's element of the block at a place of memory, and its flags. -/
def Env.unpacked (e : Env) (t : BitVec 2) (m : List Host.Cell) (k n q : Nat) : Nat × Nat :=
  let x := parseBlock (readAt m k n)
  blockElement e.p.nfr e.rm x (if t = 0 then x.sfmt else 0x0F + t.toNat) q

theorem exec_upln (h : Issues (.upln z d u t) s e r) : exec (.upln z d u t) s = .next (
    let v := paid (.upln z d u t) e s
    let addr := (e.st.sreg u.toNat).toNat
    match scratchRange e.g addr 16 16 with
    | .error f => e.raise v f.cause f.qual addr
    | .ok k =>
      let b := parseBlock (readAt s.mem k 16)
      if b.ok = false then e.raise v 0x27 0 addr
      else match scratchRange e.g addr b.size 16 with
        | .error f => e.raise v f.cause f.qual addr
        | .ok _ =>
          if (keysFrom k b.size).any v.uncorrectable then e.raise v 0xB2 0 addr
          else e.flagThreads e.ts d 1 (e.unpacked t s.mem k b.size) (v.charge e.core e.ctx 5 (occupancy (keysFrom k b.size)))) := by
  rw [show exec (.upln z d u t) s = execUpln z d u t s from rfl, execUpln, issue_body _ h]
  simp only [putFlagged_eq, Env.putResults, paid_mem, Block.isTs8, beq_iff_eq, Bool.not_eq_true']
  rfl

theorem upln_unpacks {k : Nat} (h : Issues (.upln z d u t) s e r) (hk : scratchRange e.g (e.st.sreg u.toNat).toNat 16 16 = .ok k)
    (hok : (parseBlock (readAt s.mem k 16)).ok = true) (hall : scratchRange e.g (e.st.sreg u.toNat).toNat (parseBlock (readAt s.mem k 16)).size 16 = .ok k)
    (hgood : ∀ a ∈ keysFrom k (parseBlock (readAt s.mem k 16)).size, a ∉ s.phys.bad) :
    exec (.upln z d u t) s = .next (e.flagThreads e.ts d 1 (e.unpacked t s.mem k (parseBlock (readAt s.mem k 16)).size)
      ((paid (.upln z d u t) e s).charge e.core e.ctx 5 (occupancy (keysFrom k (parseBlock (readAt s.mem k 16)).size)))) := by
  rw [exec_upln h]
  dsimp only
  rw [hk]
  dsimp only
  rw [hok, hall, if_neg Bool.noConfusion]
  dsimp only
  rw [any_uncorrectable_eq_false (by rwa [paid_phys]), if_neg Bool.false_ne_true]

/-- The checks of UPLN (10 R262). -/
theorem upln_stops {k : Nat} (h : Issues (.upln z d u t) s e r) (hk : scratchRange e.g (e.st.sreg u.toNat).toNat 16 16 = .ok k) :
    let addr := (e.st.sreg u.toNat).toNat
    let b := parseBlock (readAt s.mem k 16)
    (b.ok = false → StopsWhole (.upln z d u t) s e 0x27 0 addr) ∧
    (b.ok = true → ∀ f, scratchRange e.g addr b.size 16 = .error f → StopsWhole (.upln z d u t) s e f.cause f.qual addr) ∧
    (b.ok = true → scratchRange e.g addr b.size 16 = .ok k → (∃ a, k ≤ a ∧ a < k + b.size ∧ a ∈ s.phys.bad) →
      StopsWhole (.upln z d u t) s e 0xB2 0 addr) := by
  have hexec := exec_upln h
  dsimp only at hexec ⊢
  rw [hk] at hexec
  dsimp only at hexec
  refine ⟨fun hbad => ?_, fun hok f hf => ?_, fun hok hall ⟨a, hlow, hhigh, hbad⟩ => ?_⟩
  · rw [if_pos hbad] at hexec
    exact stopsWhole_of_raise hexec (by decide)
  · rw [hok, hf, if_neg Bool.noConfusion] at hexec
    exact stopsWhole_of_raise hexec (scratchRange_error_lt hf)
  · have hany : (keysFrom k (parseBlock (readAt s.mem k 16)).size).any (paid (.upln z d u t) e s).uncorrectable = true := by
      refine List.any_eq_true.mpr ⟨a, mem_keysFrom.mpr ⟨hlow, hhigh⟩, ?_⟩
      simpa [State.uncorrectable, paid_phys] using hbad
    rw [hok, hall, if_neg Bool.noConfusion] at hexec
    dsimp only at hexec
    rw [hany, if_pos rfl] at hexec
    obtain ⟨st', hstop⟩ := raise_stops (e := e) 0xB2 0 (e.st.sreg u.toNat).toNat 0 (paid_strand_same (.upln z d u t) e s) (by decide)
    exact ⟨_, st', hexec, hstop⟩

end

/-- Settles O24: PLN raises, or writes its block's bytes and its flags; UPLN raises, or gives each thread its element as any instruction with flags
does. -/
theorem planeBlocks : Obligations.PlaneBlocks := by
  unfold Obligations.PlaneBlocks
  refine fun s e r => ⟨fun z a u p d c h => ?_, fun z d u t h => ?_⟩
  · have hexec := exec_pln h
    dsimp only at hexec ⊢
    refine ⟨fun f hf => ?_, fun k hk htrap => ?_, fun k hk hnone => pln_writes h hk hnone⟩
    · rw [hf] at hexec
      exact stopsWhole_of_raise hexec (scratchRange_error_lt hf)
    · rw [hk] at hexec
      exact stopsWhole_of_flaggedOnce hexec htrap
  · refine ⟨fun f hf => ?_, fun k hk => ?_⟩
    · have hexec := exec_upln h
      dsimp only at hexec
      rw [hf] at hexec
      exact stopsWhole_of_raise hexec (scratchRange_error_lt hf)
    · obtain ⟨hill, hfail, hlost⟩ := upln_stops h hk
      refine ⟨hill, hfail, hlost, fun hok hall hgood => ?_⟩
      have hexec := upln_unpacks h hk hok hall fun a ha => (mem_keysFrom.mp ha).elim (hgood a)
      have hstrand := (State.charge_strand (paid (.upln z d u t) e s) e.core e.ctx 5
        (occupancy (keysFrom k (parseBlock (readAt s.mem k 16)).size)) e.k).trans (paid_strand_same _ e s)
      exact ⟨fun hnone => computesFrom_of_flagThreads h hstrand (State.charge_cur ..) hexec hnone,
        fun hbad => trapsAfter_of_flagThreads h hstrand (State.charge_cur ..) hexec hbad⟩

end Sys2Proof.Machine
end

section
/-!
PROOFS. JOIN: the side of a level that runs next, the level whose sides are both done, and the two paths of a split (12 R284, R295, R296; 05 R104).
-/

namespace Sys2Proof.Machine

theorem withFlags_eq (control flags : Word) : withFlags control flags = nfrOf control flags := rfl

/-! The strand once the instruction has issued -/

def Env.issued (e : Env) (r : Run) (jump : Option Word) (ends : Bool) : Strand :=
  (e.st.noteStep e.pi).setPath e.pi (e.pathAfter r jump ends e.p)

section
variable (e : Env) (r : Run) (jump : Option Word) (ends : Bool)

@[simp] theorem issued_path : (e.issued r jump ends).path e.pi = e.pathAfter r jump ends e.p := Strand.path_setPath ..

theorem issued_other (h : e.pi = 0 ∨ e.pi = 1) : (e.issued r jump ends).path (1 - e.pi) = e.st.path (1 - e.pi) := by
  rw [Env.issued, Strand.path_setPath_other _ _ (by omega), Strand.noteStep_eq]
  rfl

theorem issued_rest : e.issued r jump ends =
    { e.st with path0 := (e.issued r jump ends).path0, path1 := (e.issued r jump ends).path1, stepping := (e.issued r jump ends).stepping } := by
  rw [Env.issued, Strand.setPath_eq, Strand.noteStep_eq]

end

theorem Issues.finish_issued {i : Instr} {s : State} {e : Env} {r : Run} (h : Issues i s e r) (jump : Option Word) (ends : Bool) :
    Retires (paid i e s) (e.finish jump ends (paid i e s)) e r jump ends e.st (e.issued r jump ends) := by
  obtain ⟨-, -, -, hrun, -, -⟩ := envOf_eq h.1
  have hret := finish_retires jump ends (paid_cur h) (paid_strand_same i e s) (h.path_eq ▸ hrun) rfl
  rwa [← h.path_eq] at hret

/-! States that a control-flow instruction leaves -/

theorem Retires.isLocal {u t : State} {e : Env} {r : Run} {jump : Option Word} {ends : Bool} {st1 st' : Strand} (h : Retires u t e r jump ends st1 st') :
    Local u t e := ⟨h.strands, h.cores, fun c hc => h.counts c (.inl hc), h.package⟩

section
variable {s t u : State} {e : Env} {st : Strand}

theorem Local.of_onlyStrand (h : Local s t e) (hu : OnlyStrand t u e.k st) : Local s u e := by
  have hcore (c : Nat) : u.core c = t.core c := by rw [hu.package]; rfl
  refine ⟨fun k hk => (hu.others k hk).trans (h.strands k hk), fun c => ?_, fun c hc => ?_, ?_⟩
  · rw [hcore, h.cores c]
  · rw [hcore, h.counts c hc]
  · have hpkg := hu.package
    rw [h.package] at hpkg
    rw [hpkg]

theorem Local.setCur (h : Local s t e) (c : Option (Nat × Nat)) : Local s { t with cur := c } e :=
  ⟨h.strands, h.cores, h.counts, by conv_lhs => rw [h.package]⟩

end

/-- The strand differs in its paths alone. -/
theorem Diverged.setPath {st st' : Strand} (h : Diverged st st') (pi : Nat) (p : Path) : Diverged st (st'.setPath pi p) := by
  rw [Diverged] at h ⊢
  rw [Strand.setPath_eq, h]

theorem issued_diverged (e : Env) (r : Run) (jump : Option Word) (ends : Bool) : Diverged e.st (e.issued r jump ends) := by
  rw [Diverged, issued_rest]

/-! Levels -/

section
variable {z : BitVec 1} {s : State} {e : Env} {r : Run}

/-- What an instruction leaves that changes its path alone once it has issued. -/
theorem issued_onPath (h : Issues (.join z) s e r) (jump : Option Word) (ends : Bool) (f : Path → Path) : ∃ v st',
    v = (e.finish jump ends (paid (.join z) e s)).onPath e.k e.pi f ∧ v.strand e.k = some st' ∧ Local (paid (.join z) e s) v e ∧ Diverged e.st st' ∧
      st'.path e.pi = f (e.pathAfter r jump ends e.p) := by
  have hret := h.finish_issued jump ends
  have hu := onlyStrand_onPath (pi := e.pi) hret.strand f
  refine ⟨_, _, rfl, hu.strand, hret.isLocal.of_onlyStrand hu, (issued_diverged ..).setPath .., ?_⟩
  rw [Strand.path_setPath, issued_path]

theorem join_switches {en : StackEntry} {es : List StackEntry} (h : Issues (.join z) s e r) (hstack : e.p.stack = en :: es) (hside : en.side = false)
    (hpending : en.pmask ≠ 0) : ∃ v st', exec (.join z) s = .next (v.trace e.k e.pi 1 en.ppc en.pmask e.pc) ∧
      (v.strand e.k = some st' ∧ Local (paid (.join z) e s) v e ∧ Diverged e.st st') ∧
      st'.path e.pi = { e.pathAfter r (some en.ppc) true e.p with
        act := en.pmask, nfr := nfrOf en.nfrs e.p.nfr, stack := { en with fmask := e.p.act, side := true, ppc := e.pc } :: es } := by
  obtain ⟨v, st', hv, hs, hlocal, hdiv, hpath⟩ := issued_onPath h (some en.ppc) true fun p => { p with
    act := en.pmask, nfr := withFlags en.nfrs p.nfr, stack := { en with fmask := e.p.act, side := true, ppc := e.pc } :: es }
  refine ⟨v, st', ?_, ⟨hs, hlocal, hdiv⟩, hpath⟩
  rw [show exec (.join z) s = execJoin z s from rfl, execJoin, issue_body _ h, hstack, hv]
  dsimp only
  have hcond : (!en.side && decide (en.pmask ≠ 0)) = true := by rw [hside, decide_eq_true hpending]; rfl
  rw [if_pos hcond]

theorem join_ends_level {en : StackEntry} {es : List StackEntry} (h : Issues (.join z) s e r) (hstack : e.p.stack = en :: es)
    (hdone : en.side = true ∨ en.pmask = 0) : ∃ v st', exec (.join z) s = .next v ∧
      (v.strand e.k = some st' ∧ Local (paid (.join z) e s) v e ∧ Diverged e.st st') ∧
      st'.path e.pi = { e.pathAfter r (some (e.pc + 4)) false e.p with act := en.fmask ||| e.p.act, nfr := nfrOf en.nfrs e.p.nfr, stack := es } := by
  obtain ⟨v, st', hv, hs, hlocal, hdiv, hpath⟩ := issued_onPath h (some (e.pc + 4)) false fun p => { p with
    act := en.fmask ||| e.p.act, nfr := withFlags en.nfrs p.nfr, stack := es }
  refine ⟨v, st', ?_, ⟨hs, hlocal, hdiv⟩, hpath⟩
  rw [show exec (.join z) s = execJoin z s from rfl, execJoin, issue_body _ h, hstack, hv]
  dsimp only
  rw [if_neg (by rcases hdone with hside | hnone <;> simp [*])]

theorem join_of_nothing (h : Issues (.join z) s e r) (hstack : e.p.stack = []) (hdiv : e.st.divided = false) : ∃ t st', exec (.join z) s = .next t ∧
    Stops (paid (.join z) e s) t e { cause := 0x0F, emask := e.p.act, pc := e.chain } e.after false e.st st' := by
  obtain ⟨st', hstop⟩ := faultPath_stops { cause := 0x0F, emask := e.p.act, pc := e.chain } e.after (paid_strand_same (.join z) e s)
  rw [hdiv, Bool.false_and, Bool.false_and] at hstop
  refine ⟨_, st', ?_, hstop⟩
  rw [show exec (.join z) s = execJoin z s from rfl, execJoin, issue_body _ h, hstack]
  dsimp only
  rw [hdiv, if_neg Bool.false_ne_true]
  rfl

end

/-! The two paths of a split -/

/-- The strand once a path of it has arrived at the JOIN of a split. -/
def Strand.arrive (st : Strand) (pi : Nat) : Strand := st.setPath pi { st.path pi with arrived := true }

/-- The strand whose path 0 has this run. -/
def Strand.running (st : Strand) (run : Option Run) : Strand := { st with path0 := { st.path0 with run } }

/-- What is in flight of a strand belongs to its one path (11 R275). -/
def State.reowned (s : State) (k : Nat) : State :=
  { s with ops := s.ops.map fun (x : Nat × Op) => if x.2.strand = k then (x.1, { x.2 with path := 2 }) else x }

theorem rejoined_of_undivided {s : State} {k : Nat} {st : Strand} (hs : s.strand k = some st) (hdiv : st.divided = false) :
    s.rejoined k true = (s.reowned k).trace k 0 3 st.path0.pc st.path0.act 0 := by
  simp only [State.rejoined, State.reowned, hs, hdiv, Bool.not_false, Bool.and_true, if_true, beq_iff_eq]

theorem rejoined_of_divided {s : State} {k : Nat} {st : Strand} (hs : s.strand k = some st) (hdiv : st.divided = true) : s.rejoined k true = s := by
  simp [State.rejoined, hs, hdiv]

theorem trace_setCur (s : State) (c : Option (Nat × Nat)) (k pi kind : Nat) (pc mask aux : Word) :
    ({ s with cur := c } : State).trace k pi kind pc mask aux = { s.trace k pi kind pc mask aux with cur := c } := by
  have hon (core ctx : Nat) : traceOn ({ s with cur := c } : State) core ctx kind = traceOn s core ctx kind := rfl
  have hdie (d : Nat) : ({ s with cur := c } : State).die d = s.die d := rfl
  have hgang (g : Nat) : ({ s with cur := c } : State).gang g = s.gang g := rfl
  have hstrand : ({ s with cur := c } : State).strand k = s.strand k := rfl
  unfold State.trace
  rw [hstrand]
  cases s.strand k with
  | none => rfl
  | some st =>
    simp only [hon, hdie, hgang]
    split_ifs <;> rfl

theorem uncur_of_cur {s : State} {k pi : Nat} (h : s.cur = none ∨ s.cur = some (k, pi)) : s.uncur k pi = { s with cur := none } := by
  unfold State.uncur
  split_ifs with hcur
  · rfl
  · rw [← h.resolve_right hcur]

/-! The paths of a strand by the one that issues -/

section
variable {st : Strand} {pi : Nat}

theorem paths_eq (h : pi = 0 ∨ pi = 1) : (pi = 0 ∧ st.path0 = st.path pi ∧ st.path1 = st.path (1 - pi)) ∨
    (pi = 1 ∧ st.path0 = st.path (1 - pi) ∧ st.path1 = st.path pi) := by
  rcases h with rfl | rfl
  · exact .inl ⟨rfl, rfl, rfl⟩
  · exact .inr ⟨rfl, rfl, rfl⟩

theorem rejoins_iff (h : pi = 0 ∨ pi = 1) (harrived : (st.path pi).arrived = true) (hdiv : st.divided = true) :
    rejoins st = ((st.path (1 - pi)).arrived || (st.path (1 - pi)).ended) := by
  rcases paths_eq (st := st) h with ⟨-, h0, h1⟩ | ⟨-, h0, h1⟩ <;> simp [rejoins, h0, h1, harrived, hdiv]

theorem undivided_act (h : pi = 0 ∨ pi = 1) : st.undivided.path0.act = (st.path pi).act ||| (st.path (1 - pi)).act := by
  rcases paths_eq (st := st) h with ⟨-, h0, h1⟩ | ⟨-, h0, h1⟩
  · rw [← h0, ← h1]
    rfl
  · rw [← h0, ← h1, BitVec.or_comm]
    rfl

theorem withFlags_or (control a b : Word) : withFlags control (nfrFlags a ||| nfrFlags b) = nfrOf control ((a ||| b) &&& 0x1F0) := by
  rw [withFlags_eq, nfrFlags, nfrFlags, ← BitVec.and_or_distrib_right]

theorem undivided_nfr (h : pi = 0 ∨ pi = 1) : st.undivided.path0.nfr = nfrOf st.nfrs (((st.path pi).nfr ||| (st.path (1 - pi)).nfr) &&& 0x1F0) := by
  refine (withFlags_or st.nfrs st.path0.nfr st.path1.nfr).trans ?_
  rcases paths_eq (st := st) h with ⟨-, h0, h1⟩ | ⟨-, h0, h1⟩
  · rw [h0, h1]
  · rw [h0, h1, BitVec.or_comm]

theorem undivided_stops (h : pi = 0 ∨ pi = 1) : st.undivided.setPath pi { st.undivided.path pi with run := none } = st.undivided.running none := by
  rcases h with rfl | rfl <;> rfl

theorem leadPath_of_path0 (h : st.path0.act ≠ 0) :
    leadPath st = if st.path1.act = 0 ∨ lowest st.path0.act < lowest st.path1.act then 0 else 1 := by
  unfold leadPath
  split_ifs <;> tauto

theorem leadPath_of_path1 (h : st.path1.act ≠ 0) :
    leadPath st = if st.path0.act = 0 ∨ ¬ lowest st.path0.act < lowest st.path1.act then 1 else 0 := by
  unfold leadPath
  split_ifs <;> tauto

/-- The strand goes on after the JOIN of the path that has the lowest live thread (12 R295). -/
theorem undivided_pc (h : pi = 0 ∨ pi = 1) (hact : (st.path pi).act ≠ 0) :
    ((st.path (1 - pi)).act = 0 ∨ lowest (st.path pi).act < lowest (st.path (1 - pi)).act → st.undivided.path0.pc = (st.path pi).pc + 4) ∧
    ((st.path (1 - pi)).act ≠ 0 → lowest (st.path (1 - pi)).act < lowest (st.path pi).act → st.undivided.path0.pc = (st.path (1 - pi)).pc + 4) := by
  have hlead : st.undivided.path0.pc = (st.path (leadPath st)).pc + 4 := rfl
  rw [hlead]
  rcases h with rfl | rfl
  · rw [leadPath_of_path0 (st := st) hact]
    refine ⟨fun hlow => ?_, fun hother hlow => ?_⟩
    · exact congrArg (fun i => (st.path i).pc + 4) (if_pos hlow)
    · exact congrArg (fun i => (st.path i).pc + 4) (if_neg (not_or.mpr ⟨hother, Nat.lt_asymm hlow⟩))
  · rw [leadPath_of_path1 (st := st) hact]
    refine ⟨fun hlow => ?_, fun hother hlow => ?_⟩
    · exact congrArg (fun i => (st.path i).pc + 4) (if_pos (hlow.imp id Nat.lt_asymm))
    · exact congrArg (fun i => (st.path i).pc + 4) (if_neg (not_or.mpr ⟨hother, not_not.mpr hlow⟩))

end

/-! A path of a split that issues JOIN -/

section
variable {z : BitVec 1} {s : State} {e : Env} {r : Run}

/-- The strand once the path that issues has arrived. -/
def Env.arrived (e : Env) (r : Run) : Strand := (e.issued r (some e.pc) false).arrive e.pi

/-- The run that the path keeps. -/
def Env.runLeft (e : Env) (r : Run) : Option Run := if e.runEnds r false then none else some { r with words := r.words + e.len }

/-- The undivided strand that the JOIN of the second path leaves, before its run is known. -/
def Env.merged (e : Env) (r : Run) : Strand := (e.arrived r).undivided

/-- The run goes on in the undivided strand: its next word is the path's own (12 R284). -/
def Env.goesOn (e : Env) (r : Run) : Bool := (e.merged r).path0.pc == e.pc + 4 && (e.runLeft r).isSome

theorem runLeft_isSome (e : Env) (r : Run) : (e.runLeft r).isSome = !e.runEnds r false := by
  unfold Env.runLeft
  cases e.runEnds r false <;> rfl

theorem goesOn_of_next {e : Env} {r : Run} (h : (e.merged r).path0.pc = e.pc + 4) : e.goesOn r = !e.runEnds r false := by
  rw [Env.goesOn, beq_iff_eq.mpr h, runLeft_isSome, Bool.true_and]

theorem goesOn_of_jump {e : Env} {r : Run} (h : (e.merged r).path0.pc ≠ e.pc + 4) : e.goesOn r = false := by
  rw [Env.goesOn, beq_eq_false_iff_ne.mpr h, Bool.false_and]

theorem arrived_path (e : Env) (r : Run) : (e.arrived r).path e.pi = { e.pathAfter r (some e.pc) false e.p with arrived := true } := by
  rw [Env.arrived, Strand.arrive, Strand.path_setPath, issued_path]

theorem arrived_other (r : Run) (h : e.pi = 0 ∨ e.pi = 1) : (e.arrived r).path (1 - e.pi) = e.st.path (1 - e.pi) := by
  rw [Env.arrived, Strand.arrive, Strand.path_setPath_other _ _ (by omega), issued_other _ _ _ _ h]

theorem arrived_rest (e : Env) (r : Run) : e.arrived r =
    { e.st with path0 := (e.arrived r).path0, path1 := (e.arrived r).path1, stepping := (e.arrived r).stepping } := by
  rw [Env.arrived, Strand.arrive, Strand.setPath_eq, issued_rest]

/-- The state once a path has arrived: the strand, with the run that it keeps where it goes on. -/
def Env.arriveIn (e : Env) (r : Run) (st2 : Strand) (goes : Bool) (s : State) : State :=
  (s.setStrand e.k st2).onPath e.k (if goes then 0 else e.pi) fun p => { p with run := if goes then e.runLeft r else none }

theorem arriveIn_onlyStrand (e : Env) (r : Run) (st2 : Strand) (goes : Bool) (s : State) : OnlyStrand s (e.arriveIn r st2 goes s) e.k
    (st2.setPath (if goes then 0 else e.pi) { st2.path (if goes then 0 else e.pi) with run := if goes then e.runLeft r else none }) :=
  (onlyStrand_setStrand s e.k st2).onStrand _

theorem exec_join_split (h : Issues (.join z) s e r) (hstack : e.p.stack = []) (hdiv : e.st.divided = true) : exec (.join z) s = .next (
    let st2 := (e.arrived r).tryRejoin
    let goes := !st2.divided && st2.path0.pc == e.pc + 4 && (e.runLeft r).isSome
    let s3 := (e.arriveIn r st2 goes (e.finish (some e.pc) false (paid (.join z) e s))).rejoined e.k true
    if goes then { s3 with cur := some (e.k, 0) }
    else if st2.divided || st2.path0.pc == e.pc + 4 then s3.uncur e.k e.pi
    else (s3.uncur e.k e.pi).trace e.k 0 1 st2.path0.pc st2.path0.act e.pc) := by
  have hs1 := (h.finish_issued (some e.pc) false).strand
  have hrun : ((e.issued r (some e.pc) false).path e.pi).run = e.runLeft r := by
    rw [issued_path]
    rfl
  rw [show exec (.join z) s = execJoin z s from rfl, execJoin, issue_body _ h, hstack]
  dsimp only
  rw [if_pos hdiv, onStrand_of_some hs1, State.strand_setStrand_same, hs1]
  dsimp only [Env.arriveIn]
  rw [← hrun] <;> rfl

theorem merged_runs (hpi : e.pi = 0 ∨ e.pi = 1) : (e.merged r).setPath (if e.goesOn r then 0 else e.pi)
    { (e.merged r).path (if e.goesOn r then 0 else e.pi) with run := if e.goesOn r then e.runLeft r else none } =
      (e.merged r).running (if e.goesOn r then e.runLeft r else none) := by
  cases e.goesOn r
  · exact undivided_stops hpi
  · rfl

theorem arrived_rejoins (hpi : e.pi = 0 ∨ e.pi = 1) (hdiv : e.st.divided = true)
    (hback : (e.st.path (1 - e.pi)).arrived = true ∨ (e.st.path (1 - e.pi)).ended = true) : (e.arrived r).tryRejoin = e.merged r := by
  refine if_pos ?_
  rw [rejoins_iff hpi (by rw [arrived_path]) (by rw [arrived_rest]; exact hdiv), arrived_other r hpi]
  simpa using hback

theorem arrived_waits (hpi : e.pi = 0 ∨ e.pi = 1) (hdiv : e.st.divided = true)
    (harrived : (e.st.path (1 - e.pi)).arrived = false) (hended : (e.st.path (1 - e.pi)).ended = false) : (e.arrived r).tryRejoin = e.arrived r := by
  refine if_neg ?_
  rw [rejoins_iff hpi (by rw [arrived_path]) (by rw [arrived_rest]; exact hdiv), arrived_other r hpi, harrived, hended]
  exact Bool.false_ne_true

section
variable (h : Issues (.join z) s e r) (hpi : e.pi = 0 ∨ e.pi = 1) (hdiv : e.st.divided = true)
include h

theorem finish_cur (jump : Option Word) : (e.finish jump false (paid (.join z) e s)).cur = none ∨
    (e.finish jump false (paid (.join z) e s)).cur = some (e.k, e.pi) := by
  rw [(h.finish_issued jump false).lane]
  split_ifs
  · exact .inl rfl
  · exact .inr rfl

include hpi hdiv

/-- The first path of a split to arrive waits (12 R295). -/
theorem join_waits (hstack : e.p.stack = []) (harrived : (e.st.path (1 - e.pi)).arrived = false) (hended : (e.st.path (1 - e.pi)).ended = false) :
    ∃ v st', exec (.join z) s = .next v ∧ (v.strand e.k = some st' ∧ Local (paid (.join z) e s) v e ∧ Diverged e.st st') ∧ v.cur = none ∧
      st'.divided = true ∧ st'.path (1 - e.pi) = e.st.path (1 - e.pi) ∧
      st'.path e.pi = { e.pathAfter r (some e.pc) true e.p with arrived := true } := by
  have hdiv2 : (e.arrived r).divided = true := by rw [arrived_rest]; exact hdiv
  have hexec := exec_join_split h hstack hdiv
  rw [arrived_waits hpi hdiv harrived hended] at hexec
  simp only [hdiv2, Bool.not_true, Bool.false_and, Bool.true_or, if_true, Bool.false_eq_true, if_false] at hexec
  have hu := arriveIn_onlyStrand e r (e.arrived r) false (e.finish (some e.pc) false (paid (.join z) e s))
  rw [if_neg Bool.false_ne_true, if_neg Bool.false_ne_true] at hu
  have hdiv3 : ((e.arrived r).setPath e.pi { (e.arrived r).path e.pi with run := none }).divided = true := by rw [Strand.setPath_eq]; exact hdiv2
  rw [rejoined_of_divided hu.strand hdiv3, uncur_of_cur (hu.cur ▸ finish_cur h _)] at hexec
  refine ⟨_, _, hexec, ⟨hu.strand, ((h.finish_issued (some e.pc) false).isLocal.of_onlyStrand hu).setCur none, ?_⟩, rfl, hdiv3, ?_, ?_⟩
  · refine Diverged.setPath ?_ ..
    rw [Diverged, arrived_rest]
  · rw [Strand.path_setPath_other _ _ (by omega), arrived_other r hpi]
  · rw [Strand.path_setPath, arrived_path]
    rfl

/-- The second path of a split joins both into one strand, whose run goes on where the next word is the path's own (12 R284, R295). -/
theorem join_rejoins (hstack : e.p.stack = []) (hback : (e.st.path (1 - e.pi)).arrived = true ∨ (e.st.path (1 - e.pi)).ended = true) :
    ∃ x, OnlyStrand (e.finish (some e.pc) false (paid (.join z) e s)) x e.k ((e.merged r).running (if e.goesOn r then e.runLeft r else none)) ∧
      exec (.join z) s = .next (
        let p := (e.merged r).path0
        let w := (({ x with cur := if e.goesOn r then some (e.k, 0) else none } : State).reowned e.k).trace e.k 0 3 p.pc p.act 0
        if p.pc = e.pc + 4 then w else w.trace e.k 0 1 p.pc p.act e.pc) := by
  have hexec := exec_join_split h hstack hdiv
  have hone : (e.merged r).divided = false := rfl
  have hrun : ((e.merged r).path0.pc == e.pc + 4 && (e.runLeft r).isSome) = e.goesOn r := rfl
  have hu := arriveIn_onlyStrand e r (e.merged r) (e.goesOn r) (e.finish (some e.pc) false (paid (.join z) e s))
  rw [merged_runs hpi] at hu
  rw [arrived_rejoins hpi hdiv hback] at hexec
  simp only [hone, Bool.not_false, Bool.true_and, Bool.false_or, hrun] at hexec
  generalize e.arriveIn r (e.merged r) (e.goesOn r) (e.finish (some e.pc) false (paid (.join z) e s)) = x at hexec hu
  have htrace : x.rejoined e.k true = (x.reowned e.k).trace e.k 0 3 (e.merged r).path0.pc (e.merged r).path0.act 0 :=
    rejoined_of_undivided (st := (e.merged r).running (if e.goesOn r then e.runLeft r else none)) hu.strand rfl
  have hcur : (x.rejoined e.k true).cur = none ∨ (x.rejoined e.k true).cur = some (e.k, e.pi) := by
    rw [htrace, State.trace_eq]
    exact hu.cur ▸ finish_cur h _
  have hsplit (c : Option (Nat × Nat)) :
      (({ x with cur := c } : State).reowned e.k).trace e.k 0 3 (e.merged r).path0.pc (e.merged r).path0.act 0 =
        { (x.reowned e.k).trace e.k 0 3 (e.merged r).path0.pc (e.merged r).path0.act 0 with cur := c } := trace_setCur (x.reowned e.k) c ..
  rw [uncur_of_cur hcur, htrace, ← hsplit none, ← hsplit (some (e.k, 0))] at hexec
  refine ⟨x, hu, hexec.trans ?_⟩
  by_cases hgoes : e.goesOn r = true
  · have hpc : (e.merged r).path0.pc = e.pc + 4 := beq_iff_eq.mp (Bool.and_eq_true_iff.mp hgoes).1
    simp only [hgoes, hpc, if_true]
  · simp only [hgoes, beq_iff_eq]
    rfl

end

end

/-! The undivided strand -/

section
variable {e : Env} (r : Run) (hpi : e.pi = 0 ∨ e.pi = 1)

theorem merged_diverged (e : Env) (run : Option Run) :
    Diverged { e.st with deferred := e.st.deferred.map fun d => { d with path := 2 } } ((e.merged r).running run) := by
  rw [Diverged, Env.merged, arrived_rest]
  rfl

theorem merged_stack (e : Env) : (e.merged r).path0.stack = e.st.frozen := by
  rw [Env.merged, arrived_rest]
  rfl

include hpi

theorem merged_act : (e.merged r).path0.act = e.p.act ||| (e.st.path (1 - e.pi)).act := by
  rw [Env.merged, undivided_act hpi, arrived_path, arrived_other r hpi]
  rfl

theorem merged_nfr : (e.merged r).path0.nfr = nfrOf e.st.nfrs ((e.p.nfr ||| (e.st.path (1 - e.pi)).nfr) &&& 0x1F0) := by
  rw [Env.merged, undivided_nfr hpi, arrived_path, arrived_other r hpi, arrived_rest]
  rfl

/-- The strand goes on after the JOIN of the path that has the lowest live thread. -/
theorem merged_pc (hact : e.p.act ≠ 0) :
    let q := e.st.path (1 - e.pi)
    (q.act = 0 ∨ lowest e.p.act < lowest q.act → (e.merged r).path0.pc = e.pc + 4) ∧
    (q.act ≠ 0 → lowest q.act < lowest e.p.act → (e.merged r).path0.pc = q.pc + 4) := by
  have hpc := undivided_pc (st := e.arrived r) hpi (by rw [arrived_path]; exact hact)
  rwa [arrived_path, arrived_other r hpi] at hpc

end

/-- The second arrival, in the words of the statement. -/
theorem join_joins {z : BitVec 1} {s : State} {e : Env} {r : Run} (h : Issues (.join z) s e r) (hpi : e.pi = 0 ∨ e.pi = 1)
    (hdiv : e.st.divided = true) (hstack : e.p.stack = [])
    (hback : (e.st.path (1 - e.pi)).arrived = true ∨ (e.st.path (1 - e.pi)).ended = true) : ∃ u st', u.strand e.k = some st' ∧
      Local (paid (.join z) e s) u e ∧ st' = (e.merged r).running (if e.goesOn r then e.runLeft r else none) ∧
      let w := (u.reowned e.k).trace e.k 0 3 st'.path0.pc st'.path0.act 0
      (st'.path0.pc = e.pc + 4 → exec (.join z) s = .next w ∧ u.cur = (if e.runEnds r false then none else some (e.k, 0)) ∧
        st'.path0.run = if e.runEnds r false then none else some { r with words := r.words + e.len }) ∧
      (st'.path0.pc ≠ e.pc + 4 → exec (.join z) s = .next (w.trace e.k 0 1 st'.path0.pc st'.path0.act e.pc) ∧ u.cur = none ∧
        st'.path0.run = none) := by
  obtain ⟨x, hu, hexec⟩ := join_rejoins h hpi hdiv hstack hback
  refine ⟨{ x with cur := if e.goesOn r then some (e.k, 0) else none }, _, hu.strand,
    ((h.finish_issued (some e.pc) false).isLocal.of_onlyStrand hu).setCur _, rfl, fun hpc => ?_, fun hpc => ?_⟩
  · refine ⟨hexec.trans (congrArg _ (if_pos hpc)), ?_⟩
    dsimp only [Strand.running]
    rw [goesOn_of_next hpc, Env.runLeft]
    cases e.runEnds r false <;> exact ⟨rfl, rfl⟩
  · refine ⟨hexec.trans (congrArg _ (if_neg hpc)), ?_⟩
    dsimp only [Strand.running]
    rw [goesOn_of_jump hpc]
    exact ⟨rfl, rfl⟩

/-- Settles O21: a JOIN of a level changes its path alone, the first arrival of a split waits, and the second leaves the undivided strand. (The name
`rejoins` is the model's.) -/
theorem rejoins_holds : Obligations.Rejoins := by
  unfold Obligations.Rejoins
  intro z s e r i after h hpi
  refine ⟨fun en es => join_switches h, fun en es => join_ends_level h, join_of_nothing h, fun hstack hdiv => ?_⟩
  have hpi : e.pi = 0 ∨ e.pi = 1 := hpi.imp_right And.left
  refine ⟨join_waits h hpi hdiv hstack, fun hback hact => ?_⟩
  obtain ⟨u, _, hs, hlocal, rfl, hnext, hjump⟩ := join_joins h hpi hdiv hstack hback
  obtain ⟨hmine, htheirs⟩ := merged_pc r hpi hact
  exact ⟨u, _, _, hs, hlocal, merged_diverged r e _, rfl, rfl, hnext, hjump, rfl, merged_act r hpi, merged_stack r e, rfl,
    merged_nfr r hpi, rfl, hmine, htheirs⟩

end Sys2Proof.Machine
end

section
/-!
PROOFS. Decode and encode: a word is its fixed bits and its fields, each of which reads back as it was put in; and the bits that decoding looks at,
fixed bits and fields together, are all the bits of a word (06 R132, R143).
-/

namespace Sys2Proof.Encoding

/-! A word as fixed bits and fields that share no bit -/

/-- A field of a word: its width, its lowest bit and its value. -/
structure Slot where
  width : Nat
  place : Nat
  value : BitVec width

/-- The word of these fixed bits and fields, as a number. -/
def word (c : Nat) : List Slot → Nat
  | [] => c
  | s :: ss => word c ss + s.value.toNat * 2 ^ s.place

/-- No field reaches into the bits from k up to k * m. -/
def clear (k m : Nat) : List Slot → Bool
  | [] => true
  | ⟨n, lo, _⟩ :: ss => (2 ^ lo % (k * m) == 0 || k % (2 ^ lo * 2 ^ n) == 0) && clear k m ss

/-- No two fields share a bit, and the fixed bits are clear in each. -/
def apart (c : Nat) : List Slot → Bool
  | [] => true
  | ⟨n, lo, _⟩ :: ss => apart c ss && clear (2 ^ lo) (2 ^ n) ss && c / 2 ^ lo % 2 ^ n == 0

/-- Some field has this width and place. -/
def hasSlot (n lo : Nat) : List Slot → Bool
  | [] => false
  | ⟨n', lo', _⟩ :: ss => (lo' == lo && n' == n) || hasSlot n lo ss

/-- The value of the field of this width and place. -/
def valueAt (n lo : Nat) : List Slot → BitVec n
  | [] => 0
  | ⟨n', lo', v⟩ :: ss => if lo' == lo && n' == n then v.setWidth n else valueAt n lo ss

theorem clear_cons {k m : Nat} {s : Slot} {ss : List Slot} (h : clear k m (s :: ss) = true) :
    (k * m ∣ 2 ^ s.place ∨ 2 ^ s.place * 2 ^ s.width ∣ k) ∧ clear k m ss = true := by
  simpa only [clear, Bool.and_eq_true, Bool.or_eq_true, beq_iff_eq, Nat.dvd_iff_mod_eq_zero] using h

theorem apart_cons {c : Nat} {s : Slot} {ss : List Slot} (h : apart c (s :: ss) = true) :
    apart c ss = true ∧ clear (2 ^ s.place) (2 ^ s.width) ss = true ∧ c / 2 ^ s.place % 2 ^ s.width = 0 := by
  simpa only [apart, Bool.and_eq_true, beq_iff_eq, and_assoc] using h

/-- A multiple of k * m leaves the bits below k * m as they are. -/
theorem window_add_above {k m p : Nat} (y v : Nat) (hk : 0 < k) (h : k * m ∣ p) : (y + v * p) / k % m = y / k % m := by
  obtain ⟨q, rfl⟩ := h
  rw [show y + v * (k * m * q) = y + k * (m * (v * q)) by ring, Nat.add_mul_div_left _ _ hk, Nat.add_mul_mod_self_left]

/-- A field that was clear leaves the bits above it as they are, whatever value it takes. -/
theorem div_add_below {k p n y v : Nat} (hp : 0 < p) (hv : v < n) (hy : y / p % n = 0) (h : p * n ∣ k) : (y + v * p) / k = y / k := by
  obtain ⟨q, rfl⟩ := h
  have hdiv : (y + v * p) / p / n = y / p / n := by
    rw [Nat.add_mul_div_right _ _ hp]
    have hy := Nat.div_add_mod (y / p) n |>.symm.trans (by rw [hy, Nat.add_zero])
    rw [hy, Nat.mul_add_div (by omega), Nat.div_eq_of_lt hv, Nat.mul_div_cancel_left _ (by omega), Nat.add_zero]
  simp only [Nat.mul_assoc, ← Nat.div_div_eq_div_mul, hdiv]

/-- Bits that no field reaches are the fixed bits. -/
theorem window_word {c k m : Nat} {ss : List Slot} (hk : 0 < k) (ha : apart c ss = true) (hc : clear k m ss = true) :
    word c ss / k % m = c / k % m := by
  induction ss generalizing k m with
  | nil => rfl
  | cons s ss ih =>
    obtain ⟨ha, hs, hz⟩ := apart_cons ha
    obtain ⟨hside, hc⟩ := clear_cons hc
    rw [word, ← ih hk ha hc]
    rcases hside with habove | hbelow
    · exact window_add_above _ _ hk habove
    · rw [div_add_below (Nat.two_pow_pos _) s.value.isLt ((ih (Nat.two_pow_pos _) ha hs).trans hz) hbelow]

theorem field_slot {n lo y : Nat} (v : BitVec n) (h : y / 2 ^ lo % 2 ^ n = 0) : field n lo (y + v.toNat * 2 ^ lo) = v := by
  apply BitVec.eq_of_toNat_eq
  rw [field, BitVec.toNat_ofNat, Nat.add_mul_div_right _ _ (Nat.two_pow_pos _), Nat.add_mod, h, Nat.zero_add, Nat.mod_mod,
    Nat.mod_eq_of_lt v.isLt]

theorem field_of_window {n lo x y : Nat} (h : x / 2 ^ lo % 2 ^ n = y / 2 ^ lo % 2 ^ n) : field n lo x = field n lo y :=
  BitVec.eq_of_toNat_eq (by simpa only [field, BitVec.toNat_ofNat] using h)

theorem clear_of_hasSlot {k m n lo : Nat} {ss : List Slot} (hc : clear k m ss = true) (hs : hasSlot n lo ss = true) :
    k * m ∣ 2 ^ lo ∨ 2 ^ lo * 2 ^ n ∣ k := by
  induction ss with
  | nil => exact absurd hs Bool.false_ne_true
  | cons s ss ih =>
    obtain ⟨hside, hc⟩ := clear_cons hc
    simp only [hasSlot, Bool.or_eq_true, Bool.and_eq_true, beq_iff_eq] at hs
    rcases hs with ⟨rfl, rfl⟩ | hs
    exacts [hside, ih hc hs]

/-- Every field reads back as its value. -/
theorem field_word {n lo c : Nat} {ss : List Slot} (ha : apart c ss = true) (hs : hasSlot n lo ss = true) :
    field n lo (word c ss) = valueAt n lo ss := by
  induction ss with
  | nil => exact absurd hs Bool.false_ne_true
  | cons s ss ih =>
    obtain ⟨ha, hclear, hz⟩ := apart_cons ha
    have hzero := (window_word (Nat.two_pow_pos _) ha hclear).trans hz
    rw [valueAt]
    split_ifs with hplace
    · simp only [Bool.and_eq_true, beq_iff_eq] at hplace
      obtain ⟨rfl, rfl⟩ := hplace
      rw [word, field_slot _ hzero, BitVec.setWidth_eq]
    · have hs : hasSlot n lo ss = true := by simpa only [hasSlot, hplace, Bool.false_or] using hs
      rw [← ih ha hs, word]
      refine field_of_window ?_
      rcases clear_of_hasSlot hclear hs with hbelow | habove
      · rw [div_add_below (Nat.two_pow_pos _) s.value.isLt hzero hbelow]
      · exact window_add_above _ _ (Nat.two_pow_pos _) habove

theorem word_lt {c : Nat} {ss : List Slot} (ha : apart c ss = true) (hc : ss.all (fun s => decide (s.place + s.width ≤ 32)) = true)
    (h : c < 2 ^ 32) : word c ss < 2 ^ 32 := by
  induction ss with
  | nil => exact h
  | cons s ss ih =>
    obtain ⟨ha, hclear, hz⟩ := apart_cons ha
    simp only [List.all_cons, Bool.and_eq_true, decide_eq_true_eq] at hc
    obtain ⟨hs, hc⟩ := hc
    have hzero := (window_word (Nat.two_pow_pos _) ha hclear).trans hz
    have hdvd : 2 ^ s.place * 2 ^ s.width ∣ 2 ^ 32 := by rw [← pow_add]; exact pow_dvd_pow 2 hs
    rw [word, ← Nat.div_eq_zero_iff_lt (Nat.two_pow_pos _), div_add_below (Nat.two_pow_pos _) s.value.isLt hzero hdvd,
      Nat.div_eq_zero_iff_lt (Nat.two_pow_pos _)]
    exact ih ha hc

/-! The word that the encoder packs -/

theorem le_word (c : Nat) (ss : List Slot) : c ≤ word c ss := by
  induction ss with
  | nil => exact le_refl c
  | cons s ss ih => exact ih.trans (Nat.le_add_right ..)

/-- The packing of the fields fs onto a word that holds the fields ss. -/
def packFrom (c : Nat) (ss : List Slot) (fs : List (Nat × Nat)) : Option (BitVec 32) := pack (word c ss) fs

theorem packFrom_cons (c : Nat) (ss : List Slot) {n : Nat} (v : BitVec n) (lo : Nat) (fs : List (Nat × Nat)) :
    packFrom c ss ((v.toNat, lo) :: fs) = packFrom c (⟨n, lo, v⟩ :: ss) fs := rfl

theorem packFrom_nil (c : Nat) (ss : List Slot) : packFrom c ss [] = some (BitVec.ofNat 32 (word c ss)) := rfl

/-- The instruction has a word and it decodes to it. -/
def HasWord (i : Instr) : Prop := ∃ w, encode i = some w ∧ decode 3 w = .ok i

theorem HasWord.of_pack {i : Instr} {c : Nat} {fs : List (Nat × Nat)} (he : encode i = pack c fs)
    (h : ∃ w, packFrom c [] fs = some w ∧ decode 3 w = .ok i) : HasWord i := by rwa [HasWord, he]

/-- Fixed bits and fields that fill a word of 32 bits. -/
def fits (c : Nat) (ss : List Slot) : Bool := apart c ss && decide (c < 2 ^ 32) && ss.all fun s => decide (s.place + s.width ≤ 32)

/-- The number w is the word of these fixed bits and fields, which share no bit. -/
structure Reads (w c : Nat) (ss : List Slot) : Prop where
  apart : apart c ss = true
  word : w = word c ss

theorem Reads.bits {w c lo m : Nat} {ss : List Slot} (hw : Reads w c ss) (hc : clear (2 ^ lo) m ss = true) : w / 2 ^ lo % m = c / 2 ^ lo % m :=
  hw.word ▸ window_word (Nat.two_pow_pos _) hw.apart hc

theorem Reads.field {w c n lo : Nat} {ss : List Slot} (hw : Reads w c ss) (hs : hasSlot n lo ss = true) : field n lo w = valueAt n lo ss :=
  hw.word ▸ field_word hw.apart hs

theorem Reads.ne_zero {w c : Nat} {ss : List Slot} (hw : Reads w c ss) (h : (c != 0) = true) : w ≠ 0 :=
  fun h0 => bne_iff_ne.mp h (Nat.eq_zero_of_le_zero (h0 ▸ hw.word ▸ le_word c ss))

theorem exists_word {c : Nat} {ss : List Slot} {i : Instr} (hfit : fits c ss = true)
    (hd : ∀ w, Reads w c ss → decodeV3 w = .ok i) : ∃ w, some (BitVec.ofNat 32 (word c ss)) = some w ∧ decode 3 w = .ok i := by
  simp only [fits, Bool.and_eq_true, decide_eq_true_eq] at hfit
  obtain ⟨⟨ha, hc⟩, hs⟩ := hfit
  refine ⟨_, rfl, ?_⟩
  rw [decode, if_pos rfl, BitVec.toNat_ofNat, Nat.mod_eq_of_lt (word_lt ha hs hc)]
  exact hd _ ⟨ha, rfl⟩

theorem checked_of_wf {i : Instr} (h : i.wf = true) : checked true i = .ok i := by
  rw [checked, if_pos rfl, decodable, if_pos h]

/-! Function codes that hold an operand in some of their bits -/

/-- The two codes of a packed half-precision form: bit 24 is its variant. -/
theorem mod_eight_or {x a : Nat} (ha : a.blt 4 = true) : x % 8 = a ∨ x % 8 = a + 4 ↔ x % 4 = a := by
  have ha : a < 4 := Nat.le_of_ble_eq_true ha
  omega

theorem mod_lt_sixteen (w : Nat) : w / 2 ^ 20 % 32 < 16 ↔ w / 2 ^ 24 % 2 = 0 := by omega

theorem sixteen_le_mod (w : Nat) : 16 ≤ w / 2 ^ 20 % 32 ↔ w / 2 ^ 24 % 2 = 1 := by omega

theorem mod_lt_three (w : Nat) : w / 2 ^ 20 % 32 < 3 ↔ w / 2 ^ 22 % 8 = 0 ∧ (field 2 20 w).toNat < 3 := by
  rw [field, BitVec.toNat_ofNat]
  omega

/-- A code below 3 is the size operand of a copy between tiles or a gather. -/
theorem Reads.lt_three {w c : Nat} {ss : List Slot} (hw : Reads w c ss)
    (h : (clear (2 ^ 22) 8 ss && decide (c / 2 ^ 22 % 8 = 0) && hasSlot 2 20 ss && decide ((valueAt 2 20 ss).toNat < 3)) = true) :
    w / 2 ^ 20 % 32 < 3 := by
  simp only [Bool.and_eq_true, decide_eq_true_eq] at h
  obtain ⟨⟨⟨hclear, hc⟩, hslot⟩, hv⟩ := h
  exact (mod_lt_three w).mpr ⟨(hw.bits hclear).trans hc, hw.field hslot ▸ hv⟩

theorem ne_three_cases {s : BitVec 2} : s ≠ 3 → s = 0 ∨ s = 1 ∨ s = 2 := by decide +revert

/-! The word of a well-formed instruction decodes to it; the instructions in three parts, so that each is checked in little time -/

/-- IADD has no fixed bit: its word is not zero because one of its fields is not. -/
theorem hasWord_iadd {z x : BitVec 1} {d a b : BitVec 7} (h : (Instr.iadd z d a b x).wf = true) : HasWord (.iadd z d a b x) := by
  refine HasWord.of_pack rfl ?_
  simp only [packFrom_cons, packFrom_nil]
  refine exists_word rfl fun w hw => ?_
  have hne : w ≠ 0 := by
    rintro rfl
    obtain rfl : 0 = z := hw.field (n := 1) (lo := 31) rfl
    obtain rfl : 0 = d := hw.field (n := 7) (lo := 15) rfl
    obtain rfl : 0 = a := hw.field (n := 7) (lo := 8) rfl
    obtain rfl : 0 = b := hw.field (n := 7) (lo := 1) rfl
    obtain rfl : 0 = x := hw.field (n := 1) (lo := 0) rfl
    exact Bool.false_ne_true h
  rw [decodeV3, if_neg hne, hw.bits rfl]
  simp (disch := with_unfolding_all exact id rfl) only [↓hw.bits, ↓hw.field, ↓reduceIte, Nat.reducePow, Nat.zero_div, Nat.zero_mod, decodeMajor00]
  exact checked_of_wf h

/-- Majors 0x00 to 0x1C. -/
theorem hasWord_of_arithmetic (i : Instr) (hi : i.ctorIdx.blt 81 = true) (h : i.wf = true) : HasWord i := by
  cases i
  all_goals try exact absurd hi Bool.false_ne_true
  case iadd => exact hasWord_iadd h
  case' sfe u => obtain rfl : u = 0 := eq_of_beq (Bool.and_eq_true_iff.mp h).2
  all_goals
    refine HasWord.of_pack rfl ?_
    simp only [packFrom_cons, packFrom_nil]
    refine exists_word rfl fun w hw => ?_
    rw [decodeV3, if_neg (hw.ne_zero rfl), hw.bits rfl]
    simp (disch := with_unfolding_all exact id rfl) only [↓hw.bits, ↓hw.field, ↓mod_eight_or, Nat.zero_mod, ↓reduceIte, Nat.reducePow, Nat.reduceDiv,
      Nat.reduceMod, Nat.reduceEqDiff, one_ne_zero, BEq.rfl, Bool.and_self,
      decodeMajor00, decodeMajor01, decodeMajor02, decodeMajor03, decodeMajor04, decodeMajor05, decodeMajor06, decodeMajor08, decodeMajor09,
      decodeMajor0A, decodeMajor10, decodeMajor11, decodeMajor12, decodeMajor13, decodeMajor14, decodeMajor15, decodeMajor16, decodeMajor18,
      decodeMajor19, decodeMajor1C]
    exact checked_of_wf h

/-- Majors 0x20 to 0x2D. -/
theorem hasWord_of_memory (i : Instr) (hi : (Nat.ble 81 i.ctorIdx && i.ctorIdx.blt 130) = true) (h : i.wf = true) : HasWord i := by
  cases i
  all_goals try exact absurd hi Bool.false_ne_true
  case' cpySFromS s _ _ _ => obtain rfl | rfl | rfl := ne_three_cases (bne_iff_ne.mp h)
  case' gathE s _ _ _ _ => obtain rfl | rfl | rfl := ne_three_cases (bne_iff_ne.mp (Bool.and_eq_true_iff.mp (Bool.and_eq_true_iff.mp h).1).1)
  case' ldG u | ldGExt u | ldS u | ldSExt u | stG u | stS u | cpySFromG u | cpyGFromS u =>
    obtain rfl : u = 0 := eq_of_beq (Bool.and_eq_true_iff.mp h).2
  all_goals
    refine HasWord.of_pack rfl ?_
    simp only [packFrom_cons, packFrom_nil]
    refine exists_word rfl fun w hw => ?_
    rw [decodeV3, if_neg (hw.ne_zero rfl), hw.bits rfl]
    simp (disch := with_unfolding_all exact id rfl) only [↓hw.bits, ↓hw.field, ↓mod_lt_sixteen, ↓sixteen_le_mod, ↓hw.lt_three, Nat.reduceLT,
      ↓reduceIte, Nat.reducePow, Nat.reduceDiv, Nat.reduceMod, Nat.reduceEqDiff, one_ne_zero, BEq.rfl, Bool.and_self,
      decodeMajor20, decodeMajor21, decodeMajor22, decodeMajor23, decodeMajor24, decodeMajor25, decodeMajor26, decodeMajor27, decodeMajor28,
      decodeMajor29, decodeMajor2A, decodeMajor2B, decodeMajor2C, decodeMajor2D]
    exact checked_of_wf h

/-- Majors 0x2E to 0x3F; the steps that follow them have no word. -/
theorem hasWord_of_control (i : Instr) (hi : Nat.ble 130 i.ctorIdx = true) (h : i.wf = true) : HasWord i := by
  cases i
  all_goals try exact absurd hi Bool.false_ne_true
  all_goals try exact absurd h Bool.false_ne_true
  all_goals
    refine HasWord.of_pack rfl ?_
    simp only [packFrom_cons, packFrom_nil]
    refine exists_word rfl fun w hw => ?_
    rw [decodeV3, if_neg (hw.ne_zero rfl), hw.bits rfl]
    simp (disch := with_unfolding_all exact id rfl) only [↓hw.bits, ↓hw.field, zero_ne_one, Nat.zero_mod, ↓reduceIte, Nat.reducePow, Nat.reduceDiv,
      Nat.reduceMod, Nat.reduceEqDiff, one_ne_zero, BEq.rfl, Bool.and_self,
      decodeMajor2E, decodeMajor2F, decodeMajor32, decodeMajor33, decodeMajor38, decodeMajor39, decodeMajor3C, decodeMajor3D, decodeMajor3F]
    exact checked_of_wf h

theorem hasWord {i : Instr} (h : i.wf = true) : HasWord i := by
  by_cases hlow : i.ctorIdx.blt 81 = true
  · exact hasWord_of_arithmetic i hlow h
  by_cases hmid : i.ctorIdx.blt 130 = true
  · exact hasWord_of_memory i (Bool.and_eq_true_iff.mpr ⟨by simpa [Nat.blt] using hlow, hmid⟩) h
  · exact hasWord_of_control i (by simpa [Nat.blt] using hmid) h

/-! A word that decodes is the word of its instruction -/

theorem checked_ok {u : Bool} {i j : Instr} (h : checked u i = .ok j) : u = true ∧ j.wf = true ∧ i = j := by
  unfold checked decodable at h
  split_ifs at h with hu hw
  · obtain rfl := Except.ok.inj h
    exact ⟨hu, hw, rfl⟩

/-- A result of the decoder that agrees with the encoder: the word of the instruction it answers is w. -/
def Sound (w : Nat) (r : Except Reject Instr) : Prop := ∀ i, r = .ok i → i.wf = true ∧ encode i = some (BitVec.ofNat 32 w)

theorem Sound.error (w : Nat) (e : Reject) : Sound w (.error e) := fun _ h => nomatch h

theorem Sound.ite {w : Nat} {c : Prop} {_ : Decidable c} {a b : Except Reject Instr} (ha : c → Sound w a) (hb : Sound w b) :
    Sound w (if c then a else b) := by
  split_ifs with h
  exacts [ha h, hb]

theorem Sound.of_checked {w : Nat} {u : Bool} {i : Instr} (h : u = true → encode i = some (BitVec.ofNat 32 w)) : Sound w (checked u i) := by
  intro j hj
  obtain ⟨hu, hwf, rfl⟩ := checked_ok hj
  exact ⟨hwf, h hu⟩

/-- A hint word is refused where its boundary flag is set. -/
theorem Sound.of_hint {w : Nat} {p : Prop} {_ : Decidable p} {u : Bool} {i : Instr} {b : Except Reject Instr} (hb : ∀ j, b ≠ .ok j)
    (h : ¬p → u = true → encode i = some (BitVec.ofNat 32 w)) : Sound w (if p then b else checked u i) := by
  split_ifs with hp
  · exact fun i hi => absurd hi (hb i)
  · exact Sound.of_checked (h hp)

/-- The number that the bits of a word below k make. -/
def rest (w k : Nat) : ℤ := (w % k : Nat)

theorem rest_one (w : Nat) : rest w 1 = 0 := by rw [rest, Nat.mod_one, Nat.cast_zero]

theorem rest_mul (w k m : Nat) : rest w (k * m) = rest w k + k * (w / k % m : Nat) := by
  rw [rest, rest, Nat.mod_mul]
  push_cast
  rfl

/-- A test of a window of bits, as an equation between the numbers below its two ends: linear, however many windows there are. -/
theorem window_iff {w k m c : Nat} (hk : 0 < k) : w / k % m = c ↔ rest w (k * m) = rest w k + k * c := by
  rw [rest_mul, add_right_inj, mul_right_inj' (by exact_mod_cast hk.ne'), Nat.cast_inj]

/-- What the fields of a word add to it. -/
def total : List (Nat × Nat) → ℤ
  | [] => 0
  | (v, lo) :: fs => (v : ℤ) * 2 ^ lo + total fs

theorem total_nil : total [] = 0 := rfl

theorem total_field (w n lo : Nat) (fs : List (Nat × Nat)) :
    total (((field n lo w).toNat, lo) :: fs) = rest w (2 ^ lo * 2 ^ n) - rest w (2 ^ lo) + total fs := by
  rw [rest_mul, total, field, BitVec.toNat_ofNat]
  push_cast
  ring

theorem pack_eq (c : Nat) (fs : List (Nat × Nat)) (w : Nat) (h : (c : ℤ) + total fs = w) : pack c fs = some (BitVec.ofNat 32 w) := by
  induction fs generalizing c with
  | nil =>
    obtain rfl : c = w := by simpa [total] using h
    rfl
  | cons f fs ih =>
    obtain ⟨v, lo⟩ := f
    refine ih _ ?_
    rw [← h, total]
    push_cast
    ring

/-- Majors 0x00 to 0x26: the word is the sum of what its major, function code and unused bits say and of its fields. -/
theorem sound_of_major_lt {w : Nat} (hw : rest w 4294967296 = w) (hlt : (w / 2 ^ 25 % 64).blt 39 = true) : Sound w (decodeV3 w) := by
  unfold decodeV3
  refine Sound.ite (fun _ => Sound.error _ _) ?_
  split
  all_goals rename_i hm
  all_goals try rw [hm] at hlt
  all_goals try exact absurd hlt Bool.false_ne_true
  all_goals
    clear hlt
    simp only [mod_eight_or (a := 0) rfl, mod_eight_or (a := 1) rfl, mod_eight_or (a := 2) rfl, mod_eight_or (a := 3) rfl,
      ↓mod_lt_sixteen, ↓sixteen_le_mod, Nat.reducePow,
      decodeMajor00, decodeMajor01, decodeMajor02, decodeMajor03, decodeMajor04, decodeMajor05, decodeMajor06, decodeMajor08, decodeMajor09,
      decodeMajor0A, decodeMajor10, decodeMajor11, decodeMajor12, decodeMajor13, decodeMajor14, decodeMajor15, decodeMajor16, decodeMajor18,
      decodeMajor19, decodeMajor1C, decodeMajor20, decodeMajor21, decodeMajor22, decodeMajor23, decodeMajor24, decodeMajor25, decodeMajor26] at hm ⊢
    repeat' with_reducible first
      | exact Sound.error _ _
      | refine Sound.of_checked fun hu => ?_
      | refine Sound.ite (fun hf => ?_) ?_
  all_goals
    refine pack_eq _ _ _ ?_
    simp only [total_nil, total_field, window_iff, rest_one, beq_iff_eq, Bool.and_eq_true, Nat.reducePow, Nat.reduceMul,
      Nat.ofNat_pos, Nat.one_pos] at *
    omega

/-- Majors 0x27 to 0x3F. -/
theorem sound_of_major_ge {w : Nat} (hw : rest w 4294967296 = w) (hlt : Nat.ble 39 (w / 2 ^ 25 % 64) = true) : Sound w (decodeV3 w) := by
  unfold decodeV3
  refine Sound.ite (fun _ => Sound.error _ _) ?_
  split
  all_goals rename_i hm
  all_goals try rw [hm] at hlt
  all_goals try exact absurd hlt Bool.false_ne_true
  all_goals
    clear hlt
    simp only [↓mod_lt_three, Nat.reducePow,
      decodeMajor27, decodeMajor28, decodeMajor29, decodeMajor2A, decodeMajor2B, decodeMajor2C, decodeMajor2D, decodeMajor2E, decodeMajor2F,
      decodeMajor32, decodeMajor33, decodeMajor38, decodeMajor39, decodeMajor3C, decodeMajor3D, decodeMajor3F] at hm ⊢
    repeat' with_reducible first
      | exact Sound.error _ _
      | refine Sound.of_checked fun hu => ?_
      | refine Sound.of_hint (by rcases checked _ _ with e | j <;> simp) fun hb hu => ?_
      | refine Sound.ite (fun hf => ?_) ?_
  all_goals
    refine pack_eq _ _ _ ?_
    simp only [total_nil, total_field, window_iff, rest_one, beq_iff_eq, Bool.and_eq_true, ↓Nat.mod_two_not_eq_one, Nat.reducePow, Nat.reduceMul,
      Nat.ofNat_pos, Nat.one_pos] at *
    omega

theorem sound_decodeV3 {w : Nat} (hw : rest w 4294967296 = w) : Sound w (decodeV3 w) := by
  by_cases hlt : (w / 2 ^ 25 % 64).blt 39 = true
  · exact sound_of_major_lt hw hlt
  · exact sound_of_major_ge hw (by simpa [Nat.blt] using hlt)

end Sys2Proof.Encoding

namespace Sys2Proof.Machine

/-- Settles O55: a well-formed instruction by the fields of its word, a word by the sum of its windows. -/
theorem decodeEncode : Obligations.DecodeEncode := by
  unfold Obligations.DecodeEncode
  refine ⟨fun i h => Encoding.hasWord h, fun w i h => ?_⟩
  have hw : Encoding.rest w.toNat 4294967296 = w.toNat := by rw [Encoding.rest, Nat.mod_eq_of_lt w.isLt]
  rw [decode, if_pos rfl] at h
  simpa only [BitVec.ofNat_toNat, BitVec.setWidth_eq] using Encoding.sound_decodeV3 hw i h

end Sys2Proof.Machine
end

section
/-!
PROOFS. Words written out from the encodings (06 R132, R143, R146, R148).
-/

namespace Sys2Proof.Machine

/-- Settles O56: the decoder evaluates each word. -/
theorem decodeWords : Obligations.DecodeWords := by
  unfold Obligations.DecodeWords
  decide

end Sys2Proof.Machine
end

section
/-!
PROOFS. A step runs what it comes to: an event, or the word at the PC of the path whose lane issues (06 R146, R147; 12 R284; 15 R380; 16 R396).
-/

namespace Sys2Proof.Machine

/-! The word that is fetched -/

theorem mapM_length {α β ε : Type} (f : α → Except ε β) {l : List α} {bs : List β} (h : l.mapM f = .ok bs) : bs.length = l.length := by
  induction l generalizing bs with
  | nil =>
    cases h
    rfl
  | cons a l ih =>
    rw [List.mapM_cons] at h
    cases ha : f a with
    | error y => rw [ha] at h; cases h
    | ok b =>
      cases hl : l.mapM f with
      | error y => rw [ha, hl] at h; cases h
      | ok cs =>
        rw [ha, hl] at h
        cases h
        rw [List.length_cons, List.length_cons, ih hl]

theorem translateRec_length {walk : Walk} {s : State} {d ctx : Nat} {r : ObjRec} {slot? : Option Slot} {addr n : Nat} {kind : Kind} {host : Bool}
    {l : Located} (h : translateRec walk s d ctx r slot? addr n kind host = .ok l) : l.bytes.length = n := by
  unfold translateRec at h
  dsimp only at h
  repeat (split at h; · cases h)
  next hbytes =>
    cases h
    rw [mapM_length _ hbytes, List.length_map, List.length_range]

/-- A translation locates as many bytes as the access has (01 R26). -/
theorem translate_length {s : State} {d ctx addr n : Nat} {kind : Kind} {l : Located} (h : translate s d ctx addr n kind = .ok l) :
    l.bytes.length = n := by
  unfold translate at h
  cases hdepth : recordDepth s ctx with
  | zero => rw [hdepth] at h; cases h
  | succ fuel =>
    rw [hdepth, translateAt] at h
    split at h
    · cases h
    split at h
    · cases h
    · exact translateRec_length h

theorem bytesWord_eq {bs : List Byte} (h : bs.length = 4) : bytesWord bs = BitVec.ofNat 32 (leNat bs) := by
  match bs, h with
  | [a, b, c, d], _ =>
    simp only [bytesWord, leNat]
    congr 1
    omega

section
variable {s : State} {core : Nat} {g : Gang} {pc : Word}

theorem fetchWord_ofAccess {f : Failed} (h : fetchWord s core g pc = .error f) : f.ofAccess := by
  unfold fetchWord at h
  split at h
  · next ht =>
    cases h
    exact translate_ofAccess ht
  · next l _ =>
    cases hn : l.number s (coreDie core) with
    | error x =>
      rw [hn] at h
      cases h
      exact number_ofAccess hn
    | ok v => rw [hn] at h; cases h

theorem fetchWord_of_error {f : Failed} (h : translate s (coreDie core) g.task.ctx (codeAddr g pc) 4 .read = .error f) :
    fetchWord s core g pc = .error f := by
  rw [fetchWord, h]

theorem fetchWord_of_read {l : Located} (h : translate s (coreDie core) g.task.ctx (codeAddr g pc) 4 .read = .ok l)
    (hread : s.readCause (coreDie core) (memKeys l.bytes) = 0) : fetchWord s core g pc = .ok (bytesWord (l.bytes.map (Src.read s.mem))) := by
  have hlen : (l.bytes.map (Src.read s.mem)).length = 4 := by rw [List.length_map, translate_length h]
  rw [fetchWord, h, bytesWord_eq hlen]
  dsimp only [Located.number]
  rw [if_pos hread]
  rfl

theorem fetchWord_of_readCause {l : Located} (h : translate s (coreDie core) g.task.ctx (codeAddr g pc) 4 .read = .ok l)
    (hread : s.readCause (coreDie core) (memKeys l.bytes) ≠ 0) :
    fetchWord s core g pc = .error ⟨9, s.readCause (coreDie core) (memKeys l.bytes), 0⟩ := by
  rw [fetchWord, h]
  dsimp only [Located.number]
  rw [if_neg hread]
  rfl

end

/-! What a step comes to -/

section
variable {s t : State}

theorem step_of_event {i : Instr} {rest : List Sched} (h : s.schedule = .event i :: rest) : step s = tick (exec i { s with schedule := rest }) := by
  rw [step, h]

theorem step_of_issue {k pi : Nat} {rest : List Sched} (h : s.schedule = .issue k pi :: rest) :
    step s = tick (runWord { s with schedule := rest, cur := some (k, pi) }) := by
  rw [step, h]

theorem step_of_cur {x : Nat × Nat} (h : s.schedule = []) (hcur : s.cur = some x) : step s = tick (runWord s) := by
  rw [step, h]
  dsimp only
  rw [hcur]

theorem tick_next (t : State) : tick (.next t) = .next (passed t) := rfl

theorem runWord_of_word {i : Instr} (h : nextWord s = .word i) : runWord s = exec i s := by rw [runWord, h]

theorem runWord_of_fault (h : nextWord s = .fault t) : runWord s = .next t := by rw [runWord, h]

theorem runWord_of_idle (h : nextWord s = .idle) : runWord s = .next { s with cur := none } := by rw [runWord, h]

end

section
variable {s : State} {e : Env} {r : Run} (he : envOf (.nop 0) s = some (e, r))
include he

theorem nextWord_of_gated (hgated : s.gatedNow e.core = true) : nextWord s = .idle := by
  simp only [nextWord, he, hgated, if_true]

variable (hgated : s.gatedNow e.core = false)
include hgated

theorem nextWord_of_unfetched {f : Failed} (hfetch : fetchWord s e.core e.g e.pc = .error f) (hgate : e.gate r s = none) :
    nextWord s = .fault ((s.charge e.core e.ctx 2 e.p.chainLen).faultPath e.k e.pi
      { cause := f.cause, qual := f.qual, emask := e.p.act, whole := true, pc := e.pc, addr := codeAddr e.g e.pc } e.after) := by
  simp only [nextWord, he, hgated, Bool.false_eq_true, if_false, hfetch, hgate, Option.getD_none]

variable {w : BitVec 32} (hfetch : fetchWord s e.core e.g e.pc = .ok w)
include hfetch

theorem nextWord_of_rejected {x : Reject} (hdecode : decode e.g.hdr.version w = .error x) (hgate : e.gate r s = none) :
    nextWord s = .fault (e.raise (s.charge e.core e.ctx 2 e.len) x.cause) := by
  simp only [nextWord, he, hgated, Bool.false_eq_true, if_false, hfetch, hdecode, hgate, Option.getD_none]

theorem nextWord_of_decoded {i : Instr} (hdecode : decode e.g.hdr.version w = .ok i) : nextWord s = .word i := by
  simp only [nextWord, he, hgated, Bool.false_eq_true, if_false, hfetch, hdecode]

end

/-! A word that does not issue stops the strand -/

theorem unfetched_stops {u : State} {e : Env} {st : Strand} {f : PathFault} (hs : u.strand e.k = some st) (hcause : f.cause < 0xB0 ∨ f.cause = 0xB2) :
    ∃ st', Stops u (u.faultPath e.k e.pi f e.after) e f e.after false st st' := by
  have hstop := faultPath_stops (e := e) f e.after hs
  have h0 : (f.cause == 0xB0) = false := beq_eq_false_iff_ne.mpr (by omega)
  have h1 : (f.cause == 0xB1) = false := beq_eq_false_iff_ne.mpr (by omega)
  rwa [h0, h1, Bool.or_self, Bool.and_false, Bool.false_and] at hstop

theorem reject_cause_lt (x : Reject) : x.cause < 0xB0 := by cases x <;> decide

section
variable {s : State} {e : Env} {r : Run} {st : Strand} (hsched : s.schedule = []) (he : envOf (.nop 0) s = some (e, r)) (hs : s.strand e.k = some st)
  (hgated : s.gatedNow e.core = false)
include hsched he

theorem step_of_lane : step s = tick (runWord s) := by
  obtain ⟨hcur, -⟩ := envOf_eq he
  exact step_of_cur hsched hcur

theorem step_of_gated (hgated : s.gatedNow e.core = true) : step s = .next (passed { s with cur := none }) := by
  rw [step_of_lane hsched he, runWord_of_idle (nextWord_of_gated he hgated), tick_next]

include hgated

theorem step_of_decoded {w : BitVec 32} {i : Instr} {t : State} (hfetch : fetchWord s e.core e.g e.pc = .ok w)
    (hdecode : decode e.g.hdr.version w = .ok i) (hexec : exec i s = .next t) : step s = .next (passed t) := by
  rw [step_of_lane hsched he, runWord_of_word (nextWord_of_decoded he hgated hfetch hdecode), hexec, tick_next]

include hs

theorem step_of_unfetched {f : Failed} (hfetch : fetchWord s e.core e.g e.pc = .error f) (hgate : e.gate r s = none) :
    ∃ t st', step s = .next (passed t) ∧ Stops (s.charge e.core e.ctx 2 e.p.chainLen) t e
      { cause := f.cause, qual := f.qual, emask := e.p.act, whole := true, pc := e.pc, addr := codeAddr e.g e.pc } e.after false st st' := by
  obtain ⟨st', hstop⟩ := unfetched_stops (e := e)
    (f := { cause := f.cause, qual := f.qual, emask := e.p.act, whole := true, pc := e.pc, addr := codeAddr e.g e.pc })
    ((State.charge_strand s e.core e.ctx 2 e.p.chainLen e.k).trans hs) (fetchWord_ofAccess hfetch)
  refine ⟨_, st', ?_, hstop⟩
  rw [step_of_lane hsched he, runWord_of_fault (nextWord_of_unfetched he hgated hfetch hgate), tick_next]

theorem step_of_rejected {w : BitVec 32} {x : Reject} (hfetch : fetchWord s e.core e.g e.pc = .ok w) (hdecode : decode e.g.hdr.version w = .error x)
    (hgate : e.gate r s = none) : ∃ t st', step s = .next (passed t) ∧
      Stops (s.charge e.core e.ctx 2 e.len) t e (wholeFault e x.cause 0 0) e.after false st st' := by
  obtain ⟨st', hstop⟩ := unfetched_stops (e := e) (f := wholeFault e x.cause 0 0)
    ((State.charge_strand s e.core e.ctx 2 e.len e.k).trans hs) (.inl (reject_cause_lt x))
  refine ⟨_, st', ?_, hstop⟩
  rw [step_of_lane hsched he, runWord_of_fault (nextWord_of_rejected he hgated hfetch hdecode hgate), tick_next]
  rfl

end

/-- Settles O57: each kind of step by what it comes to, a word by how it is fetched. -/
theorem stepRuns : Obligations.StepRuns := by
  unfold Obligations.StepRuns
  intro s
  dsimp only
  refine ⟨fun i rest t hsched hexec => ?_, fun k pi rest hsched i t hword hexec => ?_, fun e r st hsched he hs => ?_, fun core g pc => ?_⟩
  · rw [step_of_event hsched, hexec, tick_next]
  · rw [step_of_issue hsched, runWord_of_word hword, hexec, tick_next]
  · refine ⟨step_of_gated hsched he, fun hgated => ⟨fun f => step_of_unfetched hsched he hs hgated, fun w hfetch => ⟨fun i t => ?_, fun x => ?_⟩⟩⟩
    · exact step_of_decoded hsched he hgated hfetch
    · exact step_of_rejected hsched he hs hgated hfetch
  · exact ⟨fun f => fetchWord_of_error, fun l ht => ⟨fetchWord_of_read ht, fun hread => ⟨_, fetchWord_of_readCause ht hread, rfl⟩⟩⟩

end Sys2Proof.Machine
end

section
/-!
PROOFS. The hint words of a chain (06 R139, R140, R142).
-/

namespace Sys2Proof.Machine

/-- A hint word issues as one, with its own kind and payload. -/
theorem exec_hint {i : Instr} {h0 h : Hints} {twice : Bool} (s : State) (hh : hinted h0 i = some (h, twice)) :
    ∃ kind add, exec i s = issueHint i s kind add ∧ kind h0 = twice ∧ add h0 = h := by
  unfold hinted at hh
  split at hh
  all_goals cases hh
  all_goals exact ⟨_, _, rfl, by rfl, by rfl⟩

theorem hint_joins {i : Instr} {s : State} {e : Env} {r : Run} {st : Strand} {kind : Hints → Bool} {add : Hints → Hints} (he : envOf i s = some (e, r))
    (hs : s.strand e.k = some st) (hwf : i.wf = true) (hkind : kind e.h = false) : ∃ t st', issueHint i s kind add = .next t ∧ OnlyStrand s t e.k st' ∧
      st' = st.setPath e.pi { st.path e.pi with pc := e.pc + 4, hints := add e.h, chainPc := e.chain, chainLen := e.len } := by
  obtain ⟨-, ⟨st0, hst, -, hbegun⟩, hp, -, -, -⟩ := envOf_eq he
  obtain rfl : st0 = st := Option.some.inj (hst.symm.trans hs)
  have hpath : e.p = (st0.path e.pi).begun (s.core e.core) e.g.task.ctx := by rw [hp, hbegun, Strand.path_setPath]
  have hexec : issueHint i s kind add =
      .next (s.onPath e.k e.pi fun p => { p with pc := p.pc + 4, hints := add p.hints, chainPc := e.chain, chainLen := p.chainLen + 1 }) := by
    simp only [issueHint, he, hwf, hkind, Bool.not_false, Bool.and_self, if_true]
  refine ⟨_, _, hexec, onlyStrand_onPath hs _, ?_⟩
  rw [Env.pc, Env.h, Env.len, hpath]
  rfl

theorem hint_twice {i : Instr} {s : State} {e : Env} {r : Run} {st : Strand} {kind : Hints → Bool} {add : Hints → Hints} (he : envOf i s = some (e, r))
    (hs : s.strand e.k = some st) (hwf : i.wf = true) (hkind : kind e.h = true) (hgate : e.gate r s = none) :
    ∃ t st', issueHint i s kind add = .next t ∧ Stops (s.charge e.core e.ctx 2 e.len) t e (wholeFault e 0x03 0 0) e.after false st st' := by
  obtain ⟨st', hstop⟩ := raise_stops (e := e) 0x03 0 0 0 ((State.charge_strand s e.core e.ctx 2 e.len e.k).trans hs) (by decide)
  refine ⟨_, st', ?_, hstop⟩
  simp only [issueHint, he, hwf, hkind, hgate, Bool.not_true, Bool.and_false, Bool.false_eq_true, if_false, if_true, Option.getD_none]

theorem gate_eq_none {s : State} {e : Env} {r : Run} (hlimit : r.words + e.len ≤ runLimit e.g.hdr.version) (hheld : lookaheadHeld s e.p e.len = false)
    (hbreak : breakpoints s e = []) : e.gate r s = none := by
  simp [Env.gate, Nat.not_lt.mpr hlimit, hheld, hbreak]

/-- Settles O23: a hint word joins its chain, and a second one of its kind is charged and stops the strand. -/
theorem hintWords : Obligations.HintWords := by
  unfold Obligations.HintWords
  intro i s e r h twice st he hs hwf hh
  obtain ⟨kind, add, hexec, hkind, hadd⟩ := exec_hint s hh
  rw [hexec, ← hadd]
  refine ⟨fun hone => hint_joins he hs hwf (hkind.trans hone), fun htwo hlimit hheld hbreak => ?_⟩
  exact hint_twice he hs hwf (hkind.trans htwo) (gate_eq_none hlimit hheld hbreak)

end Sys2Proof.Machine
end

section
/-!
PROOFS. A chain that breaks a rule of decoding (06 R146; 14 R344).
-/

namespace Sys2Proof.Machine

/-- Every word but a hint word issues as the instruction of its chain (06 R139). -/
theorem exec_issues {i : Instr} (s : State) (hword : (encode i).isSome = true) (hhint : hinted {} i = none) : ∃ body, exec i s = issue i s body := by
  cases i
  case hintWide | hintMod | hintThird | hintGuard | hintRtag | hintTtag | hintCredit => exact absurd hhint (Option.some_ne_none _)
  all_goals try exact absurd hword Bool.false_ne_true
  all_goals
    unfold exec
    exact ⟨_, rfl⟩

section
variable {e : Env} {c : Nat}

theorem lt_of_ite_some {p : Prop} {_ : Decidable p} {a n : Nat} {x : Option Nat} (h : (if p then some a else x) = some c) (ha : a < n)
    (hx : x = some c → c < n) : c < n := by
  split_ifs at h
  · exact Option.some.inj h ▸ ha
  · exact hx h

/-- No rule of decoding stops one path alone: its causes are not those of breakpoints and watchpoints (15 R371). -/
theorem decodeFault_lt (h : decodeFault e = some c) : c < 0xB0 := by
  unfold decodeFault at h
  dsimp only at h
  refine lt_of_ite_some h (by decide) fun h => lt_of_ite_some h (by decide) fun h => lt_of_ite_some h (by decide) fun h =>
    lt_of_ite_some h (by decide) fun h => ?_
  split at h
  case h_4 => cases h
  all_goals
    split_ifs at h
    exact Option.some.inj h ▸ by decide

theorem decodeFault_of_not_wf (hver : e.g.hdr.version ≠ 1) (hwf : e.i.wf = false) : decodeFault e = some 0x01 := by
  simp [decodeFault, hver, hwf]

theorem decodeFault_of_not_hintsOk (hver : e.g.hdr.version ≠ 1) (hwf : e.i.wf = true) (hcodes : codesOk e.i e.h = true)
    (hpayload : payloadOk e.i e.h = true) (hhints : hintsOk e.i e.h = false) : decodeFault e = some 0x03 := by
  simp [decodeFault, hver, hwf, hcodes, hpayload, hhints]

end

theorem spent_strand (e : Env) (s : State) : (spent e s).strand e.k = some e.st := by
  unfold spent
  rw [State.charge_strand, State.charge_strand, begun_strand]

theorem payIdle_begun (e : Env) (s : State) : e.payIdle false (begun s e) = spent e s := rfl

section
variable {i : Instr} {s : State} {e : Env} {r : Run} {body : Env → State → State}

theorem Reaches.gate (h : Reaches i s e r) : e.gate r (begun s e) = none := by
  obtain ⟨-, hlimit, hheld, hbreak, -, -⟩ := h
  exact gate_eq_none hlimit hheld hbreak

theorem Reaches.verdict_fault {c : Nat} (h : Reaches i s e r) (hc : decodeFault e = some c) : verdict (begun s e) e = .fault c := by
  obtain ⟨-, -, -, -, hguard, hdefer⟩ := h
  simp [verdict, hguard, hdefer, hc]

/-- A chain that breaks a rule of decoding raises its cause from the charged state. -/
theorem issue_faults {c : Nat} (h : Reaches i s e r) (hc : decodeFault e = some c) : issue i s body = .next (e.raise (spent e s) c) := by
  have hgate := h.gate
  have hverdict := h.verdict_fault hc
  rw [← payIdle_begun]
  unfold begun at hgate hverdict ⊢
  simp only [issue, h.1, hgate, hverdict]

end

/-- Settles O36: an ill-formed word, and hints that are not accepted, have their causes, and whichever cause applies is raised at issue. -/
theorem decodeFaults : Obligations.DecodeFaults := by
  unfold Obligations.DecodeFaults
  intro i s e r hword hhint h
  obtain ⟨-, -, -, -, rfl, -⟩ := envOf_eq h.1
  refine ⟨decodeFault_of_not_wf, decodeFault_of_not_hintsOk, fun c hc => ?_⟩
  obtain ⟨body, hexec⟩ := exec_issues s hword hhint
  have hlt := decodeFault_lt hc
  obtain ⟨st', hstop⟩ := raise_stops (e := e) c 0 0 0 (spent_strand e s) (by omega)
  exact ⟨_, st', hexec.trans (issue_faults h hc), hstop⟩

end Sys2Proof.Machine
end

section
/-!
PROOFS. EXIT of a path without active threads: it unwinds to a level of its stack, and no trace record says so (12 R284, R297; 15 R381).
-/

namespace Sys2Proof.Machine

/-! A trace record that the die's unit takes -/

theorem trace_adds {s : State} {k pi kind : Nat} {pc mask aux : Word} {st : Strand} (hs : s.strand k = some st)
    (hon : traceOn s (coreOf k) ((s.gang st.gang).getD {}).task.ctx kind = true) (hcap : (s.die (coreDie (coreOf k))).trlen.toNat % 2 ^ 32 ≠ 0)
    (hfull : (s.die (coreDie (coreOf k))).traceFull = false) (hroom : (s.die (coreDie (coreOf k))).traced.length < 256) :
    ((s.trace k pi kind pc mask aux).die (coreDie (coreOf k))).traced ≠ [] := by
  unfold State.trace
  rw [hs]
  simp only [hon, Bool.not_true, Bool.false_eq_true, if_false, hcap, hfull, Bool.false_or, decide_eq_true_eq, Nat.not_le.mpr hroom]
  simp

/-! A strand whose path has no active thread -/

/-- The gang of the strand. -/
def threadlessGang : Gang := { task := { entry := 2 ^ 40 }, live := 1, launch := 1 }

/-- A level whose other side, thread 1, is pending. -/
def pendingLevel : StackEntry := { fmask := 1, pmask := 2, ppc := 200 }

/-- A strand at an EXIT at offset 64: its path has no active thread, above a level with a side pending. -/
def threadless : Strand := { gang := 1, path0 := { pc := 64, act := 0, stack := [pendingLevel], run := some {} } }

/-- The strand alone in a package: its core sends trace records, and the unit of its die takes every kind. -/
def threadlessState : State := {
  cur := some (0, 0), strands := [(0, threadless)], gangs := [(1, threadlessGang)]
  cores := [(0, { dbgctl := 7 })], dies := [(0, { trctl := 0x103FF, trlen := 4 })] }

/-- The path as it issues the EXIT. -/
def threadlessEnv : Env := envAt 0 0 (.exit 0) threadless threadlessGang

theorem threadless_issues : Issues (.exit 0) threadlessState threadlessEnv {} := by
  decide +kernel

/-- No record of the branch: the path had no thread to lose. -/
theorem threadless_untraced {t : State} (h : exec (.exit 0) threadlessState = .next t) : (t.die 0).traced = [] := by
  have heval : (match exec (.exit 0) threadlessState with | .next t => decide ((t.die 0).traced = []) | _ => false) = true := by decide +kernel
  rw [h] at heval
  exact of_decide_eq_true heval

/-- A state that differs from this one in the strand alone sends its records. -/
theorem threadless_traces {v : State} {st : Strand} (pc mask aux : Word) (hlocal : Local (paid (.exit 0) threadlessEnv threadlessState) v threadlessEnv)
    (hs : v.strand 0 = some st) (hdiv : Diverged threadlessEnv.st st) : ((v.trace 0 0 1 pc mask aux).die 0).traced ≠ [] := by
  have hdie : v.die 0 = threadlessState.die 0 := by rw [hlocal.package]; rfl
  have hgang : v.gang st.gang = some threadlessGang := by rw [hlocal.package, hdiv]; rfl
  have hdbg : (v.core 0).dbgctl = 7 := by
    rw [hlocal.cores 0]
    show ((paid (.exit 0) threadlessEnv threadlessState).core 0).dbgctl = 7
    decide +kernel
  have hon : traceOn v 0 0 1 = true := by
    unfold traceOn
    rw [show coreDie 0 = 0 from rfl, hdie, hdbg]
    decide
  refine trace_adds hs ?_ ?_ ?_ ?_
  · rw [hgang]
    exact hon
  all_goals
    rw [show coreDie (coreOf 0) = 0 from rfl, hdie]
    decide

/-- Refutes O22: the threads of a level go on after an EXIT that no active thread issues, and the statement asks for a trace record of that branch,
which the model does not write: nothing in it says that the path had a thread to lose. -/
theorem not_pathEnds : ¬ Obligations.PathEnds := by
  unfold Obligations.PathEnds
  rintro ⟨-, -, hexits⟩
  have hlevels := hexits 0 threadlessState threadlessEnv {} threadless_issues (.inl rfl) (by decide) (fun _ => rfl) rfl rfl rfl (by decide)
  obtain ⟨-, hside, -⟩ := hlevels
  obtain ⟨v, st', hexec, ⟨hlocal, hs, -, -, hdiv, -⟩, -, -⟩ := (hside (by decide) pendingLevel [] rfl).1 rfl (by decide)
  exact threadless_traces _ _ _ hlocal hs hdiv (threadless_untraced hexec)

end Sys2Proof.Machine
end

section
/-!
PROOFS. Accesses to objects all of whose threads' addresses translate, and accesses made once for the strand: the operation that starts, or the stop
with no effect (07 R155, R160, R161, R163; 09 R217; 14 R344).
-/

namespace Sys2Proof.Machine

/-! Translations that all succeed -/

theorem reach_of_translates {e : Env} {s : State} {kind : Kind} {n : Nat} {addr : Nat → Nat} {loc : Nat → Located}
    (h : ∀ t ∈ e.ts, translate s e.die e.ctx (addr t) n kind = .ok (loc t)) :
    e.reach s kind n addr = e.ts.map fun t => (t, addr t, .ok (loc t)) :=
  List.map_congr_left fun t ht => by rw [h t ht]

theorem ts_eq_nil {e : Env} (h : e.act = 0) : e.ts = [] := by
  rw [Env.ts, h]
  rfl

/-- An operation without a part does not start. -/
theorem launchOp_of_no_items (e : Env) {o : Op} (h : o.items = []) (s : State) : e.launchOp o s = s := by
  rw [Env.launchOp, h]
  rfl

/-- An access whose threads' addresses all translate starts its operation and goes on. -/
theorem ObjectAccess.run_of_translates {x : ObjectAccess} {e : Env} {s : State} {loc : Nat → Located}
    (h : ∀ t ∈ e.ts, translate s e.die e.ctx (x.addr t) x.bytes x.kind = .ok (loc t)) :
    let ps : Places := e.ts.map fun t => (t, x.addr t, loc t)
    x.run e s = e.next (e.launchOp (x.op ps) (if ps.isEmpty then s else x.base ps s)) := by
  unfold ObjectAccess.run
  dsimp only
  rw [reach_of_translates h, passed_of_ok, failed_of_ok, nextFailed_none]

/-- Settles O7: the access's `run` starts the operation of all active threads, or without any only goes on. -/
theorem objectAccesses : Obligations.ObjectAccesses := by
  unfold Obligations.ObjectAccesses
  intro i s e r x loc h hx hloc ps
  have hexec : exec i s = .next (e.next (e.launchOp (x.op ps) (if ps.isEmpty then paid i e s else x.base ps (paid i e s)))) :=
    (exec_objectAccess h hx).trans (congrArg _ (ObjectAccess.run_of_translates hloc))
  refine ⟨fun hact => ?_, fun hact => ?_⟩
  · have hps : ps ≠ [] := fun hnil => ts_ne_nil hact (List.map_eq_nil_iff.mp hnil)
    obtain ⟨hstrands, hcur⟩ := objectAccess_base hx ps (paid i e s)
    rw [if_neg (by simpa using hps)] at hexec
    refine h.launches ?_ (hcur.trans (paid_cur h)) ?_ hexec
    · rw [State.strand, hstrands]
      exact paid_strand_same i e s
    · rwa [← List.length_pos_iff, objectAccess_items hx, List.length_pos_iff]
  · have hps : ps = [] := by simp only [ps, ts_eq_nil hact, List.map_nil]
    have hnone : (x.op ps).items = [] := List.length_eq_zero_iff.mp ((objectAccess_items hx ps).trans (by rw [hps]; rfl))
    rw [launchOp_of_no_items e hnone, if_pos (by rw [hps]; rfl)] at hexec
    exact h.computes_nothing hexec

/-! Operations that no watchpoint applies to -/

/-- Whether an operation is watched is left open where it starts. -/
theorem StartsOp.of_watched {s u u' : State} {e : Env} {o : Op} {st1 : Strand} {w : Bool} (h : StartsOp s u e o st1)
    (hop : u'.op s.nextId = (u.op s.nextId).map fun o' => { o' with watched := w }) (hops : ∀ j, j ≠ s.nextId → u'.op j = u.op j)
    (hrest : u' = { u with ops := u'.ops }) : StartsOp s u' e o st1 := by
  obtain ⟨⟨o', ho, heq⟩, hother, hnext, hstrand, houts, hstrands, hcores, hpackage⟩ := h
  have hsame (k : Nat) : u'.strand k = u.strand k := by rw [hrest]; rfl
  have hcore (c : Nat) : u'.core c = u.core c := by rw [hrest]; rfl
  refine ⟨⟨{ o' with watched := w }, ?_, ?_⟩, fun j hj => (hops j hj).trans (hother j hj), ?_, (hsame _).trans hstrand, houts,
    fun k hk => (hsame k).trans (hstrands k hk), fun c => ?_, ?_⟩
  · rw [hop, ho]
    rfl
  · rw [heq]
  · rw [hrest]
    exact hnext
  · rw [hcore]
    exact hcores c
  · rw [hrest, hpackage]

/-- An operation that watchpoints are to leave alone starts as the others do, unwatched. -/
theorem launchOp_unwatched {u : State} {e : Env} {st1 : Strand} (o : Op) (hs : u.strand e.k = some st1) (ho : o.items ≠ []) :
    let t := e.launchOp o u
    let t' := e.launchOp o u false
    t'.op u.nextId = (t.op u.nextId).map (fun o' => { o' with watched := false }) ∧ (∀ j, j ≠ u.nextId → t'.op j = t.op j) ∧
      t' = { t with ops := t'.ops } := by
  have hs1 : (u.sample e.core e.ctx o.requests).1.strand e.k = some st1 := by rw [State.sample_eq]; exact hs
  have hid : (u.sample e.core e.ctx o.requests).1.nextId = u.nextId := by rw [State.sample_eq]
  simp only [Env.launchOp, List.isEmpty_iff, ho, if_false]
  rw [start_eq _ hs1, start_eq _ hs1, hid]
  refine ⟨?_, fun j hj => ?_, rfl⟩
  · simp only [State.op, look_upd_same, Option.map_some, Bool.false_and]
  · simp only [State.op, look_upd_other _ _ hj]

theorem launchOp_starts_of_watch {u : State} {e : Env} {o : Op} (watch : Bool) (hs : u.strand e.k = some e.st) (hp : e.p = e.st.path e.pi)
    (ho : o.items ≠ []) : StartsOp u (e.launchOp o u watch) e o (e.started u) ∧ (e.launchOp o u watch).cur = u.cur := by
  obtain ⟨hstart, hcur⟩ := launchOp_starts hs hp ho
  cases watch with
  | true => exact ⟨hstart, hcur⟩
  | false =>
    obtain ⟨hop, hops, hrest⟩ := launchOp_unwatched o hs ho
    exact ⟨hstart.of_watched hop hops hrest, by rw [hrest]; exact hcur⟩

/-! Accesses made once for the strand -/

/-- An access of n bytes once for the strand: its failure is the strand's, and else its operation starts from `base`. -/
def Env.accessOnce (e : Env) (n : Nat) (kind : Kind) (addr : Nat) (base : Located → State → State) (op : Located → Op) (watch : Bool) (s : State) :
    State :=
  match translate s e.die e.ctx addr n kind with
  | .error f => e.raise s f.cause f.qual addr
  | .ok l => e.next (e.launchOp (op l) (base l s) watch)

/-- An address that fails stops the strand with the cause of its check. -/
theorem stopsWhole_of_failed {i : Instr} {s : State} {e : Env} {f : Failed} {addr : Nat} (hf : f.ofAccess)
    (hx : exec i s = .next (e.raise (paid i e s) f.cause f.qual addr)) : StopsWhole i s e f.cause f.qual addr := by
  obtain ⟨st', hstop⟩ := raise_stops (e := e) f.cause f.qual addr 0 (paid_strand_same i e s) (by unfold Failed.ofAccess at hf; omega)
  exact ⟨_, st', hx, hstop⟩

/-- An instruction that only makes such an access launches its operation, or stops the strand. -/
theorem Issues.accesses_once {i : Instr} {s : State} {e : Env} {r : Run} {n : Nat} {kind : Kind} {addr : Nat} {base : Located → State → State}
    {op : Located → Op} {watch : Bool} (h : Issues i s e r) (hx : exec i s = .next (e.accessOnce n kind addr base op watch (paid i e s)))
    (hstrand : ∀ l, (base l (paid i e s)).strand e.k = some e.st) (hcur : ∀ l, (base l (paid i e s)).cur = (paid i e s).cur)
    (hitems : ∀ l, (op l).items ≠ []) :
    (∀ l, translate (paid i e s) e.die e.ctx addr n kind = .ok l → Launches i s (base l (paid i e s)) e r (op l)) ∧
      ∀ f, translate (paid i e s) e.die e.ctx addr n kind = .error f → StopsWhole i s e f.cause f.qual addr := by
  unfold Env.accessOnce at hx
  refine ⟨fun l hl => ?_, fun f hf => ?_⟩
  · rw [hl] at hx
    obtain ⟨hstart, hcur1⟩ := launchOp_starts_of_watch watch (hstrand l) h.path_eq (hitems l)
    obtain ⟨st2, hret⟩ := h.retires (hcur1.trans (hcur l)) hstart.strand (by simp [Env.started]) (by simp [Env.started])
    exact ⟨_, _, _, st2, hx, hstart, hret⟩
  · rw [hf] at hx
    exact stopsWhole_of_failed (translate_ofAccess hf) hx

theorem loadU_eq_accessOnce (e : Env) (d a : BitVec 7) (k : BitVec 2) (n : Nat) (s : State) :
    e.loadU d a k n s = e.accessOnce n .read (e.uniformAt k a) (fun _ s => s) (e.uniformLoad d a k n) true s := by
  have haddr : unsigned 64 (e.st.upair (2 * k.toNat) + (e.st.sreg a.toNat).toNat + e.off) = e.uniformAt k a := by
    simp [Env.uniformAt, unsigned, BitVec.toNat_ofInt, off_eq]
  unfold Env.loadU
  rw [haddr]
  rfl

section
variable {z : BitVec 1} {a : BitVec 7} {l : BitVec 1} {n : BitVec 4} {s : State} {e : Env} {r : Run}

theorem exec_lmrg_object (h : Issues (.lmrg z a l 1 n) s e r) : exec (.lmrg z a l 1 n) s = .next (
    e.accessOnce 64 .read (e.st.upair a.toNat) (fun _ s => s)
      (fun x => { kind := .lmrg l.toNat, acc := some 0, gens := [x.gen], items := [uniformItem e (e.st.upair a.toNat) x] }) true
      (paid (.lmrg z a l 1 n) e s)) := by
  rw [show exec (.lmrg z a l 1 n) s = execLmrg z a l 1 n s from rfl, execLmrg, issue_body _ h]
  rfl

/-- No watchpoint applies to LST (15 R378). -/
theorem exec_lst_object (h : Issues (.lst z a l 1 n) s e r) : exec (.lst z a l 1 n) s = .next (
    e.accessOnce 64 .write (e.st.upair a.toNat) (fun _ s => s)
      (fun x => { kind := .store false, acc := some 0, gens := [x.gen]
                  items := [{ t := lowest e.act, addr := e.st.upair a.toNat, dst := memKeys x.bytes, val := (e.st.acc l).spill.toNat, rol := x.rol }] })
      false (paid (.lst z a l 1 n) e s)) := by
  rw [show exec (.lst z a l 1 n) s = execLst z a l 1 n s from rfl, execLst, issue_body _ h]
  rfl

end

/-- Settles O10: each of the instructions makes one access for its strand. -/
theorem uniformAccesses : Obligations.UniformAccesses := by
  unfold Obligations.UniformAccesses
  intro s e r i n kind addr op h hform
  have hexec : (∃ watch, exec i s = .next (e.accessOnce n kind addr (fun _ s => s) op watch (paid i e s))) ∧ ∀ l, (op l).items ≠ [] := by
    cases i <;> dsimp only at hform
    case lduB32 z d a k l =>
      cases hform
      exact ⟨⟨true, (issue_body _ h).trans (by rw [loadU_eq_accessOnce])⟩, fun _ => List.cons_ne_nil _ _⟩
    case lduB64 z d a k l =>
      cases hform
      exact ⟨⟨true, (issue_body _ h).trans (by rw [loadU_eq_accessOnce])⟩, fun _ => List.cons_ne_nil _ _⟩
    case lmrg z a l q x =>
      split_ifs at hform with hq
      cases hform
      subst hq
      exact ⟨⟨true, exec_lmrg_object h⟩, fun _ => List.cons_ne_nil _ _⟩
    case lst z a l q x =>
      split_ifs at hform with hq
      cases hform
      subst hq
      exact ⟨⟨false, exec_lst_object h⟩, fun _ => List.cons_ne_nil _ _⟩
    all_goals cases hform
  obtain ⟨⟨watch, hx⟩, hitems⟩ := hexec
  exact h.accesses_once hx (fun _ => paid_strand_same i e s) (fun _ => rfl) hitems

end Sys2Proof.Machine
end

section
/-!
PROOFS. Prefetches, ordered adds and loads from every package of a pod: which operation starts, and where the strand stops instead (02 R51 to R53;
07 R162, R165 to R169).
-/

namespace Sys2Proof.Machine

/-! PREF -/

section
variable (e : Env) (k : BitVec 2) (a : BitVec 7) (s : State)

/-- The places whose lines PREF asks for: those of the addresses that translate. -/
def Env.prefetched : Places :=
  e.ts.filterMap fun t => match translate s e.die e.ctx (e.objectAt k.toNat a e.wideOff t) 1 .read with
    | .ok l => some (t, e.objectAt k.toNat a e.wideOff t, l)
    | .error _ => none
/-- PREF's operation: the lines of stacks among them (07 R162). -/
def Env.prefetchOp : Op :=
  { kind := .prefetch (e.h.cache != 2), gens := (e.prefetched k a s).map (·.2.2.gen), outstanding := false, cache := e.h.cache
    items := ((e.prefetched k a s).map fun p => ({ t := p.1, addr := p.2.1, src := p.2.2.bytes, rol := p.2.2.rol } : Item)).filter fun j =>
      j.lines ≠ [] && j.lines.all fun l => isStack (l * 128) }

theorem passed_prefetched : (e.reach s .read 1 (e.objAddr k.toNat a e.off)).passed = e.prefetched k a s := by
  rw [objAddr_eq, off_eq]
  exact passed_reach ⟨.read, 1, e.objectAt k.toNat a e.wideOff, fun _ s => s, loadOp e 1 false a⟩ e s

end

theorem exec_pref {z : BitVec 1} {a : BitVec 7} {k : BitVec 2} {s : State} {e : Env} {r : Run} (h : Issues (.pref z a k) s e r) :
    exec (.pref z a k) s = .next (e.next (e.launchOp (e.prefetchOp k a (paid (.pref z a k) e s)) (paid (.pref z a k) e s))) := by
  have hlines (j : Item) : (!j.lines.isEmpty) = decide (j.lines ≠ []) := by cases j.lines <;> rfl
  have hkept : decide (e.h.cache ≠ 2) = (e.h.cache != 2) := by rw [bne, decide_not, beq_eq_decide]
  rw [show exec (.pref z a k) s = execPref z a k s from rfl, execPref, issue_body _ h]
  simp only [passed_prefetched, hlines, hkept]
  rfl

/-- PREF (07 R162). -/
theorem prefetchesPart : PrefetchesPart := by
  refine fun z a k s e r h => ⟨fun hnone => ?_, fun hsome => ?_⟩
  · exact h.computes_nothing ((exec_pref h).trans (by rw [launchOp_of_no_items e hnone]))
  · exact h.launches (paid_strand_same _ e s) (paid_cur h) hsome (exec_pref h)

/-! AOADD -/

theorem foldl_add_eq_sum (ts : List Nat) (v : Nat → Nat) : ts.foldl (fun r t => r + v t) 0 = (ts.map v).sum := by
  rw [List.sum_eq_foldl, List.foldl_map]

/-- AOADD's operation, once its cell is known: one request with the strand's rank and sum, and each active thread's prefix (07 R166). -/
def Env.orderedAddOp (e : Env) (wide : Bool) (d a : BitVec 7) (l : Located) : Op :=
  let n := if wide then 2 else 1
  let addr := e.pairAt a e.wideOff 0
  { kind := .aoadd wide d.toNat (BitVec.ofNat 32 (e.g.index * e.g.hdr.nstr + e.st.index)) ((e.ts.map (e.get 0 d n)).sum % 2 ^ (32 * n)) 0 0
    acc := some 0, gens := [l.gen], lines := [.waiting], vregs := if e.act = 0 then [] else keysFrom d.toNat n
    items := { t := lowest e.act, addr, src := l.bytes, dst := memKeys l.bytes } ::
      e.ts.map fun t => { t, addr, val := ((e.ts.filter (· < t)).map (e.get 0 d n)).sum % 2 ^ (32 * n) } }

section
variable {e : Env} {wide : Bool} {d a : BitVec 7} {s : State}

theorem aoadd_of_divided (h : e.st.divided = true) : e.aoadd wide d a s = e.raise s 0x60 0x17 := by
  rw [Env.aoadd, if_pos h]

theorem aoadd_of_recovery (h : e.st.divided = false) (hrec : e.st.recov.isSome = true) : e.aoadd wide d a s = e.raise s 0x60 := by
  rw [Env.aoadd, if_neg (by rw [h]; decide), if_pos hrec]

theorem aoadd_eq_accessOnce (h : e.st.divided = false) (hrec : e.st.recov = none) : e.aoadd wide d a s =
    e.accessOnce 16 .atomic (e.pairAt a e.wideOff 0) (fun l s => s.invalidate e.core ((memKeys l.bytes).map lineOf).contains false)
      (e.orderedAddOp wide d a) true s := by
  rw [Env.aoadd, if_neg (by rw [h]; decide), if_neg (by rw [hrec]; decide)]
  simp only [prefixBelow, foldl_add_eq_sum, pairAddr_eq, off_eq]
  rfl

end

/-- AOADD (07 R165, R166, R168). -/
theorem orderedAddsPart : OrderedAddsPart := by
  intro i wide d a s e r hform h
  have hexec : exec i s = .next (e.aoadd wide d a (paid i e s)) := by
    obtain ⟨z, l, ⟨rfl, rfl⟩ | ⟨rfl, rfl⟩⟩ := hform <;> exact issue_body (fun e => e.aoadd _ d a) h
  have honce (hdiv : e.st.divided = false) (hrec : e.st.recov = none) := h.accesses_once (hexec.trans (by rw [aoadd_eq_accessOnce hdiv hrec]))
    (fun _ => paid_strand_same i e s) (fun _ => rfl) fun _ => List.cons_ne_nil _ _
  refine ⟨fun hdiv => ?_, fun hdiv hrec => ?_, fun hdiv hrec => (honce hdiv hrec).2, fun hdiv hrec => (honce hdiv hrec).1⟩
  · exact stopsWhole_of_raise (hexec.trans (by rw [aoadd_of_divided hdiv])) (by decide)
  · exact stopsWhole_of_raise (hexec.trans (by rw [aoadd_of_recovery hdiv hrec])) (by decide)

/-! LDSUM -/

/-- LDSUM's operation, with the replica set and the object that its lowest thread names (07 R169, 02 R53). -/
def Env.podLoadOp (e : Env) (f n : Nat) (d : BitVec 7) (q : BitVec 2) (rset obj : Nat) (ps : Places) : Op :=
  { (loadOp e n false d ps) with
    kind := .ldsum f d.toNat (4 + q.toNat) none rset obj none
    lines := [.waiting], vregs := keysFrom d.toNat (n / 4), preds := [4 + q.toNat], cache := 0 }

section
variable {e : Env} {f n : Nat} {d a : BitVec 7} {q : BitVec 2} {s : State}

theorem ldsum_of_idle (hpod : s.wilmo = true) (hact : e.act = 0) : e.ldsum f n d a q s = e.next s := by
  simp only [Env.ldsum, hpod, Env.reach, ts_eq_nil hact]
  rfl

theorem headD_map_ts (hact : e.act ≠ 0) (g : Nat → Nat) : (e.ts.map g).headD 0 = g (lowest e.act) := by
  rw [lowest, show active e.act = e.ts from rfl]
  cases hts : e.ts with
  | nil => exact absurd hts (ts_ne_nil hact)
  | cons t ts => rfl

theorem lowest_mem_ts (hact : e.act ≠ 0) : lowest e.act ∈ e.ts := by
  rw [lowest, show active e.act = e.ts from rfl]
  cases hts : e.ts with
  | nil => exact absurd hts (ts_ne_nil hact)
  | cons t ts => exact List.mem_cons_self

theorem ldsum_of_translates {loc : Nat → Located} {rec : Nat → ObjRec} (hpod : s.wilmo = true) (hact : e.act ≠ 0)
    (hloc : ∀ t ∈ e.ts, translate s e.die e.ctx (e.pairAt a e.wideOff t) n .read = .ok (loc t))
    (hrec : ∀ t ∈ e.ts, record s e.die e.ctx (e.pairAt a e.wideOff t / 2 ^ 40 % 2 ^ 24) = some (rec t))
    (hset : ∀ t ∈ e.ts, (rec t).repl = true ∧ (replicaSet s (rec t).rset).isSome = true) :
    e.ldsum f n d a q s = e.next (e.launchOp (e.podLoadOp f n d q (rec (lowest e.act)).rset (e.pairAt a e.wideOff (lowest e.act) / 2 ^ 40 % 2 ^ 24)
      (e.ts.map fun t => (t, e.pairAt a e.wideOff t, loc t))) s) := by
  have husable : ∀ t ∈ e.ts, (match record s e.die e.ctx (bits (e.pairAt a e.wideOff t) 40 24) with
      | some r => r.repl && (replicaSet s r.rset).isSome
      | none => false) = true := by
    intro t ht
    rw [bits, hrec t ht]
    simpa using hset t ht
  unfold Env.ldsum
  rw [hpod, if_neg (by decide), pairAddr_eq, off_eq, reach_of_translates hloc]
  dsimp only
  rw [passed_of_ok, failed_of_ok, if_neg, nextFailed_none]
  · simp only [List.map_map, Function.comp_def, headD_map_ts hact]
    rw [bits, hrec _ (lowest_mem_ts hact)]
    rfl
  · rw [Bool.not_eq_true, List.any_map, List.any_eq_false]
    intro t ht
    rw [Function.comp_apply, Bool.not_eq_true, Bool.not_eq_false']
    exact husable t ht

end

theorem exec_ldsum {i : Instr} {f n : Nat} {d a : BitVec 7} {q : BitVec 2} {s : State} {e : Env} {r : Run}
    (hform : ∃ z l, (f = 0 ∧ n = 4 ∧ i = .ldsumB32 z d a q l) ∨ (f = 1 ∧ n = 8 ∧ i = .ldsumB64 z d a q l) ∨
      (f = 2 ∧ n = 16 ∧ i = .ldsumG z d a q l) ∨ (f = 3 ∧ n = 4 ∧ i = .ldsumF32 z d a q l)) (h : Issues i s e r) :
    exec i s = .next (e.ldsum f n d a q (paid i e s)) := by
  obtain ⟨z, l, ⟨rfl, rfl, rfl⟩ | ⟨rfl, rfl, rfl⟩ | ⟨rfl, rfl, rfl⟩ | ⟨rfl, rfl, rfl⟩⟩ := hform <;> exact issue_body (fun e => e.ldsum _ _ d a q) h

theorem paid_wilmo (i : Instr) (e : Env) (s : State) : (paid i e s).wilmo = s.wilmo := by
  rw [paid_eq]
  rfl

/-- LDSUM (07 R169, 02 R51, R53). -/
theorem podLoadsPart : PodLoadsPart := by
  intro i f n d a q s e r loc rec hform h
  have hexec := exec_ldsum hform h
  rw [← paid_wilmo i e s]
  refine ⟨fun hpod => ?_, fun hpod hact hthreads => ?_, fun hpod hact => ?_⟩
  · exact stopsWhole_of_raise (hexec.trans (by simp [Env.ldsum, hpod])) (by decide)
  · have hrun := ldsum_of_translates (f := f) (d := d) (q := q) hpod hact (fun t ht => (hthreads t ht).1) (fun t ht => (hthreads t ht).2.1)
      fun t ht => (hthreads t ht).2.2
    exact h.launches (paid_strand_same i e s) (paid_cur h) (fun hnil => ts_ne_nil hact (by simpa [Env.podLoadOp, loadOp] using hnil))
      (hexec.trans (congrArg _ hrun))
  · exact h.computes_nothing (hexec.trans (congrArg _ (ldsum_of_idle hpod hact)))

/-- Settles O12: PREF's operation is that of the addresses that translate, AOADD makes one access for the strand, and LDSUM's operation is a load's
with the replica set that the record of its lowest thread's object names. -/
theorem fillsAndOrderedAdds : Obligations.FillsAndOrderedAdds := ⟨prefetchesPart, orderedAddsPart, podLoadsPart⟩

end Sys2Proof.Machine
end

section
/-!
PROOFS. Integer instructions: the operators of the model as operators on words of n bits, and the registers that an instruction without flags writes
(08 R183 to R188).
-/

namespace Sys2Proof.Machine

/-! An instruction without flags -/

/-- Words of numbers that agree in their low n words. -/
theorem word_congr {n j a b : Nat} (hj : j < n) (h : BitVec.ofNat (32 * n) a = BitVec.ofNat (32 * n) b) :
    BitVec.ofNat 32 (a / 2 ^ (32 * j)) = BitVec.ofNat 32 (b / 2 ^ (32 * j)) := by
  have hword (v : Nat) : BitVec.ofNat 32 (v / 2 ^ (32 * j)) = (BitVec.ofNat (32 * n) v).extractLsb' (32 * j) 32 := by
    refine BitVec.eq_of_getLsbD_eq fun k hk => ?_
    rw [BitVec.getLsbD_extractLsb', BitVec.getLsbD_ofNat, BitVec.getLsbD_ofNat, Nat.testBit_div_two_pow, decide_eq_true hk,
      decide_eq_true (show 32 * j + k < 32 * n by omega), Nat.add_comm, Bool.true_and, Bool.true_and]
  rw [hword, hword, h]

section
variable {i : Instr} {s : State} {e : Env} {r : Run} {body : Env → State → State} {x : BitVec 1} {d : BitVec 7} {n : Nat} {g : Nat → Nat}

/-- An instruction that puts numbers and goes on writes every number that agrees with them in its registers. -/
theorem Issues.computes_put {f : Nat → Nat} (h : Issues i s e r) (hx : exec i s = issue i s body)
    (hbody : body e (paid i e s) = e.next (e.put x d n g (paid i e s))) (hg : ∀ t, BitVec.ofNat (32 * n) (g t) = BitVec.ofNat (32 * n) (f t)) :
    Computes i s e r e.p.nfr fun st st' => SameAccs st st' ∧ Writes x st st' e.act d.toNat n f := by
  obtain ⟨u, t, st1, st', hexec, honly, hregs, ⟨hwrites, haccs⟩, hret⟩ :=
    put_computes h.1 x d n g (hx.trans ((issue_body body h).trans (congrArg _ hbody)))
  exact ⟨u, t, st1, st', hexec, honly, hregs, ⟨haccs, hwrites.congr fun t j hj => word_congr hj (hg t)⟩, hret⟩

/-- The same for words of its registers. -/
theorem Issues.computes_word {f : Nat → BitVec (32 * n)} (h : Issues i s e r) (hx : exec i s = issue i s body)
    (hbody : body e (paid i e s) = e.next (e.put x d n g (paid i e s))) (hg : ∀ t, BitVec.ofNat (32 * n) (g t) = f t) :
    Computes i s e r e.p.nfr fun st st' => SameAccs st st' ∧ Writes x st st' e.act d.toNat n fun t => (f t).toNat :=
  h.computes_put hx hbody fun t => by rw [hg, BitVec.ofNat_toNat, BitVec.setWidth_eq]

end

theorem get_one_lt (e : Env) (x : BitVec 1) (c : BitVec 7) (t : Nat) : e.get x c 1 t < 2 ^ 32 := get_lt e x c 1 t

theorem get_lt_n (e : Env) (x : BitVec 1) (c : BitVec 7) (t : Nat) : e.get x c e.w t < 2 ^ e.n := get_lt e x c e.w t

/-! Signed numbers of n bits -/

section
variable {n a b : Nat}

theorem unsigned_eq_toNat (n : Nat) (i : Int) : unsigned n i = (BitVec.ofInt n i).toNat := by
  rw [unsigned, BitVec.toNat_ofInt]

theorem ofNat_unsigned (n : Nat) (i : Int) : BitVec.ofNat n (unsigned n i) = BitVec.ofInt n i := by
  rw [unsigned_eq_toNat, BitVec.ofNat_toNat, BitVec.setWidth_eq]

/-- A result wrapped, or saturated to the signed range (08 R185). -/
theorem ofNat_intResult (sat : Bool) (n : Nat) (i : Int) : BitVec.ofNat n (intResult sat n i) = if sat then clamped n i else BitVec.ofInt n i := by
  rw [intResult, ofNat_unsigned]
  cases sat
  · rfl
  · simp [clamped, clampSigned]

theorem ofNat_intResult_add (sat : Bool) (n a b : Nat) : BitVec.ofNat n (intResult sat n (signed n a + signed n b)) =
    if sat then clamped n ((BitVec.ofNat n a).toInt + (BitVec.ofNat n b).toInt) else BitVec.ofNat n a + BitVec.ofNat n b := by
  rw [ofNat_intResult, signed_eq_toInt, signed_eq_toInt, BitVec.ofInt_add, BitVec.ofInt_toInt, BitVec.ofInt_toInt]

theorem ofNat_intResult_sub (sat : Bool) (n a b : Nat) : BitVec.ofNat n (intResult sat n (signed n a - signed n b)) =
    if sat then clamped n ((BitVec.ofNat n a).toInt - (BitVec.ofNat n b).toInt) else BitVec.ofNat n a - BitVec.ofNat n b := by
  rw [ofNat_intResult, signed_eq_toInt, signed_eq_toInt, Int.sub_eq_add_neg, BitVec.ofInt_add, BitVec.ofInt_neg, BitVec.ofInt_toInt,
    BitVec.ofInt_toInt, BitVec.sub_eq_add_neg]

/-- A choice by the order of two numbers of n bits. -/
theorem ofNat_ite_signed_le (n a b c d : Nat) : BitVec.ofNat n (if signed n a ≤ signed n b then c else d) =
    if (BitVec.ofNat n a).sle (BitVec.ofNat n b) then BitVec.ofNat n c else BitVec.ofNat n d := by
  simp only [signed_eq_toInt, BitVec.sle_eq_decide, decide_eq_true_eq]
  exact apply_ite ..

theorem ofNat_andn (hb : b < 2 ^ n) : BitVec.ofNat n (Nat.land a (2 ^ n - 1 - b)) = BitVec.ofNat n a &&& ~~~BitVec.ofNat n b := by
  have hnot : BitVec.ofNat n (2 ^ n - 1 - b) = ~~~BitVec.ofNat n b := by
    refine BitVec.eq_of_toNat_eq ?_
    rw [BitVec.toNat_not, BitVec.toNat_ofNat, BitVec.toNat_ofNat, Nat.mod_eq_of_lt hb, Nat.mod_eq_of_lt (by omega)]
  rw [← hnot]
  exact BitVec.ofNat_and

/-! Shifts (08 R183) -/

theorem ofNat_mod (n a : Nat) : BitVec.ofNat n (a % 2 ^ n) = BitVec.ofNat n a := BitVec.eq_of_toNat_eq (by simp)

theorem ofNat_mul_two_pow (n a c : Nat) : BitVec.ofNat n (a * 2 ^ c) = BitVec.ofNat n a <<< c := by
  refine BitVec.eq_of_toNat_eq ?_
  rw [BitVec.toNat_shiftLeft, BitVec.toNat_ofNat, BitVec.toNat_ofNat, Nat.shiftLeft_eq, Nat.mod_mul_mod]

theorem ofNat_shiftLeft (n a c : Nat) : BitVec.ofNat n (shiftLeft n a c) = BitVec.ofNat n a <<< c := by
  rw [shiftLeft]
  split_ifs with hc
  · exact (BitVec.shiftLeft_eq_zero hc).symm
  · rw [ofNat_mod, ofNat_mul_two_pow]

theorem ofNat_shiftRight (ha : a < 2 ^ n) (c : Nat) : BitVec.ofNat n (shiftRight n a c) = BitVec.ofNat n a >>> c := by
  refine BitVec.eq_of_toNat_eq ?_
  have hle : a / 2 ^ c ≤ a := Nat.div_le_self ..
  rw [BitVec.toNat_ushiftRight, BitVec.toNat_ofNat, BitVec.toNat_ofNat, Nat.mod_eq_of_lt ha, Nat.shiftRight_eq_div_pow, shiftRight]
  split_ifs with hc
  · rw [Nat.zero_mod, Nat.div_eq_of_lt (ha.trans_le (Nat.pow_le_pow_right (by decide) hc))]
  · exact Nat.mod_eq_of_lt (hle.trans_lt ha)

theorem ediv_two_pow_of_small {x : Int} {k d : Nat} (hlo : -2 ^ k ≤ x) (hhi : x < 2 ^ k) (hkd : k ≤ d) : x / 2 ^ d = if x < 0 then -1 else 0 := by
  have hpow : (2 : Int) ^ k ≤ 2 ^ d := pow_le_pow_right₀ (by decide) hkd
  have hpos : (0 : Int) < 2 ^ d := by positivity
  split_ifs with hneg
  · rw [Int.ediv_eq_iff_of_pos hpos]
    omega
  · exact Int.ediv_eq_zero_of_lt (by omega) (by omega)

/-- The sign fill of a count past the width is that of the top bit. -/
theorem ofNat_shiftArith (n a c : Nat) : BitVec.ofNat n (shiftArith n a c) = (BitVec.ofNat n a).sshiftRight c := by
  have hlo : -2 ^ (n - 1) ≤ (BitVec.ofNat n a).toInt := BitVec.le_toInt _
  have hhi : (BitVec.ofNat n a).toInt < 2 ^ (n - 1) := BitVec.toInt_lt
  rw [shiftArith, ofNat_unsigned, signed_eq_toInt, BitVec.sshiftRight, Int.shiftRight_eq_div_pow]
  push_cast
  rcases Nat.le_total c (n - 1) with hc | hc
  · rw [Nat.min_eq_left hc]
  · rw [Nat.min_eq_right hc, ediv_two_pow_of_small hlo hhi le_rfl, ediv_two_pow_of_small hlo hhi hc]

end

/-! Bit fields (08 R184, R197) -/

theorem ofNat_bits (a lo n : Nat) : BitVec.ofNat n (bits a lo n) = BitVec.ofNat n (a / 2 ^ lo) :=
  BitVec.eq_of_toNat_eq (by simp [bits])

theorem extractLsb'_ofNat {w a : Nat} (ha : a < 2 ^ w) (lo n : Nat) : (BitVec.ofNat w a).extractLsb' lo n = BitVec.ofNat n (a / 2 ^ lo) := by
  rw [BitVec.extractLsb', BitVec.toNat_ofNat, Nat.mod_eq_of_lt ha, Nat.shiftRight_eq_div_pow]

/-- A field of a word, extended by its sign or with zeros. -/
theorem ofNat_extended_field {a : Nat} (ha : a < 2 ^ 32) (sx : Bool) (lo n : Nat) :
    BitVec.ofNat 32 (if sx then unsigned 32 (signed n (bits a lo n)) else bits a lo n) =
      if sx then ((BitVec.ofNat 32 a).extractLsb' lo n).signExtend 32 else ((BitVec.ofNat 32 a).extractLsb' lo n).setWidth 32 := by
  cases sx
  · refine BitVec.eq_of_toNat_eq ?_
    rw [extractLsb'_ofNat ha]
    simp [bits]
  · simp only [if_true]
    rw [ofNat_unsigned, signed_eq_toInt, ofNat_bits, extractLsb'_ofNat ha, BitVec.signExtend]

theorem fieldPos_ofNat {b : Nat} (hb : b < 2 ^ 32) : fieldPos (BitVec.ofNat 32 b) = min (bits b 0 8) 32 := by
  rw [fieldPos, BitVec.toNat_ofNat, Nat.mod_eq_of_lt hb, bits_from_zero]
  rfl

theorem fieldLen_ofNat {b : Nat} (hb : b < 2 ^ 32) : fieldLen (BitVec.ofNat 32 b) = min (bits b 8 8) (32 - min (bits b 0 8) 32) := by
  rw [fieldLen, fieldPos_ofNat hb, BitVec.toNat_ofNat, Nat.mod_eq_of_lt hb]
  rfl

theorem getLsbD_eq_bits {w v i : Nat} (hi : i < w) : (BitVec.ofNat w v).getLsbD i = decide (bits v i 1 = 1) := by
  rw [BitVec.getLsbD_ofNat, decide_eq_true hi, Bool.true_and, Nat.testBit_eq_decide_div_mod_eq, bits, pow_one]

theorem ofNat_bitExtract {a b : Nat} (ha : a < 2 ^ 32) (hb : b < 2 ^ 32) :
    BitVec.ofNat 32 (bitExtract a b) =
      let c := BitVec.ofNat 32 b
      let f := (BitVec.ofNat 32 a).extractLsb' (fieldPos c) (fieldLen c)
      if c.getLsbD 16 then f.signExtend 32 else f.setWidth 32 := by
  dsimp only
  rw [← ofNat_extended_field ha, getLsbD_eq_bits (by decide), bitExtract, ← fieldLen_ofNat hb, ← fieldPos_ofNat hb]
  by_cases hzero : fieldLen (BitVec.ofNat 32 b) = 0
  · rw [if_pos hzero, hzero]
    simp [bits, Nat.mod_one, signed, unsigned]
  · rw [if_neg hzero]
    simp only [decide_eq_true_eq]

theorem ofNat_bitInsert {b : Nat} (hb : b < 2 ^ 32) (base a : Nat) :
    BitVec.ofNat 32 (bitInsert base a b) =
      let c := BitVec.ofNat 32 b
      (BitVec.ofNat 32 base &&& ~~~fieldMask c) ||| ((BitVec.ofNat 32 a <<< fieldPos c) &&& fieldMask c) := by
  rw [bitInsert, ← fieldLen_ofNat hb, ← fieldPos_ofNat hb]
  dsimp only
  rw [← ofNat_mul_two_pow, fieldMask, ← ofNat_mod _ (_ * _), ← ofNat_andn (Nat.mod_lt _ (by decide)), ← ofNat_mod _ (a * _)]
  exact BitVec.ofNat_or.trans (congrArg _ BitVec.ofNat_and)

/-! Bits counted and reversed -/

theorem length_takeWhile_range {p : Nat → Bool} {k n : Nat} (hkn : k ≤ n) (hlow : ∀ i < k, p i = true) (hend : k < n → p k = false) :
    ((List.range n).takeWhile p).length = k := by
  obtain ⟨m, rfl⟩ := Nat.exists_eq_add_of_le hkn
  have hall : ∀ i ∈ List.range k, p i = true := fun i hi => hlow i (List.mem_range.mp hi)
  have htail : (List.map (k + ·) (List.range m)).takeWhile p = [] := by
    cases m with
    | zero => rfl
    | succ m => simp [List.range_succ_eq_map, hend (by omega)]
  rw [List.range_add, List.takeWhile_append_of_pos hall, htail, List.append_nil, List.length_range]

theorem leadingZeros_eq {a : Nat} (ha : a < 2 ^ 32) :
    leadingZeros a = ((List.range 32).takeWhile fun n => !(BitVec.ofNat 32 a).getMsbD n).length := by
  have hbit {i : Nat} (hi : i < 32) : (BitVec.ofNat 32 a).getMsbD i = a.testBit (31 - i) := by
    rw [BitVec.getMsbD, decide_eq_true hi, Bool.true_and, BitVec.getLsbD_ofNat, decide_eq_true (by omega), Bool.true_and]
  rw [leadingZeros]
  split_ifs with hzero
  · refine (length_takeWhile_range le_rfl (fun i hi => ?_) (by omega)).symm
    simp [hzero]
  · have htop : a < 2 ^ (a.log2 + 1) := Nat.lt_log2_self
    have hlog : a.log2 < 32 := (Nat.log2_lt hzero).mpr ha
    refine (length_takeWhile_range (by omega) (fun i hi => ?_) fun _ => ?_).symm
    · rw [hbit (by omega), Nat.testBit_lt_two_pow (htop.trans_le (Nat.pow_le_pow_right (by decide) (by omega)))]
      rfl
    · rw [hbit (by omega), show 31 - (31 - a.log2) = a.log2 by omega, Nat.testBit_log2 hzero]
      rfl

theorem popCount_eq (n a : Nat) : popCount n a = ((List.range n).filter fun i => (BitVec.ofNat n a).getLsbD i).length := by
  rw [popCount]
  refine congrArg List.length (List.filter_congr fun i hi => ?_)
  rw [getLsbD_eq_bits (List.mem_range.mp hi)]
  rfl

/-- The bits of a number in reverse, as a sum: one bit of width more doubles what is there. -/
theorem sum_reverse_bits (a n : Nat) : ((List.range n).map fun i => bits a i 1 * 2 ^ (n - 1 - i)).sum = (BitVec.ofNat n a).reverse.toNat := by
  induction n with
  | zero => rw [BitVec.toNat_of_zero_length rfl]; rfl
  | succ n ih =>
    have hdouble : (List.range n).map (fun i => bits a i 1 * 2 ^ (n + 1 - 1 - i)) = (List.range n).map fun i => 2 * (bits a i 1 * 2 ^ (n - 1 - i)) := by
      refine List.map_congr_left fun i hi => ?_
      have hlt := List.mem_range.mp hi
      rw [show n + 1 - 1 - i = (n - 1 - i) + 1 by omega, pow_succ]
      ring
    rw [List.range_succ, List.map_append, List.sum_append, hdouble, List.sum_map_mul_left, ih, BitVec.reverse, BitVec.toNat_concat,
      BitVec.truncate_eq_setWidth, BitVec.setWidth_ofNat_of_le (by omega), BitVec.msb_eq_getLsbD_last, getLsbD_eq_bits (by omega)]
    have hbit : bits a n 1 < 2 := Nat.mod_lt _ (by decide)
    interval_cases hcase : bits a n 1 <;> simp [hcase] <;> omega

theorem reverseBits_eq (a : Nat) : reverseBits a = (BitVec.ofNat 32 a).reverse.toNat := by
  rw [reverseBits, foldl_add_eq_sum, ← sum_reverse_bits]

/-! What the instructions put -/

/-- The high half of a product of 64 bits. -/
theorem ofNat_high_half (a b : Nat) : BitVec.ofNat 32 (unsigned 64 (signed 32 a * signed 32 b) / 2 ^ 32) =
    BitVec.ofInt 32 ((BitVec.ofNat 32 a).toInt * (BitVec.ofNat 32 b).toInt / 2 ^ 32) := by
  rw [signed_eq_toInt, signed_eq_toInt]
  refine BitVec.eq_of_toNat_eq ?_
  rw [BitVec.toNat_ofNat, BitVec.toNat_ofInt, unsigned]
  omega

theorem ofNat_absInt (sat : Bool) (a : Nat) : BitVec.ofNat 32 (absInt sat a) =
    let v : Int := (BitVec.ofNat 32 a).toInt.natAbs
    if sat then clamped 32 v else BitVec.ofInt 32 v := by
  rw [absInt, ofNat_intResult, signed_eq_toInt]

/-- Two operands of 32 or 64 bits (08 R183, R185). -/
theorem wideIntegerResultsPart : WideIntegerResultsPart := by
  intro i x d a b f hf s e r h
  have hput {g : Nat → Nat → Nat} {body : Env → State → State} (hx : exec i s = issue i s body)
      (hbody : body e (paid i e s) = e.two x d a b e.w e.w e.w g (paid i e s))
      (hg : ∀ {p q : Nat}, p < 2 ^ e.n → q < 2 ^ e.n → BitVec.ofNat e.n (g p q) = f e.h.sat e.n (BitVec.ofNat e.n p) (BitVec.ofNat e.n q)) :
      Computes i s e r e.p.nfr fun st st' => SameAccs st st' ∧
        Writes x st st' e.act d.toNat e.w fun t => (f e.h.sat e.n (e.operand x a t) (e.operand x b t)).toNat :=
    h.computes_word hx hbody fun t => hg (get_lt_n e x a t) (get_lt_n e x b t)
  cases i <;> simp only [wideBinary, Option.some.injEq, reduceCtorEq, Prod.mk.injEq] at hf
  all_goals obtain ⟨rfl, rfl, rfl, rfl, rfl⟩ := hf
  case iadd => exact hput rfl rfl fun _ _ => ofNat_intResult_add ..
  case isub => exact hput rfl rfl fun _ _ => ofNat_intResult_sub ..
  case imul => exact hput rfl rfl fun _ _ => BitVec.ofNat_mul ..
  case min => exact hput rfl rfl fun _ _ => ofNat_ite_signed_le ..
  case max => exact hput rfl rfl fun _ _ => ofNat_ite_signed_le ..
  case and => exact hput rfl rfl fun _ _ => BitVec.ofNat_and
  case or => exact hput rfl rfl fun _ _ => BitVec.ofNat_or
  case xor => exact hput rfl rfl fun _ _ => BitVec.ofNat_xor
  case andn => exact hput rfl rfl fun _ hq => ofNat_andn hq

theorem ofNat_intResult_mulAdd (sat : Bool) (n a b c : Nat) : BitVec.ofNat n (intResult sat n (signed n a * signed n b + signed n c)) =
    if sat then clamped n ((BitVec.ofNat n a).toInt * (BitVec.ofNat n b).toInt + (BitVec.ofNat n c).toInt)
    else BitVec.ofNat n a * BitVec.ofNat n b + BitVec.ofNat n c := by
  rw [ofNat_intResult]
  simp only [signed_eq_toInt, BitVec.ofInt_add, BitVec.ofInt_mul, BitVec.ofInt_toInt]

/-- The other shapes (08 R183 to R185, R188). -/
theorem integerResultsPart : IntegerResultsPart := by
  intro i s e r x d n f h hf
  cases i <;> simp only [integerValue, Option.some.injEq, reduceCtorEq, Prod.mk.injEq] at hf
  all_goals obtain ⟨rfl, rfl, rfl, rfl⟩ := hf
  case imulh => exact h.computes_word rfl rfl fun t => ofNat_high_half ..
  case imad => exact h.computes_word (Eq.refl (execImad ..)) rfl fun t => ofNat_intResult_mulAdd ..
  case lea => exact h.computes_word rfl rfl fun t => BitVec.ofNat_add ..
  case iabs => exact h.computes_word rfl rfl fun t => ofNat_absInt ..
  case clz => exact h.computes_put rfl rfl fun t => congrArg _ (leadingZeros_eq (get_one_lt ..))
  case popc => exact h.computes_put rfl rfl fun t => congrArg _ (popCount_eq ..)
  case brev => exact h.computes_put rfl rfl fun t => congrArg _ (reverseBits_eq _)
  case mov => exact h.computes_word rfl rfl fun t => rfl
  case bfx => exact h.computes_word rfl rfl fun t => ofNat_bitExtract (get_one_lt ..) (get_one_lt ..)
  case bfi => exact h.computes_word (Eq.refl (execBfi ..)) rfl fun t => ofNat_bitInsert (get_one_lt ..) _ _
  case sel => exact h.computes_word (Eq.refl (execSel ..)) rfl fun t => apply_ite ..
  case shl => exact h.computes_word rfl rfl fun t => ofNat_shiftLeft ..
  case shr => exact h.computes_word rfl rfl fun t => ofNat_shiftRight (get_lt_n ..) _
  case sar => exact h.computes_word rfl rfl fun t => ofNat_shiftArith ..

/-! Immediates (08 R186) -/

theorem imm_eq (e : Env) (m : BitVec 8) : e.imm m = e.immediateOf m := by
  unfold Env.imm Env.immediateOf
  cases e.h.wide <;> rfl

section
variable {i : Instr} {s : State} {e : Env} {r : Run} {body : Env → State → State} {x : BitVec 1} {d a : BitVec 7} {m : BitVec 8}

theorem ofNat_imm (e : Env) (m : BitVec 8) : BitVec.ofNat e.n (unsigned e.n (e.imm m)) = BitVec.ofInt e.n (e.immediateOf m) := by
  rw [ofNat_unsigned, imm_eq]

/-- An operator on a register and the immediate. -/
theorem Issues.computes_immediate {g : Nat → Nat → Nat} (f : BitVec e.n → BitVec e.n → BitVec e.n) (h : Issues i s e r)
    (hx : exec i s = issue i s body)
    (hbody : body e (paid i e s) = e.immediate x d a m g (paid i e s))
    (hg : ∀ p q, BitVec.ofNat e.n (g p q) = f (BitVec.ofNat e.n p) (BitVec.ofNat e.n q)) :
    Computes i s e r e.p.nfr fun st st' => SameAccs st st' ∧
      Writes x st st' e.act d.toNat e.w fun t => (f (e.operand x a t) (BitVec.ofInt e.n (e.immediateOf m))).toNat :=
  h.computes_word hx hbody fun _ => (hg _ _).trans (congrArg _ (ofNat_imm e m))

/-- A shift of a register by the immediate, read as unsigned (08 R186). -/
theorem Issues.computes_shift {g : Nat → Nat → Nat → Nat} (f : BitVec e.n → Nat → BitVec e.n) (h : Issues i s e r)
    (hx : exec i s = issue i s body)
    (hbody : body e (paid i e s) = e.shiftImm x d a m g (paid i e s))
    (hg : ∀ {p : Nat} (c : Nat), p < 2 ^ e.n → BitVec.ofNat e.n (g e.n p c) = f (BitVec.ofNat e.n p) c) :
    Computes i s e r e.p.nfr fun st st' => SameAccs st st' ∧
      Writes x st st' e.act d.toNat e.w fun t => (f (e.operand x a t) (BitVec.ofInt 32 (e.immediateOf m)).toNat).toNat :=
  h.computes_word hx hbody fun t => (hg _ (get_lt_n e x a t)).trans (congrArg _ (by rw [unsigned_eq_toNat, imm_eq]))

end

/-- A register and an immediate, or an immediate alone. -/
theorem immediateResultsPart : ImmediateResultsPart := by
  intro i x d a m f hf s e r h
  cases i <;> simp only [immediateOp, Option.some.injEq, reduceCtorEq, Prod.mk.injEq] at hf
  all_goals obtain ⟨rfl, rfl, rfl, rfl, rfl⟩ := hf
  case movi => exact h.computes_word (Eq.refl (execMovi ..)) rfl fun _ => ofNat_imm ..
  case moviU => exact h.computes_word (Eq.refl (execMoviU ..)) rfl fun _ => ofNat_imm ..
  case iaddI | iaddIu => exact h.computes_immediate (· + ·) rfl rfl fun _ _ => BitVec.ofNat_add ..
  case shlI | shlIu => exact h.computes_shift (· <<< ·) rfl rfl fun _ _ => ofNat_shiftLeft ..
  case shrI | shrIu => exact h.computes_shift (· >>> ·) rfl rfl fun c hp => ofNat_shiftRight hp c
  case sarI | sarIu => exact h.computes_shift BitVec.sshiftRight rfl rfl fun _ _ => ofNat_shiftArith ..
  case andI | andIu => exact h.computes_immediate (· &&& ·) rfl rfl fun _ _ => BitVec.ofNat_and
  case orI | orIu => exact h.computes_immediate (· ||| ·) rfl rfl fun _ _ => BitVec.ofNat_or
  case xorI | xorIu => exact h.computes_immediate (· ^^^ ·) rfl rfl fun _ _ => BitVec.ofNat_xor

/-- Settles O2: each instruction puts numbers that are the words of its rule, by the equation of its operator on words. -/
theorem integerResults : Obligations.IntegerResults := ⟨wideIntegerResultsPart, integerResultsPart, immediateResultsPart⟩

end Sys2Proof.Machine
end

section
/-!
PROOFS. Cross-lane and bit instructions: packing and unpacking, the values that the threads tell one another, and the predicates of VOTE and CONF
(08 R191, R197 to R206).
-/

namespace Sys2Proof.Machine

/-! PACK and UNPK (08 R197) -/

theorem mode_cases (m : BitVec 3) : m = 0 ∨ m = 1 ∨ m = 2 ∨ m = 3 ∨ m = 4 ∨ m = 5 ∨ m = 6 ∨ m = 7 := by
  revert m
  decide

/-- Two words side by side. -/
theorem ofNat_append {k l lo hi : Nat} {p : BitVec l} {q : BitVec k} (hlt : lo < 2 ^ l) (hlo : BitVec.ofNat l lo = p) (hhi : BitVec.ofNat k hi = q) :
    BitVec.ofNat (k + l) (lo + 2 ^ l * hi) = q ++ p := by
  subst hlo hhi
  refine BitVec.eq_of_toNat_eq ?_
  rw [BitVec.toNat_append, BitVec.toNat_ofNat, BitVec.toNat_ofNat, BitVec.toNat_ofNat, Nat.mod_eq_of_lt hlt, ← Nat.shiftLeft_add_eq_or_of_lt hlt,
    Nat.shiftLeft_eq, Nat.add_comm k, Nat.pow_add, Nat.mod_mul, Nat.add_mul_mod_self_left, Nat.mod_eq_of_lt hlt, Nat.add_mul_div_left _ _ (Nat.two_pow_pos l),
    Nat.div_eq_of_lt hlt, Nat.zero_add, Nat.add_comm, Nat.mul_comm]

theorem bits_lt (v lo n : Nat) : bits v lo n < 2 ^ n := Nat.mod_lt _ (Nat.two_pow_pos n)

theorem ofNat_bits_eq_extract {a : Nat} (ha : a < 2 ^ 32) (lo n : Nat) : BitVec.ofNat n (bits a lo n) = (BitVec.ofNat 32 a).extractLsb' lo n := by
  rw [ofNat_bits, extractLsb'_ofNat ha]

theorem satBits_lt (sg : Bool) (n w : Nat) : satBits sg n w < 2 ^ n := by
  have hpos := Nat.two_pow_pos n
  cases sg
  · simp only [satBits, Bool.false_eq_true, if_false]
    omega
  · rw [satBits, if_pos rfl, unsigned_eq_toNat]
    exact BitVec.isLt _

theorem ofNat_satBits_signed (n w : Nat) : BitVec.ofNat n (satBits true n w) = clamped n (BitVec.ofNat 32 w).toInt := by
  rw [← signed_eq_toInt, satBits, if_pos rfl, ofNat_unsigned]
  simp [clamped, clampSigned]

theorem ofNat_satBits_unsigned (n w : Nat) :
    BitVec.ofNat n (satBits false n w) = BitVec.ofInt n (max 0 (min (BitVec.ofNat 32 w).toInt ((2 ^ n : Nat) - 1))) := by
  rw [← signed_eq_toInt, satBits, if_neg (by decide), ← BitVec.ofInt_natCast, Int.toNat_of_nonneg (Int.le_max_left ..)]

theorem satBytes_lt (sg : Bool) (v w : Nat) : satBits sg 8 v + 2 ^ 8 * satBits sg 8 w < 2 ^ 16 := by
  have hv := satBits_lt sg 8 v
  have hw := satBits_lt sg 8 w
  omega

theorem ofNat_unpackBits {a : Nat} (ha : a < 2 ^ 32) (m : BitVec 3) (b : Nat) :
    BitVec.ofNat 32 (unpackBits m a b) =
      let n := if m.toNat < 2 then 8 else if m.toNat < 4 then 16 else 4
      let f := (BitVec.ofNat 32 a).extractLsb' (n * (b % (32 / n))) n
      if m.getLsbD 0 then f.signExtend 32 else f.setWidth 32 := by
  dsimp only
  rw [← ofNat_extended_field ha, BitVec.getLsbD, Nat.testBit_zero, unpackBits]
  simp only [decide_eq_true_eq]

/-! SHFL (08 R199) and VOTE (08 R200) -/

theorem shuffleSource_eq (m : BitVec 3) (t n : Nat) : shuffleSource m t n = shflSource m t n := by
  obtain rfl | rfl | rfl | rfl | rfl | rfl | rfl | rfl := mode_cases m
  · rfl
  · show (if t < n then none else some (t - n)) = if n ≤ t then some (t - n) else none
    rw [← ite_not]
    exact if_congr not_lt rfl rfl
  · show (if 31 < t + n then none else some (t + n)) = if t + n < 32 then some (t + n) else none
    rw [← ite_not]
    exact if_congr (by omega) rfl rfl
  all_goals rfl

theorem active_and (m q : Mask) : active (m &&& q) = (active m).filter (has q) := by
  rw [active, active, List.filter_filter]
  refine List.filter_congr fun t _ => ?_
  rw [has, BitVec.getLsbD_and, Bool.and_comm]
  rfl

/-! Forms by a code of seven bits -/

theorem code_cases (m : BitVec 7) : m = 0 ∨ m = 1 ∨ m = 2 ∨ 3 ≤ m.toNat := by
  revert m
  decide

/-- No code past 2 is one of the first three. -/
theorem beq_first_codes {m : BitVec 7} (h : 3 ≤ m.toNat) : (m == 0) = false ∧ (m == 1) = false ∧ (m == 2) = false := by
  refine ⟨beq_eq_false_iff_ne.mpr ?_, beq_eq_false_iff_ne.mpr ?_, beq_eq_false_iff_ne.mpr ?_⟩ <;> (rintro rfl; simp at h)

/-! PRFX (08 R202) -/

/-- The greatest of signed words, in the numbers they hold. -/
theorem toInt_foldl_max (v : Nat → Nat) (us : List Nat) (r : Nat) :
    (BitVec.ofNat 32 (us.foldl (fun r u => if signed 32 r < signed 32 (v u) then v u else r) r)).toInt =
      (us.map fun u => (BitVec.ofNat 32 (v u)).toInt).foldl max (BitVec.ofNat 32 r).toInt := by
  induction us generalizing r with
  | nil => rfl
  | cons u us ih =>
    rw [List.foldl_cons, ih, List.map_cons, List.foldl_cons, signed_eq_toInt, signed_eq_toInt]
    congr 1
    split_ifs with hlt
    · exact (max_eq_right hlt.le).symm
    · exact (max_eq_left (not_lt.mp hlt)).symm

theorem scan_max {m : BitVec 7} (hm : 3 ≤ m.toNat) (ts : List Nat) (v : Nat → Nat) (t : Nat) : BitVec.ofNat 32 (scan m ts v t) =
    BitVec.ofInt 32 (((ts.filter (· ≤ t)).map fun u => (BitVec.ofNat 32 (v u)).toInt).foldl max (-2 ^ 31)) := by
  obtain ⟨h0, h1, h2⟩ := beq_first_codes hm
  rw [show (-2 ^ 31 : Int) = (BitVec.ofNat 32 (2 ^ 31)).toInt from by decide, ← toInt_foldl_max, BitVec.ofInt_toInt]
  simp only [scan, h0, h1, h2, Bool.false_eq_true, if_false]

/-! REBAL (08 R205) -/

/-- The rows of ascending threads: element f is in the first row whose end lies past f. -/
theorem rowOf_eq (len : Nat → Nat) {ts : List Nat} (hts : ts.Pairwise (· < ·)) (f : Nat) :
    rowOf (ts.map fun t => (t, len t)) f =
      (ts.find? fun u => f < ((ts.filter (· ≤ u)).map len).sum).map fun u => (u, f - ((ts.filter (· < u)).map len).sum) := by
  induction ts generalizing f with
  | nil => rfl
  | cons t ts ih =>
    obtain ⟨hlt, hts⟩ := List.pairwise_cons.mp hts
    have hnone : ts.filter (· ≤ t) = [] := List.filter_eq_nil_iff.mpr fun u hu => by simpa using hlt u hu
    have hnone' : ts.filter (· < t) = [] := List.filter_eq_nil_iff.mpr fun u hu => by simpa using (hlt u hu).le
    rw [List.map_cons, rowOf]
    split_ifs with hf
    · simp [hnone, hnone', hf]
    · have hle {u : Nat} (hu : u ∈ ts) : (((t :: ts).filter (· ≤ u)).map len).sum = len t + ((ts.filter (· ≤ u)).map len).sum := by
        simp [(hlt u hu).le]
      have hbelow {u : Nat} (hu : u ∈ ts) : (((t :: ts).filter (· < u)).map len).sum = len t + ((ts.filter (· < u)).map len).sum := by
        simp [hlt u hu]
      have hfind : (ts.find? fun u => f < (((t :: ts).filter (· ≤ u)).map len).sum) =
          ts.find? fun u => f - len t < ((ts.filter (· ≤ u)).map len).sum := by
        refine List.find?_congr fun u hu => decide_eq_decide.mpr ?_
        rw [hle hu]
        omega
      rw [ih hts, List.find?_cons_of_neg (by simpa [hnone] using hf), hfind]
      refine Option.map_congr fun u hu => ?_
      rw [hbelow (List.mem_of_find?_eq_some hu), Nat.sub_add_eq]

theorem ofNat_row_offset (u o : Nat) : BitVec.ofNat 64 (u + 2 ^ 32 * (o % 2 ^ 32)) = BitVec.ofNat 64 (u + 2 ^ 32 * o) := by
  refine BitVec.eq_of_toNat_eq ?_
  rw [BitVec.toNat_ofNat, BitVec.toNat_ofNat]
  omega

/-! Results in registers -/

/-- FCLS, PACK, UNPK, SHFL, VOTE to a register, RDFL, PRFX, REBAL and MASK (08 R191, R197 to R202, R205, R206). -/
theorem laneResultsPart : LaneResultsPart := by
  intro i s e r x d n f h hf
  cases i <;> simp only [laneValue, Option.some.injEq, reduceCtorEq, Prod.mk.injEq] at hf
  case vote z m d' a =>
    split_ifs at hf with hmask hcount
    · cases hf
      subst hmask
      exact h.computes_put (Eq.refl (execVote ..)) rfl fun _ => rfl
    · cases hf
      subst hcount
      exact h.computes_put (Eq.refl (execVote ..)) rfl fun _ => congrArg (fun l => BitVec.ofNat 32 (List.length l)) (active_and ..)
  case rdfl z d' a b =>
    by_cases hact : e.act = 0
    · rw [if_pos hact] at hf
      cases hf
    · rw [if_neg hact] at hf
      cases hf
      exact h.computes_put (Eq.refl (execRdfl ..)) ((if_neg hact).trans (by simp only [beq_iff_eq])) fun _ => rfl
  all_goals obtain ⟨rfl, rfl, rfl, rfl⟩ := hf
  case fcls => exact h.computes_put rfl rfl fun _ => rfl
  case pack z m d a b x =>
    refine h.computes_word (Eq.refl (execPack ..)) rfl fun t => ?_
    have hbits (c : BitVec 7) (lo : Nat) := ofNat_bits_eq_extract (get_one_lt e x c t) lo 16
    have hsigned (n : Nat) := ofNat_append (satBits_lt true n (e.get x a 1 t)) (ofNat_satBits_signed ..) (ofNat_satBits_signed n (e.get x b 1 t))
    have hunsigned (n : Nat) := ofNat_append (satBits_lt false n (e.get x a 1 t)) (ofNat_satBits_unsigned ..) (ofNat_satBits_unsigned n (e.get x b 1 t))
    obtain rfl | rfl | rfl | rfl | rfl | rfl | rfl | rfl := mode_cases m
    · exact ofNat_append (bits_lt ..) (hbits a 0) (hbits b 0)
    · exact ofNat_append (bits_lt ..) (hbits a 16) (hbits b 16)
    · exact hsigned 16
    · exact hunsigned 16
    · exact ofNat_append (satBytes_lt ..) (hsigned 8) (hbits d 16)
    · exact ofNat_append (bits_lt ..) (hbits d 0) (hsigned 8)
    · exact ofNat_append (satBytes_lt ..) (hunsigned 8) (hbits d 16)
    · exact ofNat_append (bits_lt ..) (hbits d 0) (hunsigned 8)
  case unpk => exact h.computes_word rfl rfl fun t => ofNat_unpackBits (get_one_lt ..) _ _
  case shfl z m d a b => exact h.computes_put (Eq.refl (execShfl ..)) rfl fun t => shuffleSource_eq m t (e.get 0 b 1 t % 32) ▸ rfl
  case prfx z d a m =>
    refine h.computes_put (Eq.refl (execPrfx ..)) rfl fun t => ?_
    obtain rfl | rfl | rfl | hm := code_cases m
    · exact congrArg _ (foldl_add_eq_sum ..)
    · exact congrArg _ (foldl_add_eq_sum ..)
    · exact congrArg _ (foldl_add_eq_sum ..)
    · obtain ⟨k, hk⟩ := Nat.exists_eq_add_of_le' hm
      rw [hk]
      exact (scan_max hm ..).trans ((BitVec.ofNat_toNat ..).trans (BitVec.setWidth_eq _)).symm
  case rebal z d a b =>
    refine h.computes_put (Eq.refl (execRebal ..)) rfl fun t => ?_
    rw [rowOf_eq (e.get 0 a 1) (show e.ts.Pairwise (· < ·) from active_sorted e.act)]
    cases List.find? _ _
    · rfl
    · exact ofNat_row_offset ..
  case mask z d b =>
    refine h.computes_put (Eq.refl (execMask ..)) rfl fun t => ?_
    obtain rfl | rfl | rfl | hb := code_cases b
    · rfl
    · rfl
    · rfl
    · obtain ⟨k, hk⟩ := Nat.exists_eq_add_of_le' hb
      obtain ⟨h0, h1, h2⟩ := beq_first_codes hb
      simp only [h0, h1, h2, hk, Bool.false_eq_true, if_false]

/-! Predicates (08 R200, R203) -/

/-- An instruction that leaves its strand changed in registers and predicates alone, and goes on. -/
theorem Issues.computes_strand {i : Instr} {s u : State} {e : Env} {r : Run} {st1 : Strand} {what : Strand → Strand → Prop} (h : Issues i s e r)
    (hx : exec i s = .next (e.next u)) (hu : OnlyStrand (paid i e s) u e.k st1) (hrest : st1 = { e.st with v := st1.v, s := st1.s, p := st1.p })
    (hw : what e.st st1) : Computes i s e r e.p.nfr fun st st' => SameAccs st st' ∧ what st st' :=
  have ⟨ho, ha⟩ := h.onlyRegs_of_rest hrest
  computesFrom_of_next (what := fun st st' => SameAccs st st' ∧ what st st') h rfl hx hu ho ⟨ha, hw⟩

theorem Issues.computes_pred {i : Instr} {s : State} {e : Env} {r : Run} {body : Env → State → State} {p : Nat} {val : Mask} {f : Nat → Bool}
    (h : Issues i s e r) (hx : exec i s = issue i s body) (hbody : body e (paid i e s) = e.next (e.putPred p val (paid i e s)))
    (hval : ∀ t, t < 32 → has val t = f t) : Computes i s e r e.p.nfr fun st st' => SameAccs st st' ∧ WritesPred st st' e.act p f :=
  h.computes_strand (hx.trans ((issue_body body h).trans (congrArg _ hbody))) (putPred_onlyStrand (paid_strand_same i e s) p val)
    (by rw [Strand.setP_rest]) (setP_writesPred fun t ht _ => hval t ht)

theorem has_ite_all (b : Bool) {t : Nat} (ht : t < 32) : has (if b then 0xFFFFFFFF else 0) t = b := by
  cases b
  · simp [has]
  · exact has_all ht

section
variable (e : Env) (a : BitVec 7)

theorem yes_eq_act : decide (e.yes a = e.act) = e.ts.all fun t => e.st.pred a.toNat t := by
  rw [Bool.eq_iff_iff, decide_eq_true_iff, List.all_eq_true]
  constructor
  · intro hall
    have hself : e.ts.filter (has (e.st.pmask a.toNat)) = e.ts := (active_and ..).symm.trans (congrArg active hall)
    exact List.filter_eq_self.mp hself
  · intro hall
    have hself : active (e.yes a) = active e.act := (active_and ..).trans (List.filter_eq_self.mpr hall)
    rw [← maskOf_active (e.yes a), hself, maskOf_active]

theorem yes_ne_zero : decide (e.yes a ≠ 0) = e.ts.any fun t => e.st.pred a.toNat t := by
  have hnil : active (e.yes a) = [] ↔ e.yes a = 0 :=
    ⟨fun hnil => by rw [← maskOf_active (e.yes a), hnil]; rfl, fun hzero => by rw [hzero]; rfl⟩
  rw [Bool.eq_iff_iff, decide_eq_true_iff, ne_eq, ← hnil, Env.yes, active_and, List.filter_eq_nil_iff, List.any_eq_true]
  simp only [not_forall, not_not, exists_prop]
  rfl

end

/-- All values are one where all are the lowest thread's. -/
theorem all_eq_lowest (e : Env) (v : Nat → Nat) : (e.ts.all fun t => v t == v (lowest e.act)) = e.ts.all fun t => e.ts.all fun u => v t == v u := by
  rw [Bool.eq_iff_iff]
  simp only [List.all_eq_true, beq_iff_eq]
  refine ⟨fun hall t ht u hu => (hall t ht).trans (hall u hu).symm, fun hall t ht => ?_⟩
  have hact : e.act ≠ 0 := fun hzero => by simp [ts_eq_nil hzero] at ht
  exact hall t ht _ (lowest_mem_ts hact)

/-! CONF (08 R203) -/

/-- The strand with CONF's register and predicate: the threads of the key below each one, and whether there is none. -/
def Env.confStrand (e : Env) (d b : BitVec 7) (key : Nat → Nat) : Strand :=
  (e.st.setEachGroup d.toNat 1 (active e.act) fun t => (maskOf (e.sameKey key t)).toNat).setP b.toNat e.act (maskWhere fun t => (e.sameKey key t).isEmpty)

section
variable (e : Env) (d b : BitVec 7) (key : Nat → Nat)

theorem confStrand_rest : e.confStrand d b key =
    { e.st with v := (e.confStrand d b key).v, s := (e.confStrand d b key).s, p := (e.confStrand d b key).p } := by
  rw [Env.confStrand, Strand.setP_rest, Strand.setEachGroup_rest]

theorem confStrand_sreg (c : Nat) : (e.confStrand d b key).sreg c = e.st.sreg c := by
  rw [Env.confStrand, Strand.sreg_setP]
  exact (setEachGroup_writesVector ..).uni c

theorem confStrand_vreg (c : Nat) {t : Nat} (ht : t < 32) :
    (e.confStrand d b key).vreg c t = if has e.act t ∧ c = d.toNat then maskOf (e.sameKey key t) else e.st.vreg c t := by
  rw [Env.confStrand, Strand.vreg_setP, (setEachGroup_writesVector ..).vec c t ht]
  by_cases hc : c = d.toNat
  · subst hc
    simp
  · rw [if_neg (by omega), if_neg (fun hand => hc hand.2)]

theorem confStrand_pred (q : Nat) {t : Nat} (ht : t < 32) :
    (e.confStrand d b key).pred q t = if q = b.toNat ∧ b ≠ 0 ∧ has e.act t then (e.sameKey key t).isEmpty else e.st.pred q t := by
  have hb : b.toNat ≠ 0 ↔ b ≠ 0 := not_congr (BitVec.toNat_inj (y := 0))
  rw [Env.confStrand, pred_setP _ _ _ _ _ ht, has_maskWhere _ ht, Strand.pred, (setEachGroup_writesVector ..).pred]
  exact if_congr (and_congr_right' (and_congr_left' hb)) rfl rfl

end

theorem exec_conf {z : BitVec 1} {d a b : BitVec 7} {s : State} {e : Env} {r : Run} (h : Issues (.conf z d a b) s e r) :
    exec (.conf z d a b) s = .next (e.next (e.putPred b.toNat (maskWhere fun t => (e.sameKey (e.get 0 a e.w) t).isEmpty)
      (e.put 0 d 1 (fun t => (maskOf (e.sameKey (e.get 0 a e.w) t)).toNat) (paid (.conf z d a b) e s)))) :=
  (Eq.refl (execConf ..)).trans (issue_body _ h)

/-- VOTE to a predicate, CONF, and RDFL of no active thread (08 R200, R201, R203). -/
theorem lanePredicatesPart : LanePredicatesPart := by
  refine ⟨fun z m d a s e r h hm => ?_, fun z d a b s e r h => ?_, fun z d a b s e r h hact => ?_⟩
  · obtain rfl | rfl | rfl := hm
    · exact h.computes_pred (Eq.refl (execVote ..)) rfl fun t ht => (has_ite_all _ ht).trans (yes_eq_act e a)
    · exact h.computes_pred (Eq.refl (execVote ..)) rfl fun t ht => (has_ite_all _ ht).trans (yes_ne_zero e a)
    · exact h.computes_pred (Eq.refl (execVote ..)) rfl fun t ht => (has_ite_all _ ht).trans (all_eq_lowest e _)
  · exact h.computes_strand (exec_conf h) (((OnlyStrand.refl (paid_strand_same _ e s)).onStrand _).onStrand _) (confStrand_rest e d b (e.get 0 a e.w))
      ⟨confStrand_sreg e d b _, fun c t ht => confStrand_vreg e d b _ c ht, fun q t ht => confStrand_pred e d b _ q ht⟩
  · exact h.computes_nothing (((Eq.refl (execRdfl ..)).trans (issue_body _ h)).trans (congrArg _ (if_pos hact)))

/-- Settles O5: an instruction puts its value for each thread, REBAL's by the row search over ascending threads; VOTE and CONF set a predicate; RDFL of no
active thread only goes on. -/
theorem laneResults : Obligations.LaneResults := ⟨laneResultsPart, lanePredicatesPart⟩

end Sys2Proof.Machine
end

section
/-!
PROOFS. Banks of tables and models: STBL and SLD read and check an image and start its copy, TSWP and SSW exchange the banks (09 R209, R211 to R213,
R220, R224, R241).
-/

namespace Sys2Proof.Machine

theorem bits_one_eq_toNat {w : Nat} (x : BitVec w) (i : Nat) : bits x.toNat i 1 = (x.getLsbD i).toNat := by
  cases h : x.getLsbD i with
  | false => exact (bits_one_eq_zero_iff x i).mpr h
  | true => exact bits_one_eq_one h

/-! The ends of an instruction from a state that differs from the charged one -/

theorem chargeHomes_strand (s : State) (core ctx : Nat) (ls : List Nat) (k : Nat) : (s.chargeHomes core ctx ls).strand k = s.strand k := by
  obtain ⟨cs, n, h⟩ := chargeHomes_accounted s core ctx ls
  rw [h]
  rfl

theorem chargeHomes_cur (s : State) (core ctx : Nat) (ls : List Nat) : (s.chargeHomes core ctx ls).cur = s.cur := by
  obtain ⟨cs, n, h⟩ := chargeHomes_accounted s core ctx ls
  rw [h, accounted_cur]

/-- A body that raises a cause stops the strand from the state it raises it in. -/
theorem stopsFrom_of_raise {i : Instr} {s base : State} {e : Env} {cause qual addr : Nat} (hx : exec i s = .next (e.raise base cause qual addr))
    (hs : base.strand e.k = some e.st) (hc : cause ≠ 0xB0 ∧ cause ≠ 0xB1 := by decide) : StopsFrom i s base e cause qual addr := by
  obtain ⟨st', hstop⟩ := raise_stops (e := e) cause qual addr 0 hs hc
  exact ⟨_, st', hx, hstop⟩

/-- A body that starts an operation and goes on launches it. -/
theorem Issues.launches_started {i : Instr} {s base : State} {e : Env} {r : Run} {o : Op} (h : Issues i s e r)
    (hx : exec i s = .next (e.next (e.start o base).2)) (hs : base.strand e.k = some e.st) (hcur : base.cur = (paid i e s).cur) :
    Launches i s base e r o := by
  obtain ⟨hstart, hcur1⟩ := start_starts o hs h.path_eq
  obtain ⟨st2, hret⟩ := h.retires (hcur1.trans hcur) hstart.strand (by simp [Env.started]) (by simp [Env.started])
  exact ⟨_, _, _, st2, hx, hstart, hret⟩

/-! What the instructions come to -/

/-- The state in which k elements of four bytes of an image have been read (14 R364). -/
def Env.imageRead (e : Env) (u : State) (a k : Nat) : State := u.chargeHomes e.core e.ctx (objectLines u e.die e.ctx a 4 k)

section
variable {i : Instr} {s : State} {e : Env} {r : Run} {a k : Nat}

theorem imageRead_stops {cause qual addr : Nat} (hx : exec i s = .next (e.raise (e.imageRead (paid i e s) a k) cause qual addr))
    (hc : cause ≠ 0xB0 ∧ cause ≠ 0xB1 := by decide) : StopsFrom i s (e.imageRead (paid i e s) a k) e cause qual addr :=
  stopsFrom_of_raise hx ((chargeHomes_strand ..).trans (paid_strand_same i e s)) hc

theorem Issues.imageRead_launches {o : Op} (h : Issues i s e r) (hx : exec i s = .next (e.next (e.start o (e.imageRead (paid i e s) a k)).2)) :
    Launches i s (e.imageRead (paid i e s) a k) e r o :=
  h.launches_started hx ((chargeHomes_strand ..).trans (paid_strand_same i e s)) (chargeHomes_cur ..)

end

section
variable {z : BitVec 1} {n p : BitVec 7} {l : BitVec 4} {s : State} {e : Env} {r : Run} {hd : List Byte}

theorem exec_stbl_read (h : Issues (.stbl z n p l) s e r) (hhd : readObject (paid (.stbl z n p l) e s) e.die e.ctx (e.st.upair p.toNat) 4 16 = .ok hd) :
    exec (.stbl z n p l) s = .next (
      let u := paid (.stbl z n p l) e s
      let a := e.st.upair p.toNat
      let k := (parseTable hd).nseg
      if k = 0 ∨ 1020 < k then e.raise (e.imageRead u a 16) 0xA1 0x1F a
      else match readObject u e.die e.ctx (a + 64) 4 (4 * k) with
        | .error f => e.raise (e.imageRead u a 16) f.cause f.qual a
        | .ok body =>
          if !tableValid (hd ++ body) then e.raise (e.imageRead u a (16 + 4 * k)) 0xA1 0x1F a
          else e.next (e.start { kind := .stbl n.toNat (hd ++ body) } (e.imageRead u a (16 + 4 * k))).2) := by
  rw [show exec (.stbl z n p l) s = execStbl z n p l s from rfl, execStbl, issue_body _ h]
  dsimp only
  rw [hhd]
  rfl

theorem exec_sld_read (h : Issues (.sld z n p l) s e r) (hhd : readObject (paid (.sld z n p l) e s) e.die e.ctx (e.st.upair p.toNat) 4 32 = .ok hd) :
    exec (.sld z n p l) s = .next (
      let u := paid (.sld z n p l) e s
      let a := e.st.upair p.toNat
      let k := (parseModel hd).size / 4
      if !(parseModel hd).headerOk then e.raise (e.imageRead u a 32) 0xA1 0 a
      else match readObject u e.die e.ctx (a + 128) 4 (k - 32) with
        | .error f => e.raise (e.imageRead u a 32) f.cause f.qual a
        | .ok body =>
          if !(parseModel (hd ++ body)).bodyOk then e.raise (e.imageRead u a k) 0xA1 0 a
          else e.next (e.start { kind := .sld n.toNat (hd ++ body) } (e.imageRead u a k)).2) := by
  rw [show exec (.sld z n p l) s = execSld z n p l s from rfl, execSld, issue_body _ h]
  dsimp only
  rw [hhd]
  rfl

variable {c : Ctx}

theorem exec_tswp_ctx (h : Issues (.tswp z n l) s e r) (hc : s.ctx e.ctx = some c) :
    exec (.tswp z n l) s = .next (
      let u := paid (.tswp z n l) e s
      if c.tfilled.getLsbD (2 * n.toNat + (1 - (c.tactive.getLsbD n.toNat).toNat)) = false then e.raise u 0xA1 0x20
      else e.next (e.start { kind := .bankSwap false n.toNat u.allCores } (u.setCtx e.ctx { c with tactive := c.tactive ^^^ (1 <<< n.toNat) })).2) := by
  have hc' : (paid (.tswp z n l) e s).ctx e.ctx = some c := by rw [paid_eq]; exact hc
  rw [show exec (.tswp z n l) s = execTswp z n l s from rfl, execTswp, issue_body _ h]
  dsimp only
  rw [hc']
  simp only [bits_one_eq_zero_iff, bits_one_eq_toNat c.tactive]

theorem exec_ssw_ctx (h : Issues (.ssw z n l) s e r) (hc : s.ctx e.ctx = some c) :
    exec (.ssw z n l) s = .next (
      let u := paid (.ssw z n l) e s
      if c.mfilled.getLsbD (2 * n.toNat + (1 - (c.mactive.getLsbD n.toNat).toNat)) = false then e.raise u 0xA1 0x20
      else e.next (e.start { kind := .bankSwap true n.toNat u.allCores } (u.setCtx e.ctx { c with mactive := c.mactive ^^^ (1 <<< n.toNat) })).2) := by
  have hc' : (paid (.ssw z n l) e s).ctx e.ctx = some c := by rw [paid_eq]; exact hc
  rw [show exec (.ssw z n l) s = execSsw z n l s from rfl, execSsw, issue_body _ h]
  dsimp only
  rw [hc']
  simp only [bits_one_eq_zero_iff, bits_one_eq_toNat c.mactive]

end

theorem paid_allCores (i : Instr) (e : Env) (s : State) : (paid i e s).allCores = s.allCores := by
  rw [paid_eq]
  rfl

/-- Settles O33: each instruction is its equation above, and each branch of it raises or starts an operation. -/
theorem bankLoads : Obligations.BankLoads := by
  unfold Obligations.BankLoads
  intro i model z n p l s e r h u a cores read
  refine ⟨?_, ?_, ?_, ?_⟩
  · rintro rfl - hd hhd k
    have hx := exec_stbl_read h hhd
    refine ⟨fun hk => imageRead_stops (hx.trans (congrArg _ (if_pos hk))), fun hk1 hk2 body hbody => ?_⟩
    dsimp only at hx
    rw [if_neg (by omega), hbody] at hx
    refine ⟨fun hv => imageRead_stops (hx.trans (congrArg _ (if_pos (by rw [hv]; rfl)))), fun hv =>
      h.imageRead_launches (hx.trans (congrArg _ (if_neg (by rw [hv]; decide))))⟩
  · rintro rfl - hd hhd k
    have hx := exec_sld_read h hhd
    refine ⟨fun hk => imageRead_stops (hx.trans (congrArg _ (if_pos (by rw [hk]; rfl)))), fun hk body hbody => ?_⟩
    dsimp only at hx
    rw [if_neg (by rw [hk]; decide), hbody] at hx
    refine ⟨fun hv => imageRead_stops (hx.trans (congrArg _ (if_pos (by rw [hv]; rfl)))), fun hv =>
      h.imageRead_launches (hx.trans (congrArg _ (if_neg (by rw [hv]; decide))))⟩
  · rintro rfl - - c hc
    have hx := exec_tswp_ctx h hc
    dsimp only at hx
    refine ⟨fun hf => stopsWhole_of_raise (hx.trans (congrArg _ (if_pos hf))) (by decide), fun hf => ?_⟩
    rw [if_neg (by rw [hf]; decide), paid_allCores] at hx
    exact h.launches_started hx (paid_strand_same _ e s) rfl
  · rintro rfl - - c hc
    have hx := exec_ssw_ctx h hc
    dsimp only at hx
    refine ⟨fun hf => stopsWhole_of_raise (hx.trans (congrArg _ (if_pos hf))) (by decide), fun hf => ?_⟩
    rw [if_neg (by rw [hf]; decide), paid_allCores] at hx
    exact h.launches_started hx (paid_strand_same _ e s) rfl

end Sys2Proof.Machine
end

section
/-!
PROOFS. SJN: a recovery strand merges the results of its active threads into their sources, releases the others, and drains to its end (09 R230, R234,
R238).
-/

namespace Sys2Proof.Machine

/-! Words written to registers of one thread -/

/-- A strand whose registers of thread t have taken the listed words. -/
def Strand.take (st : Strand) (t : Nat) (ps : List (Nat × Word)) : Strand := ps.foldl (fun st p => st.setV p.1 t p.2) st

theorem Strand.take_rest (st : Strand) (t : Nat) (ps : List (Nat × Word)) : st.take t ps = { st with v := (st.take t ps).v } := by
  unfold Strand.take
  induction ps generalizing st with
  | nil => rfl
  | cons p ps ih => rw [List.foldl_cons, ih, Strand.setV]

theorem Strand.vreg_take_other (st : Strand) {t q c : Nat} {ps : List (Nat × Word)} (ht : t < 32) (hq : q < 32) (h : q = t → ∀ p ∈ ps, p.1 ≠ c) :
    (st.take t ps).vreg c q = st.vreg c q := by
  unfold Strand.take
  induction ps generalizing st with
  | nil => rfl
  | cons p ps ih =>
    rw [List.foldl_cons, ih _ fun hqt x hx => h hqt x (List.mem_cons_of_mem _ hx), Strand.vreg_setV _ _ _ _ _ _ ht hq]
    exact if_neg fun hc => h hc.2 p List.mem_cons_self hc.1.symm

/-- Where no register is named twice, each holds its word. -/
theorem Strand.vreg_take_of_mem (st : Strand) {t : Nat} {ps : List (Nat × Word)} {p : Nat × Word} (ht : t < 32) (hps : (ps.map (·.1)).Nodup) (hp : p ∈ ps) :
    (st.take t ps).vreg p.1 t = p.2 := by
  unfold Strand.take
  induction ps generalizing st with
  | nil => cases hp
  | cons x ps ih =>
    obtain ⟨hx, hps'⟩ := List.nodup_cons.mp hps
    rw [List.foldl_cons]
    rcases List.mem_cons.mp hp with rfl | hp
    · have hlater : ∀ y ∈ ps, y.1 ≠ p.1 := fun y hy heq => hx (List.mem_map.mpr ⟨y, hy, heq⟩)
      exact ((st.setV p.1 t p.2).vreg_take_other ht ht fun _ => hlater).trans ((Strand.vreg_setV _ _ _ _ _ _ ht ht).trans (if_pos ⟨rfl, rfl⟩))
    · exact ih _ hps' hp

theorem nodup_fst_zip {α β : Type} {l : List α} (h : l.Nodup) (l' : List β) : ((l.zip l').map (·.1)).Nodup := by
  rw [show (l.zip l').map (·.1) = l.take (min l.length l'.length) from ?_]
  · exact h.sublist (List.take_sublist _ _)
  · induction l generalizing l' with
    | nil => rfl
    | cons x l ih => cases l' <;> simp_all [Nat.add_min_add_right]

/-! One merge -/

/-- A source once the entry of recovery thread n of strand st has been merged, where the thread is active, or released (09 R234, R238). -/
def RecEntry.merged (en : RecEntry) (st : Strand) (act : Mask) (n : Nat) (src : Strand) : Strand :=
  let src1 := if has act n then src.take en.srcThread (en.resRegs.zip (en.resRegs.map fun c => st.vreg c n)) else src
  { src1 with pending := src.pending - 1 }

theorem RecEntry.merged_rest (en : RecEntry) (st : Strand) (act : Mask) (n : Nat) (src : Strand) :
    en.merged st act n src = { src with v := (en.merged st act n src).v, pending := src.pending - 1 } := by
  unfold RecEntry.merged
  dsimp only
  split
  · rw [Strand.take_rest]
  · rfl

/-- An entry whose merge is due, without a sample, into a thread of a running strand other than the recovery strand k. -/
structure RecEntry.Plain (s : State) (k : Nat) (en : RecEntry) : Prop where
  done : en.done = false
  sample : en.sample = false
  handler : en.handler = false
  away : en.source ≠ k
  source : ∃ src, s.strand en.source = some src ∧ src.mode ≠ .stopped ∧ src.mode ≠ .handler ∧ has src.live en.srcThread = true

/-- What SJN does for one entry (09 R234, R238). -/
def mergeStep (k : Nat) (act : Mask) (s : State) (x : Nat × RecEntry) : State := if has act x.1 then mergeOne k s x.1 x.2 else s.release x.2

section
variable {s : State} {k n : Nat} {act : Mask} {en : RecEntry} {st src : Strand}

theorem imageHome_of_running (hsrc : s.strand k = some src) (hst : src.mode ≠ .stopped) (hha : src.mode ≠ .handler) : s.imageHome k = none := by
  unfold State.imageHome
  rw [hsrc]
  simp [hst, hha]

theorem release_plain (hdone : en.done = false) (hhandler : en.handler = false) (hsrc : s.strand en.source = some src) (hha : src.mode ≠ .handler) :
    s.release en = s.setStrand en.source { src with pending := src.pending - 1 } := by
  unfold State.release State.pendingLess
  rw [hsrc]
  simp [hdone, hhandler, hha]

theorem setStrand_setStrand_strand (s : State) (k j : Nat) (st st' : Strand) :
    ((s.setStrand k st).setStrand k st').strand j = (s.setStrand k st').strand j := by
  rw [State.strand_setStrand, State.strand_setStrand, State.strand_setStrand]
  split <;> rfl

/-- One merge changes its source alone. -/
theorem mergeStep_plain (h : en.Plain s k) (hst : s.strand k = some st) (hsrc : s.strand en.source = some src) :
    let t := mergeStep k act s (n, en)
    t = { s with strands := t.strands } ∧ ∀ j, t.strand j = if j = en.source then some (en.merged st act n src) else s.strand j := by
  obtain ⟨hdone, hsample, hhandler, -, src', hsrc', hstop, hha, hlive⟩ := h
  obtain rfl : src' = src := Option.some.inj (hsrc'.symm.trans hsrc)
  have hhome : en.stored s = none := by
    unfold RecEntry.stored
    rw [imageHome_of_running hsrc hstop hha, ite_self]
  have hliving : has (en.live s) en.srcThread = true := by
    unfold RecEntry.live
    rw [hhome, hsrc]
    simpa [hhandler] using hlive
  unfold mergeStep RecEntry.merged
  dsimp only
  by_cases hact : has act n = true
  · have hgive : en.give s (en.resRegs.map fun c => st.vreg c n) =
        s.setStrand en.source (src'.take en.srcThread (en.resRegs.zip (en.resRegs.map fun c => st.vreg c n))) := by
      unfold RecEntry.give
      rw [hhome]
      exact onStrand_of_some hsrc _
    have hone : mergeOne k s n en = (en.give s (en.resRegs.map fun c => st.vreg c n)).release en := by
      unfold mergeOne
      rw [hst]
      simp [hliving, hdone, hsample]
    rw [if_pos hact, if_pos hact, hone, hgive, release_plain hdone hhandler (State.strand_setStrand_same _ _ _) (by rw [Strand.take_rest]; exact hha)]
    refine ⟨rfl, fun j => ?_⟩
    rw [setStrand_setStrand_strand, State.strand_setStrand, Strand.take_rest]
  · rw [if_neg hact, if_neg hact, release_plain hdone hhandler hsrc hha]
    exact ⟨rfl, fun j => State.strand_setStrand _ _ _ _⟩

end

/-! All merges -/

/-- Strand k once all entries have been merged or released, in their order. -/
def mergedBy (st : Strand) (act : Mask) (k : Nat) (es : List RecEntry) (src : Strand) : Strand :=
  (es.mapIdx fun n en => (n, en)).foldl (fun src x => if x.2.source = k then x.2.merged st act x.1 src else src) src

section
variable (st : Strand) (act : Mask) (k : Nat)

theorem mergedBy_append (es : List RecEntry) (en : RecEntry) (src : Strand) : mergedBy st act k (es ++ [en]) src =
    if en.source = k then en.merged st act es.length (mergedBy st act k es src) else mergedBy st act k es src := by
  rw [mergedBy, List.mapIdx_concat, List.foldl_append]
  rfl

theorem mergedBy_rest (es : List RecEntry) (src : Strand) : mergedBy st act k es src =
    { src with v := (mergedBy st act k es src).v, pending := src.pending - (es.filter fun en => en.source == k).length } := by
  induction es using List.reverseRecOn with
  | nil => rfl
  | append_singleton es en ih =>
    rw [mergedBy_append, List.filter_append, List.length_append]
    by_cases h : en.source = k
    · rw [if_pos h, RecEntry.merged_rest, ih]
      simp [h, Nat.sub_sub]
    · rw [if_neg h, List.filter_cons_of_neg (by simpa using h)]
      exact ih

variable {st act k} {es : List RecEntry} {src : Strand} {c q : Nat}

theorem vreg_merged_other {en : RecEntry} {n : Nat} (ht : en.srcThread < 32) (hq : q < 32) (h : en.srcThread = q → has act n = true → c ∉ en.resRegs) :
    (en.merged st act n src).vreg c q = src.vreg c q := by
  unfold RecEntry.merged
  dsimp only
  split
  · rename_i hact
    exact src.vreg_take_other ht hq fun hqt p hp heq => h hqt.symm hact (heq ▸ (List.of_mem_zip hp).1)
  · rfl

theorem vreg_merged_result {en : RecEntry} {n : Nat} (ht : en.srcThread < 32) (hregs : en.resRegs.Nodup) (hact : has act n = true) (hc : c ∈ en.resRegs) :
    (en.merged st act n src).vreg c en.srcThread = st.vreg c n := by
  obtain ⟨i, hi, hget⟩ := List.getElem_of_mem hc
  have hmem : (c, st.vreg c n) ∈ en.resRegs.zip (en.resRegs.map fun c => st.vreg c n) :=
    List.mem_iff_getElem.mpr ⟨i, by simpa using hi, by simp [hget]⟩
  have htaken := src.vreg_take_of_mem ht (nodup_fst_zip hregs _) hmem
  unfold RecEntry.merged
  dsimp only
  rw [if_pos hact]
  exact htaken

/-- A register that no merge of an active thread names keeps its word. -/
theorem vreg_mergedBy_other (hq : q < 32) (ht : ∀ en ∈ es, en.srcThread < 32)
    (h : ∀ (n : Nat) (en : RecEntry), es[n]? = some en → en.source = k → en.srcThread = q → has act n = true → c ∉ en.resRegs) :
    (mergedBy st act k es src).vreg c q = src.vreg c q := by
  induction es using List.reverseRecOn with
  | nil => rfl
  | append_singleton es en ih =>
    have hes : (mergedBy st act k es src).vreg c q = src.vreg c q :=
      ih (fun x hx => ht x (List.mem_append_left _ hx)) fun n x hx => h n x ((List.getElem?_append_left (List.getElem?_eq_some_iff.mp hx).1).trans hx)
    rw [mergedBy_append]
    split
    · rename_i hk
      rw [vreg_merged_other (ht en (by simp)) hq (h es.length en (by simp) hk), hes]
    · exact hes

/-- A register that a merge of an active thread names holds the result, where no other merge is into the same thread. -/
theorem vreg_mergedBy_result {n : Nat} {en : RecEntry} (ht : ∀ en ∈ es, en.srcThread < 32) (hregs : ∀ en ∈ es, en.resRegs.Nodup)
    (hone : ∀ (n n' : Nat) (x y : RecEntry), es[n]? = some x → es[n']? = some y → x.source = y.source → x.srcThread = y.srcThread → n = n')
    (hn : es[n]? = some en) (hact : has act n = true) (hc : c ∈ en.resRegs) :
    (mergedBy st act en.source es src).vreg c en.srcThread = st.vreg c n := by
  induction es using List.reverseRecOn with
  | nil => simp at hn
  | append_singleton es last ih =>
    have hlast : (es ++ [last])[es.length]? = some last := by simp
    have hold {m : Nat} {x : RecEntry} (hx : es[m]? = some x) : (es ++ [last])[m]? = some x :=
      (List.getElem?_append_left (List.getElem?_eq_some_iff.mp hx).1).trans hx
    rw [mergedBy_append]
    rcases Nat.lt_or_ge n es.length with hlt | hge
    · have hn' : es[n]? = some en := (List.getElem?_append_left hlt).symm.trans hn
      have hes : (mergedBy st act en.source es src).vreg c en.srcThread = st.vreg c n :=
        ih (fun x hx => ht x (List.mem_append_left _ hx)) (fun x hx => hregs x (List.mem_append_left _ hx))
          (fun m m' x y hx hy => hone m m' x y (hold hx) (hold hy)) hn'
      split
      · rename_i hk
        rw [vreg_merged_other (ht last (by simp)) (ht en (List.mem_of_getElem? hn)) fun hthread =>
          absurd (hone n es.length en last hn hlast hk.symm hthread.symm) (by omega), hes]
      · exact hes
    · have hlen := (List.getElem?_eq_some_iff.mp hn).1
      obtain rfl : n = es.length := by simp at hlen; omega
      obtain rfl : last = en := Option.some.inj (hlast.symm.trans hn)
      rw [if_pos rfl]
      exact vreg_merged_result (ht last (by simp)) (hregs last (by simp)) hact hc

end

theorem strands_frame_trans {s u t : State} (hu : u = { s with strands := u.strands }) (ht : t = { u with strands := t.strands }) :
    t = { s with strands := t.strands } := by
  rw [ht, hu]

/-- The merges change the sources alone. -/
theorem foldl_mergeStep {s : State} {k : Nat} {act : Mask} {st : Strand} {es : List RecEntry} (h : ∀ en ∈ es, en.Plain s k) (hst : s.strand k = some st) :
    let t := (es.mapIdx fun n en => (n, en)).foldl (mergeStep k act) s
    t = { s with strands := t.strands } ∧ t.strand k = some st ∧ ∀ j, j ≠ k → t.strand j = (s.strand j).map (mergedBy st act j es) := by
  induction es using List.reverseRecOn with
  | nil => exact ⟨rfl, hst, fun j _ => Option.map_id'.symm ▸ rfl⟩
  | append_singleton es en ih =>
    obtain ⟨hframe, hk, hothers⟩ := ih fun x hx => h x (List.mem_append_left _ hx)
    dsimp only
    rw [List.mapIdx_concat, List.foldl_append]
    generalize (es.mapIdx fun n en => (n, en)).foldl (mergeStep k act) s = u at hframe hk hothers ⊢
    obtain ⟨hdone, hsample, hhandler, haway, src, hsrc, hstop, hha, hlive⟩ := h en (by simp)
    have husrc : u.strand en.source = some (mergedBy st act en.source es src) := by rw [hothers _ haway, hsrc]; rfl
    have hmode : (mergedBy st act en.source es src).mode = src.mode := by rw [mergedBy_rest]
    have hplain : en.Plain u k := ⟨hdone, hsample, hhandler, haway, _, husrc, hmode ▸ hstop, hmode ▸ hha, by rw [mergedBy_rest]; exact hlive⟩
    obtain ⟨hframe1, hstrand⟩ := mergeStep_plain (act := act) (n := es.length) hplain hk husrc
    refine ⟨?_, (hstrand k).trans ((if_neg haway.symm).trans hk), fun j hj => (hstrand j).trans ?_⟩
    · exact strands_frame_trans hframe hframe1
    · by_cases hjs : j = en.source
      · subst hjs
        rw [if_pos rfl, hsrc]
        exact congrArg some ((mergedBy_append ..).trans (if_pos rfl)).symm
      · rw [if_neg hjs, hothers j hj]
        congr 1
        funext x
        exact ((mergedBy_append ..).trans (if_neg (Ne.symm hjs))).symm

/-! The end of the recovery strand -/

/-- The open sets of an ending strand without operations become batches of it alone (03 R64; 14 R342). -/
theorem sealEnding_eq {s : State} {k : Nat} {st : Strand} (hs : s.strand k = some st) (hops : ∀ x ∈ s.ops, x.2.strand ≠ k) :
    let t := s.sealEnding k
    t = { s with strands := t.strands } ∧ (∀ j, j ≠ k → t.strand j = s.strand j) ∧
      ∃ st', t.strand k = some st' ∧ st' = { st with sealedB := st'.sealedB, finishedB := st'.finishedB, deferred := st'.deferred } := by
  unfold State.sealEnding
  rw [hs]
  dsimp only
  split
  · induction List.range 4 using List.reverseRecOn with
    | nil => exact ⟨rfl, fun _ _ => rfl, st, hs, rfl⟩
    | append_singleton as a ih =>
      rw [List.foldl_append, List.foldl_cons, List.foldl_nil]
      generalize as.foldl _ s = u at ih ⊢
      obtain ⟨hframe, hothers, st', hst', hrest⟩ := ih
      split
      · have huops : u.ops = s.ops := by rw [hframe]
        have hclosed : closedOps u.ops k a (rd 0 st'.sealedB a + 1) = u.ops := by
          refine (List.map_congr_left fun q hq => ?_).trans (List.map_id _)
          exact congrArg (Prod.mk q.1) (if_neg fun h => hops q (huops ▸ hq) h.1)
        obtain ⟨hstrand, hops', hframe'⟩ := seal_strand a hst'
        refine ⟨strands_frame_trans hframe ?_, fun j hj => ?_, _, hstrand, ?_⟩
        · rw [hops', hclosed] at hframe'
          exact hframe'
        · rw [seal_eq a hst', State.strand_setStrand, if_neg hj]
          exact ((State.strand_setStrand ..).trans (if_neg hj)).trans (hothers j hj)
        · rw [Strand.sealing, Strand.settles, Strand.joins, hrest]
      · exact ⟨hframe, hothers, st', hst', hrest⟩
  · exact ⟨rfl, fun _ _ => rfl, st, hs, rfl⟩

/-- A path with no thread left, at its end. -/
def Path.gone (p : Path) : Path := { p with act := 0, stack := [], ended := true, reissue := none }

/-- A recovery strand once SJN has released its threads. -/
def Strand.recovered (st : Strand) : Strand :=
  { (st.remove 0xFFFFFFFF) with
    recov := some [], mode := .exiting, path0 := st.path0.gone, path1 := st.path1.gone }

section
variable {z : BitVec 1} {s : State} {e : Env} {r : Run}

theorem exec_sjn_normal (h : Issues (.sjn z) s e r) (hrec : e.st.recov = none) : exec (.sjn z) s = .next (e.next (paid (.sjn z) e s)) := by
  rw [show exec (.sjn z) s = execSjn z s from rfl, execSjn, issue_body _ h]
  dsimp only
  rw [hrec]

theorem exec_sjn_recovery {es : List RecEntry} (h : Issues (.sjn z) s e r) (hrec : e.st.recov = some es) :
    exec (.sjn z) s = .next (((e.finish (some (e.pc + 4)) true ((es.mapIdx fun n en => (n, en)).foldl (mergeStep e.k e.act) (paid (.sjn z) e s))).onStrand e.k
      Strand.recovered).sealEnding e.k) := by
  rw [show exec (.sjn z) s = execSjn z s from rfl, execSjn, issue_body _ h, hrec]
  rfl

end

theorem ended_frame {s u v t : State} {k : Nat} {st : Strand} (hu : u = { s with strands := u.strands })
    (hv : v = { u with strands := v.strands, cores := v.cores, cur := v.cur }) (hlane : v.cur = none)
    (ht : t = { v.setStrand k st with strands := t.strands }) : t = { s with strands := t.strands, cores := t.cores, cur := none } := by
  rw [hlane] at hv
  rw [ht, hv, hu]
  rfl

/-- Settles O35: the merges change the sources alone, each its own way; the end of the strand changes the strand alone. -/
theorem recoveryEnds : Obligations.RecoveryEnds := by
  unfold Obligations.RecoveryEnds
  intro z s e r h
  refine ⟨fun hrec => ?_, fun es hrec hops hentries hone => ?_⟩
  · obtain ⟨st', hret⟩ := h.retires rfl (paid_strand_same _ e s) (congrArg Path.run h.path_eq.symm) rfl
    exact ⟨_, st', exec_sjn_normal h hrec, hret⟩
  have hplain : ∀ en ∈ es, en.Plain (paid (.sjn z) e s) e.k := by
    intro en hen
    obtain ⟨n, hn, rfl⟩ := List.getElem_of_mem hen
    obtain ⟨hdone, hsample, haway, -, -, hhandler, src, hsrc, hrest⟩ := hentries n _ (List.getElem?_eq_getElem hn)
    exact ⟨hdone, hsample, hhandler, haway, src, (paid_strand_other _ _ _ haway).trans hsrc, hrest⟩
  have hthreads : ∀ en ∈ es, en.srcThread < 32 ∧ en.resRegs.Nodup := by
    intro en hen
    obtain ⟨n, hn, rfl⟩ := List.getElem_of_mem hen
    obtain ⟨-, -, -, hregs, ht, -⟩ := hentries n _ (List.getElem?_eq_getElem hn)
    exact ⟨ht, hregs⟩
  obtain ⟨hmerged, hk, hothers⟩ := foldl_mergeStep (act := e.act) hplain (paid_strand_same _ e s)
  have hx := exec_sjn_recovery h hrec
  generalize (es.mapIdx fun n en => (n, en)).foldl (mergeStep e.k e.act) (paid (.sjn z) e s) = u at hmerged hk hothers hx
  obtain ⟨hpath, hrun, -, -⟩ := envOf_eq h.1 |>.2.2
  have hret := finish_retires (some (e.pc + 4)) true (by rw [hmerged]; exact paid_cur h) hk (hpath ▸ hrun) rfl
  generalize e.finish (some (e.pc + 4)) true u = v at hret hx
  rw [onStrand_of_some hret.strand] at hx
  have hvops : v.ops = s.ops := by rw [hret.package, hmerged]; exact paid_ops _ _ _
  obtain ⟨hframe, hsame, st', hst', hrest⟩ := sealEnding_eq (State.strand_setStrand_same v e.k _) (fun x hx => hops x (hvops ▸ hx))
  have hlane : v.cur = none := by rw [hret.lane]; rfl
  refine ⟨_, st', hx, (congrArg State.cur hframe).trans hlane, hst', by rw [hrest]; rfl, by rw [hrest]; rfl, by rw [hrest]; rfl, by rw [hrest]; rfl, ?_,
    fun k src hks hsrc => ⟨mergedBy e.st e.act k es src, ?_, mergedBy_rest .., fun c q hq => ⟨?_, ?_⟩⟩⟩
  · exact ended_frame hmerged hret.package hlane hframe
  · rw [hsame k hks, State.strand_setStrand, if_neg hks, hret.strands k hks, hothers k hks, paid_strand_other _ _ _ hks, hsrc]
    rfl
  · rintro n en hn rfl rfl hact hc
    exact vreg_mergedBy_result (fun x hx => (hthreads x hx).1) (fun x hx => (hthreads x hx).2) hone hn hact hc
  · exact vreg_mergedBy_other hq fun x hx => (hthreads x hx).1

end Sys2Proof.Machine
end

section
/-!
PROOFS. Regions: SRG answers the threads within bound and queues the others and the sampled ones; QSET, SCTR and SDIS act on a region (09 R226 to R231,
R235, R236, R242 to R244; 01 R22; 02 R49).
-/

namespace Sys2Proof.Machine

/-! Words written to registers of several threads -/

/-- A strand whose registers have taken the listed words of each thread of ts. -/
def Strand.takeAll (st : Strand) (ps : Nat → List (Nat × Word)) (ts : List Nat) : Strand := ts.foldl (fun st t => st.take t (ps t)) st

section
variable (st : Strand) {ps : Nat → List (Nat × Word)} {ts : List Nat} {c q : Nat}

theorem Strand.takeAll_rest (ps : Nat → List (Nat × Word)) (ts : List Nat) : st.takeAll ps ts = { st with v := (st.takeAll ps ts).v } := by
  unfold Strand.takeAll
  induction ts generalizing st with
  | nil => rfl
  | cons t ts ih => rw [List.foldl_cons, ih, Strand.take_rest]

theorem Strand.vreg_takeAll_other (hts : ∀ t ∈ ts, t < 32) (hq : q < 32) (h : q ∈ ts → ∀ p ∈ ps q, p.1 ≠ c) :
    (st.takeAll ps ts).vreg c q = st.vreg c q := by
  unfold Strand.takeAll
  induction ts generalizing st with
  | nil => rfl
  | cons t ts ih =>
    obtain ⟨ht, hts'⟩ := List.forall_mem_cons.mp hts
    rw [List.foldl_cons, ih _ hts' fun hmem => h (List.mem_cons_of_mem t hmem)]
    exact st.vreg_take_other ht hq fun hqt => hqt ▸ h (hqt ▸ List.mem_cons_self)

theorem Strand.vreg_takeAll_of_mem {p : Nat × Word} (hts : ∀ t ∈ ts, t < 32) (hps : ((ps q).map (·.1)).Nodup) (hq : q ∈ ts) (hp : p ∈ ps q) :
    (st.takeAll ps ts).vreg p.1 q = p.2 := by
  unfold Strand.takeAll
  induction ts using List.reverseRecOn with
  | nil => cases hq
  | append_singleton ts t ih =>
    have ht : t < 32 := hts t (by simp)
    have hq32 : q < 32 := hts q hq
    rw [List.foldl_append, List.foldl_cons, List.foldl_nil]
    by_cases hqt : q = t
    · subst hqt
      exact Strand.vreg_take_of_mem _ ht hps hp
    · have hq' : q ∈ ts := by simpa [hqt] using hq
      rw [Strand.vreg_take_other _ ht hq32 fun h => absurd h hqt]
      exact ih (fun x hx => hts x (List.mem_append_left _ hx)) hq'

end

theorem chargeHomes_nextId (s : State) (core ctx : Nat) (ls : List Nat) : (s.chargeHomes core ctx ls).nextId = s.nextId := by
  obtain ⟨cs, n, h⟩ := chargeHomes_accounted s core ctx ls
  rw [h]
  rfl
theorem chargeHomes_pkg (s : State) (core ctx : Nat) (ls : List Nat) : (s.chargeHomes core ctx ls).pkg = s.pkg := by
  obtain ⟨cs, n, h⟩ := chargeHomes_accounted s core ctx ls
  rw [h]
  rfl

/-! What SRG answers -/

/-- A thread's outputs and its predicted error (09 R228). -/
def Env.answer (e : Env) (g : Region) (m : Model) (s : State) (t : Nat) : List Nat × Option FV :=
  m.eval s e.ctx e.p.run ((g.args.map fun c => e.st.vreg c t).map (·.toNat))
/-- The words a thread's result registers take. -/
def Env.results (e : Env) (g : Region) (m : Model) (s : State) (t : Nat) : List (Nat × Word) :=
  (g.res.zip (e.answer g m s t).1).map fun y => (y.1, BitVec.ofNat 32 y.2)
/-- A thread is within bound. -/
def Env.good (e : Env) (q : Quality) (g : Region) (m : Model) (s : State) (t : Nat) : Bool :=
  withinBound q (e.answer g m s t).1 (e.answer g m s t).2
/-- A thread within bound is sampled (09 R229). -/
def Env.sampledGood (e : Env) (id : Nat) (q : Quality) (g : Region) (m : Model) (s : State) (t : Nat) : Bool :=
  e.good q g m s t && sampled q id e.st.srgCount.toNat t
/-- The recovery entry of a thread (09 R231; log 33, DEDUCED). -/
def Env.recEntry (e : Env) (id : Nat) (q : Quality) (g : Region) (m : Model) (s : State) (t : Nat) : RecEntry :=
  { ctx := e.ctx, region := id, header := e.g.task.entry, pc := e.pc, source := e.k, srcSlot := slotOf e.k, srcThread := t
    srcAllot := e.st.allot, sample := e.good q g m s t, args := g.args.map fun c => e.st.vreg c t
    ys := (e.answer g m s t).1.map (BitVec.ofNat 32), argRegs := g.args, resRegs := g.res, handler := e.st.mode == .handler }
/-- The recovery entries of an SRG. -/
def Env.recEntries (e : Env) (id : Nat) (q : Quality) (g : Region) (m : Model) (s : State) : List RecEntry :=
  (e.ts.filter fun t => !e.good q g m s t || e.sampledGood id q g m s t).map (e.recEntry id q g m s)
/-- The increment an SRG sends (09 R235). -/
def Env.counts (e : Env) (id : Nat) (q : Quality) (g : Region) (m : Model) (s : State) : RegionUpd :=
  { ctx := e.ctx, region := id, strand := e.k, calls := e.ts.length
    fallb := (e.ts.filter fun t => !e.good q g m s t).length, samp := (e.ts.filter (e.sampledGood id q g m s)).length }
/-- The strand of an SRG with its threads' results and its count of entries. -/
def Env.answered (e : Env) (id : Nat) (q : Quality) (g : Region) (m : Model) (s : State) : Strand :=
  let st := e.st.takeAll (e.results g m s) (e.ts.filter (e.good q g m s))
  { st with srgCount := st.srgCount + 1, pending := st.pending + (e.recEntries id q g m s).length }
/-- The state with the answers of an SRG, its entries queued and its counts sent. -/
def Env.srgDone (e : Env) (id : Nat) (q : Quality) (g : Region) (m : Model) (s : State) : State :=
  ((s.setStrand e.k (e.answered id q g m s)).onCore e.core fun c => { c with recq := c.recq ++ e.recEntries id q g m s }).sendUpdate (e.counts id q g m s)

theorem filter_answers {α : Type} (ys : Nat → α) (good smp : Nat → Bool) (ts : List Nat) :
    (ts.map fun t => (t, ys t, good t)).filter (fun a => !a.2.2 || smp a.1) = (ts.filter fun t => !good t || (good t && smp t)).map fun t => (t, ys t, good t) := by
  rw [List.filter_map]
  refine congrArg _ (List.filter_congr fun t _ => ?_)
  show (!good t || smp t) = (!good t || (good t && smp t))
  cases good t <;> rfl

theorem length_filter_answers {α : Type} (ys : Nat → α) (good smp : Nat → Bool) (ts : List Nat) :
    ((ts.map fun t => (t, ys t, good t)).filter (fun a => !a.2.2 || smp a.1)).length = (ts.filter fun t => !good t || smp t).length := by
  rw [List.filter_map, List.length_map]
  rfl

section
variable (e : Env) (id : Nat) (q : Quality) (g : Region) (m : Model) (s : State)

/-- The model's list of answers. -/
def Env.answerList : List (Nat × List Nat × Bool) := e.ts.map fun t => (t, (e.answer g m s t).1, e.good q g m s t)

theorem srgAnswers_eq : e.srgAnswers g m q s = e.answerList q g m s := by
  unfold Env.srgAnswers Env.answerList Env.good Env.answer
  simp only [List.map_map]
  rfl

theorem good_answers : (e.answerList q g m s).filter (·.2.2) =
    (e.ts.filter (e.good q g m s)).map fun t => (t, (e.answer g m s t).1, e.good q g m s t) := List.filter_map

theorem queued_answers : e.srgQueued id q (e.answerList q g m s) =
    (e.ts.filter fun t => !e.good q g m s t || e.sampledGood id q g m s t).map fun t => (t, (e.answer g m s t).1, e.good q g m s t) :=
  filter_answers (fun t => (e.answer g m s t).1) (e.good q g m s) (sampled q id e.st.srgCount.toNat) e.ts

theorem foldl_answers (st : Strand) : ((e.answerList q g m s).filter (·.2.2)).foldl
    (fun st x => (g.res.zip x.2.1).foldl (fun st y => st.setV y.1 x.1 (BitVec.ofNat 32 y.2)) st) st =
      st.takeAll (e.results g m s) (e.ts.filter (e.good q g m s)) := by
  unfold Strand.takeAll Strand.take Env.results
  simp only [good_answers, List.foldl_map]

theorem queued_entries : ((e.srgQueued id q (e.answerList q g m s)).map fun x => ({
    ctx := e.ctx, region := id, header := e.g.task.entry, pc := e.pc, source := e.k, srcSlot := slotOf e.k, srcThread := x.1
    srcAllot := e.st.allot, sample := x.2.2, args := g.args.map fun c => e.st.vreg c x.1, ys := x.2.1.map (BitVec.ofNat 32)
    argRegs := g.args, resRegs := g.res, handler := e.st.mode == .handler } : RecEntry)) = e.recEntries id q g m s := by
  rw [queued_answers, List.map_map]
  rfl

theorem length_answers : (e.answerList q g m s).length = e.ts.length := List.length_map _

theorem length_fallback : (e.answerList q g m s).length - ((e.answerList q g m s).filter (·.2.2)).length = (e.ts.filter fun t => !e.good q g m s t).length := by
  rw [good_answers, Env.answerList, List.length_map, List.length_map, List.length_eq_length_filter_add (e.good q g m s)]
  omega

theorem length_samples : ((e.srgQueued id q (e.answerList q g m s)).filter (·.2.2)).length = (e.ts.filter (e.sampledGood id q g m s)).length := by
  rw [queued_answers, List.filter_map, List.length_map, List.filter_filter]
  congr 2
  funext t
  show (e.good q g m s t && (!e.good q g m s t || e.sampledGood id q g m s t)) = e.sampledGood id q g m s t
  unfold Env.sampledGood
  cases e.good q g m s t <;> rfl

end

/-! The branches of SRG -/

/-- The state from which SRG acts: the lines of its region's descriptor are charged (14 R364). -/
def Env.srgBase (e : Env) (u : State) : State := u.chargeHomes e.core e.ctx (e.srgLines u)

section
variable {z : BitVec 1} {j : BitVec 16} {l : BitVec 4} {s : State} {e : Env} {r : Run} {id : Nat} {g : Region} {m : Model}

theorem srgBase_core (i : Instr) (e : Env) (s : State) (c : Nat) : ((e.srgBase (paid i e s)).core c) =
    { s.core c with energy := ((e.srgBase (paid i e s)).core c).energy, charges := ((e.srgBase (paid i e s)).core c).charges } := by
  unfold Env.srgBase
  rw [chargeHomes_core, paid_core_accounts]

theorem srgBase_disabled (i : Instr) (e : Env) (s : State) (c : Nat) : ((e.srgBase (paid i e s)).core c).disabled = (s.core c).disabled := by
  rw [srgBase_core]
theorem srgBase_recq (i : Instr) (e : Env) (s : State) (c : Nat) : ((e.srgBase (paid i e s)).core c).recq = (s.core c).recq := by
  rw [srgBase_core]

theorem srgBase_charged_strand (i : Instr) (e : Env) (s : State) (cls n : Nat) :
    ((e.srgBase (paid i e s)).charge e.core e.ctx cls n).strand e.k = some e.st := by
  rw [State.charge_strand, Env.srgBase, chargeHomes_strand, paid_strand_same]

variable (h : Issues (.srg z j l) s e r)
include h

theorem exec_srg_error {x : Nat × Nat × Nat} (hchk : e.srgCheck j (e.srgBase (paid (.srg z j l) e s)) = .error x) :
    exec (.srg z j l) s = .next (e.raise ((e.srgBase (paid (.srg z j l) e s)).charge e.core e.ctx 2 1) x.1 x.2.1 x.2.2) := by
  obtain ⟨c, q, a⟩ := x
  rw [show exec (.srg z j l) s = execSrg z j l s from rfl, execSrg, issue_body _ h]
  rw [Env.srgBase] at hchk
  dsimp only
  rw [hchk]
  rfl

theorem exec_srg_ok {base : State} (hbase : e.srgBase (paid (.srg z j l) e s) = base) (hchk : e.srgCheck j base = .ok (id, g, m)) :
    (e.srgPasses id base = true → exec (.srg z j l) s = .next (e.next (base.charge e.core e.ctx 2 1))) ∧
    (e.srgPasses id base = false → e.srgUnread id g m base = true → exec (.srg z j l) s = .next (e.raise (base.charge e.core e.ctx 2 1) 0xB2)) ∧
    (e.srgPasses id base = false → e.srgUnread id g m base = false → base.regionNat e.ctx id 56 8 % 2 = 1 →
      exec (.srg z j l) s = .next (e.finish (some (e.pc + 4 * j.setWidth 32)) false
        ((e.srgDone id (base.liveq e.ctx id) g m base).charge e.core e.ctx 3 1))) := by
  have hx : exec (.srg z j l) s = execSrg z j l s := rfl
  have hstrand : (e.srgBase (paid (.srg z j l) e s)).strand e.k = some e.st := (chargeHomes_strand ..).trans (paid_strand_same ..)
  rw [execSrg, issue_body _ h] at hx
  dsimp only at hx
  rw [← Env.srgBase, hbase, hchk] at hx
  rw [hbase] at hstrand
  dsimp only at hx
  refine ⟨fun hp => hx.trans (congrArg _ (if_pos hp)), fun hp hu => ?_, fun hp hu ho => ?_⟩
  · rw [if_neg (by simp [hp]), if_pos hu] at hx
    exact hx
  · have hq : e.srgQuality id g base = base.liveq e.ctx id := if_pos (by simpa [bits] using ho)
    rw [if_neg (by simp [hp]), if_neg (by simp [hu]), hq, if_pos (by simpa [bits] using ho), srgAnswers_eq, onStrand_of_some hstrand] at hx
    rw [foldl_answers, length_fallback, length_samples, length_answers, queued_entries] at hx
    exact hx

end

/-! What SRG leaves -/

section
variable {e : Env} {id : Nat} {q : Quality} {g : Region} {m : Model} {s : State}

theorem answered_rest : e.answered id q g m s = { e.st with
    v := (e.answered id q g m s).v, srgCount := e.st.srgCount + 1, pending := e.st.pending + (e.recEntries id q g m s).length } := by
  unfold Env.answered
  dsimp only
  rw [Strand.takeAll_rest]

/-- The result registers of the threads within bound hold the model's outputs; no other register changes (09 R228). -/
theorem vreg_answered (hres : g.res.Nodup) (c : Nat) {t : Nat} (ht : t < 32) : (e.answered id q g m s).vreg c t =
    match (g.res.zip (e.answer g m s t).1).find? fun y => y.1 == c with
    | some y => if has e.act t ∧ e.good q g m s t = true then BitVec.ofNat 32 y.2 else e.st.vreg c t
    | none => e.st.vreg c t := by
  have hts : ∀ x ∈ e.ts.filter (e.good q g m s), x < 32 := fun x hx => (mem_active.mp (List.mem_filter.mp hx).1).1
  have hmem : t ∈ e.ts.filter (e.good q g m s) ↔ has e.act t = true ∧ e.good q g m s t = true := by
    rw [List.mem_filter, Env.ts, mem_active, and_iff_right ht]
  show (e.st.takeAll (e.results g m s) (e.ts.filter (e.good q g m s))).vreg c t = _
  split
  · rename_i y hy
    obtain rfl : y.1 = c := by simpa using List.find?_some hy
    split
    · rename_i hgood
      have hword : (y.1, BitVec.ofNat 32 y.2) ∈ e.results g m s t := List.mem_map.mpr ⟨y, List.mem_of_find?_eq_some hy, rfl⟩
      have hnodup : ((e.results g m s t).map (·.1)).Nodup := by
        rw [Env.results, List.map_map]
        exact nodup_fst_zip hres _
      exact e.st.vreg_takeAll_of_mem (p := (y.1, BitVec.ofNat 32 y.2)) hts hnodup (hmem.mpr hgood) hword
    · rename_i hbad
      exact e.st.vreg_takeAll_other hts ht fun h => absurd (hmem.mp h) hbad
  · rename_i hnone
    refine e.st.vreg_takeAll_other hts ht fun _ p hp => ?_
    obtain ⟨y, hy, rfl⟩ := List.mem_map.mp hp
    simpa using List.find?_eq_none.mp hnone y hy

end

theorem readObject_ofAccess {s : State} {d ctx addr n k : Nat} {f : Failed} (h : readObject s d ctx addr n k = .error f) : f.ofAccess := by
  induction k generalizing addr with
  | zero => cases h
  | succ k ih =>
    rw [readObject] at h
    split at h
    · rename_i f' htrans
      cases h
      exact translate_ofAccess htrans
    dsimp only at h
    split at h
    · cases h
      exact readCause_ofAccess ..
    split at h
    · rename_i hrest
      cases h
      exact ih hrest
    · cases h

theorem error_of_ite {ε α : Type} {c : Prop} [Decidable c] {x y : ε} {z : Except ε α} (h : (if c then .error y else z) = .error x) :
    x = y ∨ z = .error x := by
  split at h
  · exact .inl (Except.error.inj h).symm
  · exact .inr h

/-- What SRG raises from its checks are causes of accesses or of its own. -/
theorem srgCheck_cause {e : Env} {j : BitVec 16} {s : State} {x : Nat × Nat × Nat} (h : e.srgCheck j s = .error x) : x.1 ≠ 0xB0 ∧ x.1 ≠ 0xB1 := by
  unfold Env.srgCheck at h
  split at h
  · cases h; decide
  obtain rfl | h := error_of_ite h
  · decide
  dsimp only at h
  split at h
  · rename_i f hread
    cases h
    rcases readObject_ofAccess hread with hc | hc
    · exact ⟨by dsimp only; omega, by dsimp only; omega⟩
    · exact ⟨by dsimp only; omega, by dsimp only; omega⟩
  split at h
  · cases h; decide
  obtain rfl | h := error_of_ite h
  · decide
  obtain rfl | h := error_of_ite h
  · decide
  split at h
  · cases h; decide
  obtain rfl | h := error_of_ite h
  · decide
  obtain rfl | h := error_of_ite h
  · decide
  · cases h

section
variable {z : BitVec 1} {j : BitVec 16} {l : BitVec 4} {s : State} {e : Env} {r : Run} {id : Nat} {q : Quality} {g : Region} {m : Model}

theorem srgDone_retires (h : Issues (.srg z j l) s e r) :
    let w := e.srgDone id q g m (e.srgBase (paid (.srg z j l) e s))
    ∃ st', Retires (w.charge e.core e.ctx 3 1) (e.finish (some (e.pc + 4 * j.setWidth 32)) false (w.charge e.core e.ctx 3 1)) e r
      (some (e.pc + 4 * j.setWidth 32)) false (e.answered id q g m (e.srgBase (paid (.srg z j l) e s))) st' := by
  intro w
  obtain ⟨-, -, hpath, hrun, -, -⟩ := envOf_eq h.1
  have hcur : w.cur = some (e.k, e.pi) := (chargeHomes_cur ..).trans (paid_cur h)
  have hstrand : w.strand e.k = some (e.answered id q g m (e.srgBase (paid (.srg z j l) e s))) := State.strand_setStrand_same ..
  refine ⟨_, finish_retires _ false ((State.charge_cur ..).trans hcur) ((State.charge_strand ..).trans hstrand) ?_ ?_⟩
  · rw [answered_rest]
    exact hpath ▸ hrun
  · rw [answered_rest]

end

theorem srgPasses_iff (i : Instr) (e : Env) (s : State) (id : Nat) : e.srgPasses id (e.srgBase (paid i e s)) = true ↔
    ((e.ctx, id) ∈ (s.core e.core).disabled ∨ e.st.recov.isSome = true ∨ 64 < e.st.allot) := by
  unfold Env.srgPasses
  rw [srgBase_disabled]
  simp [or_assoc]

/-- What an SRG that has answered changes: its strand, its core's recovery queue, and the increments on their way. -/
theorem srgDone_frame (i : Instr) (e : Env) (s : State) (id : Nat) (q : Quality) (g : Region) (m : Model) :
    let base := e.srgBase (paid i e s)
    let w := e.srgDone id q g m base
    w = { base with strands := w.strands, cores := w.cores, pkg := w.pkg, nextId := s.nextId + 1 } ∧ (∀ c, c ≠ e.core → w.core c = base.core c) ∧
      w.core e.core = { base.core e.core with recq := (s.core e.core).recq ++ e.recEntries id q g m base } ∧
      w.pkg = { s.pkg with updates := w.pkg.updates } ∧ (∀ x, x ≠ s.nextId → look w.pkg.updates x = look s.pkg.updates x) ∧
      look w.pkg.updates s.nextId = some (e.counts id q g m base) ∧ ∀ k, k ≠ e.k → w.strand k = s.strand k := by
  intro base w
  have hnext : base.nextId = s.nextId := (chargeHomes_nextId ..).trans (paid_nextId ..)
  have hbase : base.pkg = s.pkg := (chargeHomes_pkg ..).trans (paid_pkg ..)
  have hpkg : w.pkg = { s.pkg with updates := upd s.pkg.updates s.nextId (some (e.counts id q g m base)) } := by
    rw [← hbase, ← hnext]
    rfl
  have hupdates : w.pkg.updates = upd s.pkg.updates s.nextId (some (e.counts id q g m base)) := by rw [hpkg]
  refine ⟨?_, fun c hc => ?_, ?_, ?_, fun x hx => ?_, ?_, fun k hk => ?_⟩
  · rw [← hnext]
    rfl
  · exact (State.core_setCore ..).trans (if_neg hc)
  · rw [← srgBase_recq i e s]
    exact State.core_setCore_same ..
  · rw [hpkg]
  · rw [hupdates, look_upd_other _ _ hx]
  · rw [hupdates, look_upd_same]
  · exact (State.strand_setStrand ..).trans ((if_neg hk).trans ((chargeHomes_strand ..).trans (paid_strand_other _ _ _ hk)))

/-! The record of a region -/

theorem regionWrite_mem (s : State) (ctx r o : Nat) (bs : List Byte) : ∃ m, s.regionWrite ctx r o bs = s.setMem m := by
  unfold State.regionWrite
  split
  · exact ⟨_, rfl⟩
  · exact ⟨s.mem, rfl⟩

theorem postInterrupt_pkg (s : State) (kind ctx info data : Nat) : ∃ p, s.postInterrupt kind ctx info data = s.setPkg p := by
  unfold State.postInterrupt
  dsimp only
  split_ifs
  · exact ⟨s.pkg, rfl⟩
  · exact ⟨s.pkg, rfl⟩
  · exact ⟨_, rfl⟩
  · exact ⟨_, rfl⟩

theorem disableRegion_state (s : State) (ctx r n : Nat) : ∃ m p, s.disableRegion ctx r n = (s.setMem m).setPkg p := by
  unfold State.disableRegion
  dsimp only
  split
  · exact ⟨s.mem, s.pkg, rfl⟩
  · obtain ⟨m, hm⟩ := regionWrite_mem s ctx r 56 (leBytes 8 (bits (s.regionNat ctx r 56 8) 0 1 + 2 + 4 * n))
    obtain ⟨p, hp⟩ := postInterrupt_pkg (s.setMem m) 5 ctx (r + 256 * n) (s.regionNat ctx r 22 2)
    exact ⟨m, p, hm ▸ hp⟩

/-- An instruction that leaves every strand as it is, and goes on. -/
theorem Issues.effects {i : Instr} {s u : State} {e : Env} {r : Run} {what : State → Strand → Prop} (h : Issues i s e r)
    (hx : exec i s = .next (e.next u)) (hstrands : ∀ k, u.strand k = (paid i e s).strand k) (hcur : u.cur = (paid i e s).cur) (hw : what u e.st) :
    Effects i s e r what := by
  obtain ⟨st', hret⟩ := h.retires hcur ((hstrands e.k).trans (paid_strand_same ..)) (congrArg Path.run h.path_eq.symm) rfl
  exact ⟨u, _, e.st, st', hx, hret, fun k hk => (hstrands k).trans (paid_strand_other _ _ _ hk), hw⟩

section
variable {z : BitVec 1} {l : BitVec 4} {s : State} {e : Env} {r : Run}

theorem region_stops {i : Instr} (h : Issues i s e r) (hi : (∃ u, i = .qset z u l) ∨ (∃ u o, i = .sctr z u o l) ∨ i = .sdis z) (hnone : e.h.rtag = none) :
    StopsWhole i s e 0xA0 0 0 := by
  have hregion : e.region = none := by rw [Env.region, hnone]; rfl
  obtain ⟨u, rfl⟩ | ⟨u, o, rfl⟩ | rfl := hi
  · refine stopsWhole_of_raise (Eq.trans (show _ = execQset z u l s from rfl) ?_) (by decide)
    rw [execQset, issue_body _ h, hregion]
  · refine stopsWhole_of_raise (Eq.trans (show _ = execSctr z u o l s from rfl) ?_) (by decide)
    rw [execSctr, issue_body _ h, hregion]
  · refine stopsWhole_of_raise (Eq.trans (show _ = execSdis z s from rfl) ?_) (by decide)
    rw [execSdis, issue_body _ h, hregion]

variable {id : Nat}

theorem exec_qset_region {u : BitVec 7} (h : Issues (.qset z u l) s e r) (hid : e.region = some id) :
    exec (.qset z u l) s = .next (
      let bs := leBytes 16 (e.st.uniN u.toNat 4)
      let b := fp32.value (fieldAt bs 0 4)
      if qualityReserved bs || !b.isFinite || (b.sign && !b.isZero) then e.raise (paid (.qset z u l) e s) 0xA0
      else e.next (e.start { kind := .qset id, data := [bs] } (paid (.qset z u l) e s)).2) := by
  rw [show exec (.qset z u l) s = execQset z u l s from rfl, execQset, issue_body _ h, hid]
  rfl

theorem exec_sctr_region {u : BitVec 7} {o : BitVec 2} (h : Issues (.sctr z u o l) s e r) (hid : e.region = some id) :
    exec (.sctr z u o l) s = .next (
      let v := paid (.sctr z u o l) e s
      if o = 2 then
        if v.regionCut e.die e.ctx id 16 40 then e.raise v 0xB2
        else e.next ((v.regionWrite e.ctx id 16 (leBytes 16 0)).regionWrite e.ctx id 32 (leBytes 24 0))
      else if v.regionFails e.die e.ctx id then e.raise v 0xB2
      else e.next (v.onStrand e.k fun st => st.setSGroup u.toNat 4
        (if o = 0 then v.regionNat e.ctx id 40 16 else v.regionNat e.ctx id 16 6 + v.regionNat e.ctx id 24 6 * 2 ^ 64))) := by
  rw [show exec (.sctr z u o l) s = execSctr z u o l s from rfl, execSctr, issue_body _ h, hid]
  simp only [beq_iff_eq]

theorem exec_sdis_region (h : Issues (.sdis z) s e r) (hid : e.region = some id) :
    exec (.sdis z) s = .next (if (paid (.sdis z) e s).regionFails e.die e.ctx id then e.raise (paid (.sdis z) e s) 0xB2
      else e.next ((paid (.sdis z) e s).disableRegion e.ctx id 1)) := by
  rw [show exec (.sdis z) s = execSdis z s from rfl, execSdis, issue_body _ h, hid]

theorem stopsWhole_unreadable {i : Instr} (hx : exec i s = .next (e.raise (paid i e s) 0xB2)) : StopsWhole i s e 0xB2 0 0 :=
  stopsFrom_of_raise hx (paid_strand_same i e s)

end

section
variable {z : BitVec 1} {l : BitVec 4} {s : State} {e : Env} {r : Run} {id : Nat}

theorem qset_checks {u : BitVec 7} (h : Issues (.qset z u l) s e r) (hid : e.region = some id) :
    let bs := leBytes 16 (e.st.uniN u.toNat 4)
    let b := fp32.value (fieldAt bs 0 4)
    let good := qualityReserved bs = false ∧ b.isFinite = true ∧ (b.sign = false ∨ b.isZero = true)
    (¬ good → StopsWhole (.qset z u l) s e 0xA0 0 0) ∧
      (good → Launches (.qset z u l) s (paid (.qset z u l) e s) e r { kind := .qset id, data := [bs] }) := by
  intro bs b good
  have hx := exec_qset_region h hid
  have hgood : (qualityReserved bs || !b.isFinite || (b.sign && !b.isZero)) = true ↔ ¬ good := by
    simp only [good]
    grind
  refine ⟨fun hbad => stopsWhole_of_raise (hx.trans (congrArg _ (if_pos (hgood.mpr hbad)))) (by decide), fun hok => ?_⟩
  exact h.launches_started (hx.trans (congrArg _ (if_neg fun hc => hgood.mp hc hok))) (paid_strand_same ..) rfl

theorem sctr_clears {u : BitVec 7} (h : Issues (.sctr z u 2 l) s e r) (hid : e.region = some id) :
    let v := paid (.sctr z u 2 l) e s
    (v.regionCut e.die e.ctx id 16 40 = true → StopsWhole (.sctr z u 2 l) s e 0xB2 0 0) ∧
      (v.regionCut e.die e.ctx id 16 40 = false → Effects (.sctr z u 2 l) s e r fun w st1 => st1 = e.st ∧
        w = (v.regionWrite e.ctx id 16 (leBytes 16 0)).regionWrite e.ctx id 32 (leBytes 24 0)) := by
  intro v
  have hx := exec_sctr_region h hid
  dsimp only at hx
  rw [if_pos rfl] at hx
  refine ⟨fun hcut => ?_, fun hcut => ?_⟩
  · rw [if_pos hcut] at hx
    exact stopsWhole_unreadable hx
  · rw [if_neg (ne_true_of_eq_false hcut)] at hx
    obtain ⟨m, hm⟩ := regionWrite_mem v e.ctx id 16 (leBytes 16 0)
    obtain ⟨m', hm'⟩ := regionWrite_mem (v.setMem m) e.ctx id 32 (leBytes 24 0)
    exact h.effects hx (fun k => by rw [hm, hm']; rfl) (by rw [hm, hm']; rfl) ⟨rfl, rfl⟩

theorem sctr_reads {u : BitVec 7} {o : BitVec 2} (h : Issues (.sctr z u o l) s e r) (hid : e.region = some id) (ho : o ≠ 2) :
    ((paid (.sctr z u o l) e s).regionFails e.die e.ctx id = true → StopsWhole (.sctr z u o l) s e 0xB2 0 0) ∧
      ((paid (.sctr z u o l) e s).regionFails e.die e.ctx id = false → Computes (.sctr z u o l) s e r e.p.nfr fun st st' =>
        SameAccs st st' ∧ WritesUniform st st' u.toNat 4
          (if o = 0 then s.regionNat e.ctx id 40 16 else s.regionNat e.ctx id 16 6 + s.regionNat e.ctx id 24 6 * 2 ^ 64)) := by
  have hx := exec_sctr_region h hid
  dsimp only at hx
  rw [if_neg ho] at hx
  refine ⟨fun hf => ?_, fun hf => ?_⟩
  · rw [if_pos hf] at hx
    exact stopsWhole_unreadable hx
  · rw [if_neg (by simp [hf])] at hx
    refine h.computes_strand hx ((OnlyStrand.refl (paid_strand_same ..)).onStrand _) ?_ ⟨fun c => ?_, ?_, ?_⟩
    · rw [Strand.setSGroup_rest]
    · rw [Strand.sreg_setSGroup, paid_eq]
      rfl
    · rw [Strand.setSGroup_rest]
      exact fun _ _ _ => rfl
    · rw [Strand.setSGroup_rest]
      exact fun _ => rfl

theorem sdis_disables (h : Issues (.sdis z) s e r) (hid : e.region = some id) :
    ((paid (.sdis z) e s).regionFails e.die e.ctx id = true → StopsWhole (.sdis z) s e 0xB2 0 0) ∧
      ((paid (.sdis z) e s).regionFails e.die e.ctx id = false → Effects (.sdis z) s e r fun w st1 => st1 = e.st ∧
        w = (paid (.sdis z) e s).disableRegion e.ctx id 1) := by
  have hx := exec_sdis_region h hid
  refine ⟨fun hf => ?_, fun hf => ?_⟩
  · rw [if_pos hf] at hx
    exact stopsWhole_unreadable hx
  · rw [if_neg (by simp [hf])] at hx
    obtain ⟨m, p, hstate⟩ := disableRegion_state (paid (.sdis z) e s) e.ctx id 1
    exact h.effects hx (fun k => by rw [hstate]; rfl) (by rw [hstate]; rfl) ⟨rfl, rfl⟩

end

/-- SRG, QSET, SCTR and SDIS as they issue. -/
theorem regionWordsPart : RegionWordsPart := by
  unfold RegionWordsPart
  intro i z l s e r h base v
  refine ⟨?_, region_stops h, fun id hrtag => ?_⟩
  · rintro j rfl
    have hv : v.strand e.k = some e.st := srgBase_charged_strand ..
    have hvcur : v.cur = (paid (.srg z j l) e s).cur := (State.charge_cur ..).trans (chargeHomes_cur ..)
    refine ⟨fun x hchk => ?_, fun id g m hchk => ?_⟩
    · obtain ⟨st', hstop⟩ := raise_stops (e := e) x.1 x.2.1 x.2.2 0 hv (srgCheck_cause hchk)
      exact ⟨_, st', exec_srg_error h hchk, hstop⟩
    obtain ⟨hpasses, hunread, hdone⟩ := exec_srg_ok h rfl hchk
    have hoff : e.srgPasses id base = true ↔ ((e.ctx, id) ∈ (s.core e.core).disabled ∨ e.st.recov.isSome = true ∨ 64 < e.st.allot) := srgPasses_iff ..
    intro off q arg ans good smp entries
    refine ⟨fun ho => ?_, fun ho hu => ?_, fun ho hu hopen hres => ?_⟩
    · obtain ⟨st', hret⟩ := h.retires hvcur hv (congrArg Path.run h.path_eq.symm) rfl
      exact ⟨_, st', hpasses (hoff.mpr ho), hret⟩
    · obtain ⟨st', hstop⟩ := raise_stops (e := e) 0xB2 0 0 0 hv (by decide)
      exact ⟨_, st', hunread (Bool.eq_false_of_not_eq_true (hoff.not.mpr ho)) hu, hstop⟩
    · obtain ⟨st', hret⟩ := srgDone_retires (id := id) (q := q) (g := g) (m := m) h
      have hdo := hdone (Bool.eq_false_of_not_eq_true (hoff.not.mpr ho)) hu hopen
      obtain ⟨hframe, hcores, hcore, hpkg, hupdates, hupdate, hstrands⟩ := srgDone_frame (.srg z j l) e s id q g m
      exact ⟨e.srgDone id q g m base, _, _, _, st', hdo, hret, rfl, hframe, hcores, hcore, hpkg, hupdates, hupdate, answered_rest, hstrands,
        fun c t ht => vreg_answered hres c ht⟩
  · have hid : e.region = some id.toNat := by rw [Env.region, hrtag]; rfl
    refine ⟨?_, ?_, ?_, ?_⟩
    · rintro u rfl
      exact qset_checks h hid
    · rintro u o rfl
      refine ⟨?_, ?_, fun ho => (sctr_reads h hid ho).1, fun ho => (sctr_reads h hid ho).2⟩
      · rintro rfl
        exact (sctr_clears h hid).1
      · rintro rfl
        exact (sctr_clears h hid).2
    · rintro rfl
      exact (sdis_disables h hid).1
    · rintro rfl
      exact (sdis_disables h hid).2

/-! Where SRG waits -/

section
variable {i : Instr} {s : State} {e : Env} {r : Run} {body : Env → State → State}

/-- A chain whose instruction waits ends its run before it (12 R285). -/
theorem issue_waits (h : Reaches i s e r) (hf : decodeFault e = none) (hd : dependHeld (begun s e) e = false) (hk : e.skips = false)
    (hw : waits (begun s e) e = .hold) : ∃ t st', issue i s body = .next t ∧ Waits (begun s e) t e e.st st' := by
  have hgate := h.gate
  have hverdict : verdict (begun s e) e = .hold := by
    obtain ⟨-, -, -, -, hguard, hdefer⟩ := h
    simp [verdict, hguard, hdefer, hf, hd, hk, hw]
  obtain ⟨hcur, -, hpath, -, -, -⟩ := envOf_eq h.1
  obtain ⟨hframe, hstrand, hothers⟩ := hold_strand (u := begun s e) (begun_strand s e) hcur
  refine ⟨e.hold (begun s e), _, ?_, ⟨begun_strand s e, hstrand, ?_, hothers, hframe⟩⟩
  · unfold begun at hgate hverdict ⊢
    simp only [issue, h.1, hgate, hverdict]
  · rw [← hpath]
    rfl

end

/-- SRG where its entries find no room. -/
theorem regionWaitsPart : RegionWaitsPart := by
  unfold RegionWaitsPart
  intro z j l s e r id g m i u h hf hd hk hchk hdis hrec hallot hread hopen q ans good hfull
  obtain ⟨-, -, -, -, hi, -⟩ := envOf_eq h.1
  have hcore : u.core e.core = s.core e.core := rfl
  have hpass : e.srgPasses id u = false := by
    unfold Env.srgPasses
    rw [hcore]
    simpa [hrec, hallot] using hdis
  have hq : e.srgQuality id g u = u.liveq e.ctx id := if_pos (by simpa [bits] using hopen)
  have hqueued : (e.srgQueued id (u.liveq e.ctx id) (e.srgAnswers g m (u.liveq e.ctx id) u)).length =
      (e.ts.filter fun t => !good t || sampled q id e.st.srgCount.toNat t).length := by
    have hgood : e.good (u.liveq e.ctx id) g m u = good := by
      funext t
      unfold Env.good Env.answer
      rw [List.map_map]
      rfl
    rw [srgAnswers_eq, ← hgood]
    exact length_filter_answers (fun t => (e.answer g m u t).1) (e.good (u.liveq e.ctx id) g m u) (sampled (u.liveq e.ctx id) id e.st.srgCount.toNat) e.ts
  have hsrgFull : e.srgFull j u = true := by
    unfold Env.srgFull
    rw [hchk]
    dsimp only
    rw [hq, hpass, hread, hqueued, hcore]
    simpa using hfull
  have hw : waits u e = .hold := by
    unfold waits
    rw [hi]
    exact congrArg Wait.holdIf hsrgFull
  show ∃ t st', execSrg z j l s = .next t ∧ Waits u t e e.st st'
  unfold execSrg
  exact issue_waits h hf hd hk hw

/-- Settles O34: SRG by the outcome of its checks, QSET, SCTR and SDIS each by its equation. -/
theorem regions : Obligations.Regions := ⟨regionWordsPart, regionWaitsPart⟩

end Sys2Proof.Machine
end

section
/-!
PROOFS. Banks fill and change, recovery strands form, and waiting CLAIMs are granted (02 R49; 09 R211 to R213, R231 to R233, R241; 12 R301).
-/

namespace Sys2Proof.Machine

/-! The end of an operation that writes no register -/

theorem sameRegs_withoutOp (st : Strand) (id : Nat) (fin : Tab Word) : SameRegs st { st.withoutOp id with finishedB := fin } :=
  ⟨fun _ _ _ => rfl, fun _ => rfl, fun _ => rfl⟩

section
variable {s : State} {id : Nat} {o : Op} {st : Strand}

/-- The end of an operation that Lantern has not tagged leaves memory, cores and barriers as they are. -/
theorem finishOp_ends (hop : s.op id = some o) (htags : o.tags = []) (hst : s.strand o.strand = some st) :
    ∃ fin, Completes s (s.finishOp id) id o st { st.withoutOp id with finishedB := fin } ∧ (s.finishOp id).mem = s.mem ∧
      (s.finishOp id).cores = s.cores ∧ (s.finishOp id).bars = s.bars ∧ (s.finishOp id).sysKey = s.sysKey := by
  obtain ⟨fin, hfin, hstrand, hothers, hstate⟩ := finishOp_untagged hop htags hst
  refine ⟨fin, ⟨hst, hstrand, ?_, fun j hj => ?_, rfl, rfl, rfl, hfin, hothers, fun c => ?_, ?_⟩, ?_, ?_, ?_, ?_⟩
  · rw [hstate]; exact look_upd_same s.ops id none
  · rw [hstate]; exact look_upd_other s.ops none hj
  all_goals rw [hstate]; rfl

/-- Completion says nothing of memory. -/
theorem Completes.of_mem {t : State} {st' : Strand} {m : List Host.Cell} (h : Completes (s.setMem m) t id o st st') : Completes s t id o st st' :=
  ⟨h.before, h.strand, h.gone, h.ops, h.path0, h.path1, h.rest, h.batches, h.strands, h.cores, h.package⟩

theorem defer_eq (hst : s.strand o.strand = some st) (hkind : ∀ a, o.kind ≠ .lmrg a) (cause qual : Nat) {emask : Mask} (hmask : emask ≠ 0) (addr : Nat)
    (whole : Bool) : s.defer o cause qual emask addr whole = s.setStrand o.strand { st with deferred := st.deferred ++ [{
      fault := { cause, qual, emask, whole, defer := true, pc := o.pc, addr }, path := if st.divided then o.path else 2, acc := o.acc
      batch := o.batch, vregs := o.vregs, sregs := o.sregs, preds := o.preds, drain := st.draining }] } := by
  unfold State.defer
  rw [if_neg hmask, onStrand_of_some hst]
  generalize (if st.divided = true then o.path else 2) = path
  split
  · rename_i a hk
    exact absurd hk (hkind a)
  · rfl

/-- What an operation was to write crosses a link that is down: the strand has a deferred fault, and nothing is written (02 R49). -/
theorem posted_unwritten {i : Instr} {p n : Nat} {eff : State} (hx : exec i s = .next (s.posted id o p n eff)) (hcut : s.sysCut (coreDie o.core) p n = true)
    (hop : s.op id = some o) (htags : o.tags = []) (hst : s.strand o.strand = some st) (hkind : ∀ a, o.kind ≠ .lmrg a) : Unwritten i s id o st := by
  intro hact
  rw [State.posted, if_pos hcut, defer_eq hst hkind _ _ hact] at hx
  obtain ⟨fin, hcomp, hmem, -, hbars, -⟩ := finishOp_ends (s := s.setStrand o.strand _) hop htags (State.strand_setStrand_same ..)
  exact ⟨_, _, hx, hcomp, sameRegs_withoutOp .., ⟨rfl, rfl, rfl, rfl⟩, hmem, hbars⟩

theorem sysRead_of_write {s t : State} {p : Nat} {bs : List Byte} (h : spread s p bs.length) (hkey : t.sysKey = s.sysKey) (hmem : t.mem = (s.sysWrite p bs).mem) :
    t.sysRead p bs.length = bs := by
  have hread : t.sysRead p bs.length = (sysKeys s p bs.length).map (readByte (writeBytes s.mem (sysKeys s p bs.length) bs)) := by
    simp only [State.sysRead, hkey, hmem, sysKeys, List.map_map]
    rfl
  rw [hread, map_readByte_writeBytes (sysKeys_nodup h) _ (by simp [sysKeys])]

/-- An image is copied to its place, and the context notes it. -/
theorem posted_image {i : Instr} {p : Nat} {img : List Byte} {c : Ctx} (hx : exec i s = .next (s.posted id o p img.length ((s.sysWrite p img).setCtx o.ctx c)))
    (hcut : s.sysCut (coreDie o.core) p img.length = false) (hop : s.op id = some o) (htags : o.tags = []) (hst : s.strand o.strand = some st)
    (hspread : spread s p img.length) : ∃ t st', exec i s = .next t ∧ Completes (s.setCtx o.ctx c) t id o st st' ∧ t.sysRead p img.length = img ∧
      OnlyBytes s t (sysKeys s p img.length) ∧ SameRegs st st' := by
  rw [State.posted, if_neg (by simp [hcut])] at hx
  obtain ⟨fin, hcomp, hmem, -, -, hkey⟩ := finishOp_ends (s := (s.sysWrite p img).setCtx o.ctx c) hop htags hst
  have hdone : Completes (s.setCtx o.ctx c) (((s.sysWrite p img).setCtx o.ctx c).finishOp id) id o st { st.withoutOp id with finishedB := fin } :=
    Completes.of_mem (m := (s.sysWrite p img).mem) hcomp
  refine ⟨_, _, hx, hdone, sysRead_of_write hspread hkey hmem, fun k hk => ?_, sameRegs_withoutOp ..⟩
  rw [hmem]
  exact readByte_writeBytes_other _ _ _ _ hk

theorem exec_stblCopyDone {n : Nat} {img : List Byte} {c : Ctx} (hop : s.op id = some o) (hkind : o.kind = .stbl n img) (hc : s.ctx o.ctx = some c) :
    let bank := 2 * n + (1 - (c.tactive.getLsbD n).toNat)
    exec (.stblCopyDone id) s = .next (s.posted id o (c.ftarea + bank * 16384) img.length
      ((s.sysWrite (c.ftarea + bank * 16384) img).setCtx o.ctx { c with tfilled := c.tfilled ||| (1 <<< bank) })) := by
  rw [show exec (.stblCopyDone id) s = execStblCopyDone id s from rfl, execStblCopyDone, onEvent, hop]
  simp only [hkind, hc, bits_one_eq_toNat]
  rfl

theorem exec_sldCopyDone {n : Nat} {img : List Byte} {c : Ctx} (hop : s.op id = some o) (hkind : o.kind = .sld n img) (hc : s.ctx o.ctx = some c) :
    let bank := 2 * n + (1 - (c.mactive.getLsbD n).toNat)
    exec (.sldCopyDone id) s = .next (s.posted id o (c.mdarea + bank * 98304) img.length
      ((s.sysWrite (c.mdarea + bank * 98304) img).setCtx o.ctx { c with mfilled := c.mfilled ||| (1 <<< bank) })) := by
  rw [show exec (.sldCopyDone id) s = execSldCopyDone id s from rfl, execSldCopyDone, onEvent, hop]
  simp only [hkind, hc, bits_one_eq_toNat]
  rfl

end

/-! The exchange of two banks -/

/-- One bit of a core's copy of the active banks takes the context's bit. -/
theorem getLsbD_exchange {w : Nat} (old now : BitVec w) {k b : Nat} (hb : b < w) :
    (BitVec.ofNat w (bits old.toNat 0 w - bits old.toNat k 1 * 2 ^ k + bits now.toNat k 1 * 2 ^ k)).getLsbD b =
      if b = k then now.getLsbD k else old.getLsbD b := by
  have hput : bits old.toNat 0 w - bits old.toNat k 1 * 2 ^ k + bits now.toNat k 1 * 2 ^ k = putBits old.toNat k 1 (bits now.toNat k 1) := by
    rw [putBits, bits_from_zero, Nat.mod_eq_of_lt old.isLt, Nat.mod_eq_of_lt (bits_lt ..)]
  rw [hput, BitVec.getLsbD_ofNat, testBit_putBits, decide_eq_true hb, Bool.true_and]
  by_cases hk : b = k
  · subst hk
    rw [if_pos (by omega), if_pos rfl, bits_one_eq_toNat]
    cases now.getLsbD b <;> simp
  · rw [if_neg (by omega), if_neg hk]
    rfl

/-- A core's copy of the active banks, with the bit of one table or slot of one context taken over (09 R212). -/
def Core.notice (x : Core) (model : Bool) (ctx n : Nat) (c : Ctx) : Core :=
  if model then { x with mbits := wr 0 x.mbits ctx (BitVec.ofNat 64
    (bits (rd 0 x.mbits ctx).toNat 0 64 - bits (rd 0 x.mbits ctx).toNat n 1 * 2 ^ n + bits c.mactive.toNat n 1 * 2 ^ n)) }
  else { x with tbits := wr 0 x.tbits ctx (BitVec.ofNat 8
    (bits (rd 0 x.tbits ctx).toNat 0 8 - bits (rd 0 x.tbits ctx).toNat n 1 * 2 ^ n + bits c.tactive.toNat n 1 * 2 ^ n)) }

section
variable (x : Core) (model : Bool) (ctx n : Nat) (c : Ctx)

theorem notice_rest : x.notice model ctx n c = { x with tbits := (x.notice model ctx n c).tbits, mbits := (x.notice model ctx n c).mbits } := by
  unfold Core.notice
  split <;> rfl

theorem notice_mbits (y : Nat) {b : Nat} (hb : b < 64) : (rd 0 (x.notice model ctx n c).mbits y).getLsbD b =
    if model = true ∧ y = ctx ∧ b = n then c.mactive.getLsbD n else (rd 0 x.mbits y).getLsbD b := by
  unfold Core.notice
  cases model with
  | false => simp
  | true =>
    rw [if_pos rfl]
    dsimp only
    rw [rd_wr]
    by_cases hy : y = ctx
    · subst hy
      rw [if_pos rfl, getLsbD_exchange _ _ hb]
      simp
    · rw [if_neg hy, if_neg fun h => hy h.2.1]

theorem notice_tbits (y : Nat) {b : Nat} (hb : b < 8) : (rd 0 (x.notice model ctx n c).tbits y).getLsbD b =
    if model = false ∧ y = ctx ∧ b = n then c.tactive.getLsbD n else (rd 0 x.tbits y).getLsbD b := by
  unfold Core.notice
  cases model with
  | true => simp
  | false =>
    rw [if_neg Bool.false_ne_true]
    dsimp only
    rw [rd_wr]
    by_cases hy : y = ctx
    · subst hy
      rw [if_pos rfl, getLsbD_exchange _ _ hb]
      simp
    · rw [if_neg hy, if_neg fun h => hy h.2.1]

end

section
variable {s : State} {id : Nat} {o : Op} {st : Strand} {model : Bool} {n : Nat} {cores : List Nat} {c : Ctx}

theorem exec_bankSwapNotice {core : Nat} (hop : s.op id = some o) (hkind : o.kind = .bankSwap model n cores) (hc : s.ctx o.ctx = some c) (hmem : core ∈ cores) :
    exec (.bankSwapNotice id core) s = .next ((s.onCore core (·.notice model o.ctx n c)).setOp id
      { o with kind := .bankSwap model n (cores.filter (· != core)) }) := by
  rw [show exec (.bankSwapNotice id core) s = execBankSwapNotice id core s from rfl, execBankSwapNotice, onEvent, hop]
  simp only [hkind, hc]
  rw [if_neg (by simpa using hmem)]
  rfl

theorem exec_bankSwapComplete (hop : s.op id = some o) (hkind : o.kind = .bankSwap model n []) (hc : s.ctx o.ctx = some c)
    (hfree : usesOldBank s o.ctx model n (if model then c.mactive.getLsbD n else c.tactive.getLsbD n).toNat = false) :
    exec (.bankSwapComplete id) s = .next (s.finishOp id) := by
  have hbit : bits (if model then c.mactive.toNat else c.tactive.toNat) n 1 = (if model then c.mactive.getLsbD n else c.tactive.getLsbD n).toNat := by
    cases model <;> exact bits_one_eq_toNat ..
  rw [show exec (.bankSwapComplete id) s = execBankSwapComplete id s from rfl, execBankSwapComplete, onEvent, hop]
  simp only [hkind, hc]
  rw [hbit, hfree]
  rfl

end

/-! Recovery strands -/

/-- A strand whose thread n holds the arguments of entry n, in the registers of the region's descriptor (09 R233). -/
def Strand.takeArgs (st : Strand) (es : List RecEntry) : Strand :=
  (es.mapIdx fun n x => (n, x)).foldl (fun st x => st.take x.1 (x.2.argRegs.zip x.2.args)) st

theorem Strand.takeArgs_append (st : Strand) (es : List RecEntry) (x : RecEntry) :
    st.takeArgs (es ++ [x]) = (st.takeArgs es).take es.length (x.argRegs.zip x.args) := by
  rw [Strand.takeArgs, List.mapIdx_concat, List.foldl_append]
  rfl

theorem Strand.takeArgs_rest (st : Strand) (es : List RecEntry) : st.takeArgs es = { st with v := (st.takeArgs es).v } := by
  induction es using List.reverseRecOn with
  | nil => rfl
  | append_singleton es x ih => rw [Strand.takeArgs_append, Strand.take_rest, ih]

theorem Strand.vreg_takeArgs (st : Strand) {es : List RecEntry} {n j c : Nat} {x : RecEntry} {v : Word} (hlen : es.length ≤ 32)
    (hregs : ∀ x ∈ es, x.argRegs.Nodup) (hx : es[n]? = some x) (hc : x.argRegs[j]? = some c) (hv : x.args[j]? = some v) : (st.takeArgs es).vreg c n = v := by
  induction es using List.reverseRecOn with
  | nil => simp at hx
  | append_singleton es y ih =>
    rw [List.length_append, List.length_singleton] at hlen
    rw [Strand.takeArgs_append]
    rcases Nat.lt_or_ge n es.length with hlt | hge
    · rw [Strand.vreg_take_other _ (by omega) (by omega) fun h => absurd h (by omega)]
      exact ih (by omega) (fun x hx => hregs x (List.mem_append_left _ hx)) ((List.getElem?_append_left hlt).symm.trans hx)
    · have hn := (List.getElem?_eq_some_iff.mp hx).1
      rw [List.length_append, List.length_singleton] at hn
      obtain rfl : n = es.length := by omega
      obtain rfl : y = x := by simpa using hx
      have hmem : (c, v) ∈ y.argRegs.zip y.args := List.mem_of_getElem? (i := j) (by rw [List.getElem?_zip_eq_some]; exact ⟨hc, hv⟩)
      exact Strand.vreg_take_of_mem (p := (c, v)) _ (by omega) (nodup_fst_zip (hregs y (by simp)) _) hmem

/-- The entries that may share a strand with entry en (09 R232). -/
def RecEntry.like (en x : RecEntry) : Bool := x.ctx == en.ctx && x.region == en.region && x.header == en.header && x.pc == en.pc

/-- The recovery strand of entries es, the oldest of which is en, in recovery slot `slot`, of the gang of src (09 R233). -/
def recoveryStrand (en : RecEntry) (es : List RecEntry) (src : Strand) (slot : Nat) : Strand :=
  ({ gang := src.gang, index := src.index, role := 3, lane := slot, allot := (es.map (·.srcAllot)).foldl max 0, recov := some es
     path0 := { pc := en.pc + 4, act := maskOf (List.range es.length) } } : Strand).takeArgs es

section
variable {s : State} {core slot : Nat} {en : RecEntry} {rest : List RecEntry} {src : Strand}

theorem exec_recoveryStrandForm (hq : (s.core core).recq = en :: rest) (hsrc : s.strand en.source = some src) (hslot : slot < 8)
    (hfree : s.strand (core * 512 + 384 + slot) = none) :
    let es := ((en :: rest).filter en.like).take 32
    exec (.recoveryStrandForm core slot) s = .next (((s.onCore core fun c => { c with recq := (en :: rest).filter fun x => !es.contains x }).setStrand
      (core * 512 + 384 + slot) (recoveryStrand en es src slot)).trace (core * 512 + 384 + slot) 0 7 (en.pc + 4) (recoveryStrand en es src slot).path0.act 0) := by
  intro es
  have hkey : strandKey core (384 + slot) = core * 512 + 384 + slot := by rw [strandKey]; omega
  have hpc : en.pc + 4 = (recoveryStrand en es src slot).path0.pc := by rw [recoveryStrand, Strand.takeArgs_rest]
  rw [show exec (.recoveryStrandForm core slot) s = execRecoveryStrandForm core slot s from rfl, execRecoveryStrandForm, hpc]
  simp only [hq, hsrc, hkey, hfree]
  rw [if_neg (by simp; omega)]
  rfl

theorem recoveryStrand_forms (hq : (s.core core).recq = en :: rest) (hsrc : s.strand en.source = some src) (hslot : slot < 8)
    (hfree : s.strand (core * 512 + 384 + slot) = none) :
    let es := ((en :: rest).filter en.like).take 32
    (∀ x ∈ es, x.argRegs.Nodup ∧ x.argRegs.length = x.args.length) →
    ∃ (u : State) (st : Strand), exec (.recoveryStrandForm core slot) s = .next (u.trace (core * 512 + 384 + slot) 0 7 (en.pc + 4) st.path0.act 0) ∧
      u.strand (core * 512 + 384 + slot) = some st ∧ (∀ k, k ≠ core * 512 + 384 + slot → u.strand k = s.strand k) ∧
      u = { s with strands := u.strands, cores := u.cores } ∧ (∀ k, k ≠ core → u.core k = s.core k) ∧
      u.core core = { s.core core with recq := (en :: rest).filter fun x => !es.contains x } ∧
      st.gang = src.gang ∧ st.role = 3 ∧ st.lane = slot ∧ st.recov = some es ∧ st.path0.pc = en.pc + 4 ∧ st.mode = .running ∧
      (∀ t, t < 32 → has st.path0.act t = decide (t < es.length)) ∧
      ∀ (n : Nat) (x : RecEntry) (j c : Nat) (v : Word), es[n]? = some x → x.argRegs[j]? = some c → x.args[j]? = some v → st.vreg c n = v := by
  intro es hregs
  have hrest : recoveryStrand en es src slot = _ := Strand.takeArgs_rest _ es
  have hlen : es.length ≤ 32 := List.length_take_le ..
  refine ⟨_, recoveryStrand en es src slot, exec_recoveryStrandForm hq hsrc hslot hfree, State.strand_setStrand_same .., fun k hk => ?_, rfl, fun k hk => ?_,
    State.core_setCore_same .., ?_, ?_, ?_, ?_, ?_, ?_, fun t ht => ?_, fun n x j c v hx hc hv => ?_⟩
  · exact (State.strand_setStrand ..).trans (if_neg hk)
  · exact (State.core_setCore ..).trans (if_neg hk)
  · rw [hrest]
  · rw [hrest]
  · rw [hrest]
  · rw [hrest]
  · rw [hrest]
  · rw [hrest]
  · rw [hrest]
    simp [has_maskOf, ht]
  · exact Strand.vreg_takeArgs _ hlen (fun x hx => (hregs x hx).1) hx hc hv

end

/-! What a path comes to next rests on no core and no strand (12 R284) -/

/-- The state with other cores and other strands. -/
def State.remanned (s : State) (cs : Tab Core) (ss : Tab Strand) : State := { s with cores := cs, strands := ss }

section
variable (s : State) (cs : Tab Core) (ss : Tab Strand)

theorem recordCheck_remanned (d ctx fuel : Nat) (r : ObjRec) (sl : Slot) :
    recordCheck (s.remanned cs ss) d ctx fuel r sl = recordCheck s d ctx fuel r sl := by
  induction fuel generalizing r sl with
  | zero => rfl
  | succ fuel ih =>
    simp only [recordCheck, ih]
    rfl

theorem translateAt_remanned (fuel d ctx addr m : Nat) (kind : Kind) (host : Bool) (named : Option Nat) :
    translateAt fuel (s.remanned cs ss) d ctx addr m kind host named = translateAt fuel s d ctx addr m kind host named := by
  have hbad (r : ObjRec) (sl : Slot) : recordBad (s.remanned cs ss) d ctx r sl = recordBad s d ctx r sl := by
    rw [recordBad, recordCheck_remanned]
    rfl
  induction fuel generalizing addr m kind host named with
  | zero => rfl
  | succ fuel ih =>
    simp only [translateAt, ih, hbad]
    rfl

theorem fetchWord_remanned (core : Nat) (g : Gang) (pc : Word) : fetchWord (s.remanned cs ss) core g pc = fetchWord s core g pc := by
  rw [fetchWord, translate, translateAt_remanned]
  rfl

theorem peek_remanned (core : Nat) (g : Gang) (n : Nat) (p : Path) : peek (s.remanned cs ss) core g n p = peek s core g n p := by
  induction n generalizing p with
  | zero => rfl
  | succ n ih => simp only [peek, fetchWord_remanned, ih]

end

/-- Looking ahead moves a path over hint words alone. -/
theorem peek_run {s : State} {core n : Nat} {g : Gang} {p p' : Path} {i : Option Instr} (h : peek s core g n p = (i, p')) : p'.run = p.run := by
  induction n generalizing p with
  | zero => cases h; rfl
  | succ n ih =>
    rw [peek] at h
    split at h
    · cases h; rfl
    split at h
    · cases h; rfl
    split at h
    · cases h; rfl
    · exact (ih h).trans rfl

/-! A CLAIM that is granted -/

theorem countEvent_claims (s : State) (core c : Nat) : ((s.countEvent core 0).core c).claims = (s.core c).claims := by
  rw [State.countEvent_core]

theorem charge_claims (s : State) (core ctx cls n c : Nat) : ((s.charge core ctx cls n).core c).claims = (s.core c).claims := by
  rw [State.charge_core]

theorem pay_state (e : Env) (s : State) : e.pay s = { s with cores := (e.pay s).cores } := by
  unfold Env.pay
  dsimp only
  rw [State.charge_eq]
  rw [State.charge_eq s]

theorem pay_claims (e : Env) (s : State) (c : Nat) : ((e.pay s).core c).claims = (s.core c).claims := by
  unfold Env.pay
  dsimp only
  rw [charge_claims, charge_claims]

/-- A count of the core and the choice of the next path leave strands, memory and CLAIMs. -/
theorem counted_uncurred (s : State) (e : Env) (long stop : Bool) :
    let s2 := if long then s.countEvent e.core 0 else s
    let t := if stop then s2.uncur e.k e.pi else s2
    (∀ k, t.strand k = s.strand k) ∧ t.mem = s.mem ∧ ∀ c, (t.core c).claims = (s.core c).claims := by
  intro s2 t
  have h2 : (∀ k, s2.strand k = s.strand k) ∧ s2.mem = s.mem ∧ ∀ c, (s2.core c).claims = (s.core c).claims := by
    cases long with
    | false => exact ⟨fun _ => rfl, rfl, fun _ => rfl⟩
    | true => exact ⟨fun _ => rfl, rfl, countEvent_claims s e.core⟩
  cases stop with
  | false => exact h2
  | true =>
    rw [show t = s2.uncur e.k e.pi from rfl, State.uncur_eq]
    exact h2

/-- The end of a chain whose path has no run: the path is past it, and of the rest only what issues next and what the core counts changes. -/
theorem finish_without_run {u : State} {e : Env} {st : Strand} (hst : u.strand e.k = some st) (hrun : (st.path e.pi).run = none) :
    ∃ st', (e.finish none false u).strand e.k = some st' ∧ st'.allot = st.allot ∧
      (st'.path e.pi).pc = (match (st.path e.pi).reissue with | some x => x.cont | none => (st.path e.pi).pc + 4) ∧ (st'.path e.pi).run = none ∧
      (∀ k, k ≠ e.k → (e.finish none false u).strand k = u.strand k) ∧ (e.finish none false u).mem = u.mem ∧
      ∀ c, ((e.finish none false u).core c).claims = (u.core c).claims := by
  have hpast (stop : Bool) : ((st.path e.pi).past e.len none stop).run = none := by
    simp [Path.past, hrun]
  unfold Env.finish
  simp only [hst, hrun]
  generalize (false || boundary e.i || decide (runLimit e.g.hdr.version ≤ 0 + e.len) || st.stepping.isSome) = stop
  generalize (decide (runLimit e.g.hdr.version ≤ 0 + e.len) && !false && !boundary e.i) = long
  obtain ⟨hstrands, hmem, hclaims⟩ := counted_uncurred (u.setStrand e.k ((st.noteStep e.pi).setPath e.pi ((st.path e.pi).past e.len none stop))) e long stop
  refine ⟨_, (hstrands e.k).trans (State.strand_setStrand_same ..), ?_, ?_, ?_, fun k hk => (hstrands k).trans ((State.strand_setStrand ..).trans (if_neg hk)),
    hmem, hclaims⟩
  · rw [Strand.setPath_eq, Strand.noteStep_eq]
  · rw [Strand.path_setPath]
    rfl
  · rw [Strand.path_setPath]
    exact hpast stop

/-- The CLAIMs that stay when some are dropped, whatever time the first of a lane has waited since. -/
theorem dropClaims_kept (c : Core) (now : Nat) (drop : Nat × ClaimReq → Bool) :
    (c.dropClaims now drop).claims.map claimOf = (c.claims.filter fun x => !drop x).map claimOf := by
  unfold Core.dropClaims
  dsimp only
  rw [List.map_map]
  refine List.map_congr_left fun r _ => ?_
  simp only [Function.comp_apply]
  split <;> rfl

theorem find_lane_map {f : Nat × ClaimReq → Nat × ClaimReq} (hf : ∀ r, (f r).1 = r.1) (l : List (Nat × ClaimReq)) (lane : Nat) :
    (l.map f).find? (fun x => x.1 == lane) = (l.find? fun x => x.1 == lane).map f := by
  rw [List.find?_map]
  congr 2
  funext r
  simp only [Function.comp_apply, hf]

/-- Once the first CLAIM of a lane is gone, the next waits there from now (12 R301). -/
theorem dropClaims_head {c : Core} {lane : Nat} {q : Nat × ClaimReq} {rest : List (Nat × ClaimReq)} (h : c.claims.filter (fun x => x.1 == lane) = q :: rest)
    (now : Nat) {y : Nat × ClaimReq} (hy : (c.dropClaims now (· == q)).claims.find? (fun x => x.1 == lane) = some y) : y.2.head = now := by
  have hfirst : c.claims.find? (fun x => x.1 == lane) = some q := by rw [← List.head?_filter, h]; rfl
  unfold Core.dropClaims at hy
  dsimp only at hy
  rw [find_lane_map fun r => by split <;> rfl] at hy
  obtain ⟨r, hr, rfl⟩ := Option.map_eq_some_iff.mp hy
  obtain rfl : r.1 = lane := by simpa using List.find?_some hr
  have hne : r ≠ q := by simpa using (List.mem_filter.mp (List.mem_of_find?_eq_some hr)).2
  have hnew : ((c.claims.filter fun r => !(r == q)).find? (fun x => x.1 == r.1) == some r && !(c.claims.find? (fun x => x.1 == r.1) == some r)) = true := by
    rw [hr, hfirst]
    simpa using hne.symm
  rw [if_pos hnew]

/-- The chain that a path was held at has its effect, and the path goes on without a run (12 R285). -/
theorem passHeld_goes_on {u : State} {k pi : Nat} {st : Strand} {g : Gang} {i : Instr} {p : Path} (hst : u.strand k = some st) (hg : u.gang st.gang = some g)
    (hpeek : peek u (coreOf k) g 8 (st.path pi) = (some i, p)) (hrun : (st.path pi).run = none) :
    ∃ st', (u.passHeld k pi).strand k = some st' ∧ st'.allot = st.allot ∧
      (st'.path pi).pc = (match p.reissue with | some x => x.cont | none => p.pc + 4) ∧ (st'.path pi).run = none ∧
      (∀ j, j ≠ k → (u.passHeld k pi).strand j = u.strand j) ∧ (u.passHeld k pi).mem = u.mem ∧
      ∀ c, ((u.passHeld k pi).core c).claims = (u.core c).claims := by
  let p1 : Path := p.begun (u.core (coreOf k)) g.task.ctx
  let e : Env := envAt k pi i (st.setPath pi p1) g
  have hheld : u.passHeld k pi = e.finish none false (e.pay (u.setStrand k (st.setPath pi p1))) := by
    unfold State.passHeld heldEnv comingTo
    rw [hst]
    dsimp only
    rw [hg]
    dsimp only
    rw [hpeek]
    rfl
  have hpath : (st.setPath pi p1).path pi = p1 := Strand.path_setPath ..
  have hidle : ((st.setPath pi p1).path e.pi).run = none := by
    rw [show (st.setPath pi p1).path e.pi = p1 from hpath]
    show p.run.map _ = none
    rw [peek_run hpeek, hrun]
    rfl
  have hstrand : (e.pay (u.setStrand k (st.setPath pi p1))).strand e.k = some (st.setPath pi p1) := by
    rw [pay_state]
    exact State.strand_setStrand_same ..
  obtain ⟨st', hst', hallot, hpc, hrun', hothers, hmem, hclaims⟩ := finish_without_run hstrand hidle
  rw [hheld]
  refine ⟨st', hst', hallot.trans (Strand.setPath_allot ..), ?_, hrun', fun j hj => (hothers j hj).trans ?_, hmem.trans ?_, fun c =>
    (hclaims c).trans (pay_claims ..)⟩
  · refine hpc.trans ?_
    rw [show (st.setPath pi p1).path e.pi = p1 from hpath]
    rfl
  · rw [pay_state]
    exact (State.strand_setStrand ..).trans (if_neg hj)
  · rw [pay_state]
    rfl

/-- A granted CLAIM: its strand has its blocks, its path goes on, and the CLAIM is gone (12 R301). -/
theorem claimGrant_grants {s : State} {core lane : Nat} {q : Nat × ClaimReq} {rest : List (Nat × ClaimReq)} {st : Strand} {i : Instr} {p : Path} {g : Gang}
    (hq : (s.core core).claims.filter (fun x => x.1 == lane) = q :: rest) (hroom : s.laneBlocks core lane + q.2.blocks ≤ lanePool lane)
    (hst : s.strand q.2.strand = some st) (hcore : coreOf q.2.strand = core) (hrun : (st.path q.2.path).run = none) (hg : s.gang st.gang = some g)
    (hpeek : peek s core g 8 (st.path q.2.path) = (some i, p)) :
    ∃ t st', exec (.claimGrant core lane) s = .next t ∧ t.strand q.2.strand = some st' ∧ st'.allot = st.allot + 8 * q.2.blocks ∧
      (st'.path q.2.path).pc = (match p.reissue with | some x => x.cont | none => p.pc + 4) ∧ (st'.path q.2.path).run = none ∧
      (∀ k, k ≠ q.2.strand → t.strand k = s.strand k) ∧ t.mem = s.mem ∧
      (t.core core).claims.map claimOf = ((s.core core).claims.filter fun x => x != q).map claimOf ∧
      ∀ y, (t.core core).claims.find? (fun x => x.1 == lane) = some y → y.2.head = dieCycle (coreDie core) s.now := by
  let st1 : Strand := { st with allot := st.allot + 8 * q.2.blocks }
  let u : State := (s.onCore core fun c => c.dropClaims (dieCycle (coreDie core) s.now) (· == q)).setStrand q.2.strand st1
  have hexec : exec (.claimGrant core lane) s = .next (u.passHeld q.2.strand q.2.path) := by
    have hx : exec (.claimGrant core lane) s = execClaimGrant core lane s := rfl
    rw [execClaimGrant, hq] at hx
    dsimp only at hx
    rw [if_neg (by omega), onStrand_of_some (s := s.onCore core _) hst] at hx
    exact hx
  have hlook : peek u (coreOf q.2.strand) g 8 (st1.path q.2.path) = (some i, p) := by
    rw [hcore]
    exact (peek_remanned s u.cores u.strands core g 8 _).trans hpeek
  obtain ⟨st', hst', hallot, hpc, hrun', hothers, hmem, hclaims⟩ :=
    passHeld_goes_on (u := u) (st := st1) (g := g) (State.strand_setStrand_same ..) hg hlook hrun
  have hclaims' : ((u.passHeld q.2.strand q.2.path).core core).claims = ((s.core core).dropClaims (dieCycle (coreDie core) s.now) (· == q)).claims :=
    (hclaims core).trans (congrArg Core.claims (State.core_setCore_same ..))
  refine ⟨_, st', hexec, hst', hallot, hpc, hrun', fun k hk => (hothers k hk).trans ((State.strand_setStrand ..).trans (if_neg hk)), hmem, ?_, fun y hy => ?_⟩
  · rw [hclaims', dropClaims_kept]
    rfl
  · rw [hclaims'] at hy
    exact dropClaims_head hq _ hy

/-! A CLAIM that waits too long -/

theorem look_map_value {α : Type} (f : Nat → α → α) (l : Tab α) (m : Nat) : look (l.map fun x => (x.1, f x.1 x.2)) m = (look l m).map (f m) := by
  induction l with
  | nil => rfl
  | cons x l ih =>
    rw [List.map_cons, look, look]
    split
    · next h => rw [h]; rfl
    · exact ih

theorem ne_of_look_none {α : Type} {l : Tab α} {k : Nat} (h : look l k = none) : ∀ x ∈ l, x.1 ≠ k := by
  induction l with
  | nil => exact fun x hx => absurd hx List.not_mem_nil
  | cons y l ih =>
    rw [look] at h
    split at h
    · cases h
    · next hne => exact List.forall_mem_cons.mpr ⟨Ne.symm hne, ih h⟩

/-- A gang that is marked for swap if its number is n. -/
def Gang.marked (g : Gang) (n m : Nat) : Gang := if m = n then { g with swap := true } else g
/-- The gangs with gang n marked for swap. -/
def markedGangs (gs : Tab Gang) (n : Nat) : Tab Gang := gs.map fun x => (x.1, x.2.marked n x.1)

section
variable {s : State} {n : Nat} {g : Gang}

/-- Marking one gang, no team's, marks no other, and its waits are withdrawn (12 R307). -/
theorem markSwap_single (hmem : (n, g) ∈ s.gangs) (hall : ∀ x ∈ s.gangs, x.1 = n → x.2 = g) (hres : g.resident = true) (hteam : g.hdr.team = false) :
    s.markSwap (fun m _ => m == n) = ({ s with gangs := markedGangs s.gangs n } : State).withdrawAll (laneStrands s n) := by
  have hmate (h : Gang) : ((s.gangs.filter fun x => x.2.resident && x.1 == n).any fun x =>
      x.2.hdr.team && h.hdr.team && x.2.launch == h.launch && x.2.index / 4 == h.index / 4) = false := by
    rw [List.any_eq_false]
    intro x hx
    obtain ⟨hx, hx'⟩ := List.mem_filter.mp hx
    rw [hall x hx (by simpa using (Bool.and_eq_true_iff.mp hx').2), hteam]
    simp
  have hmarked : ∀ x ∈ s.gangs, (x.2.resident && (x.1 == n)) = (x.1 == n) := by
    intro x hx
    by_cases hn : x.1 = n
    · rw [hall x hx hn, hres, Bool.true_and]
    · simp [hn]
  unfold State.markSwap
  simp only [hmate, Bool.or_false]
  have hgangs : (s.gangs.map fun x => if (x.2.resident && x.1 == n) = true then (x.1, { x.2 with swap := true }) else x) = markedGangs s.gangs n := by
    refine List.map_congr_left fun x hx => ?_
    rw [hmarked x hx, Gang.marked]
    simp only [beq_iff_eq]
    split <;> rfl
  have hgone (k : Nat) : ((s.gangs.filter fun x => x.2.resident && x.1 == n).map (·.1)).contains k = (k == n) := by
    rw [Bool.eq_iff_iff, List.contains_iff_mem, List.mem_map]
    constructor
    · rintro ⟨x, hx, rfl⟩
      exact (Bool.and_eq_true_iff.mp (List.mem_filter.mp hx).2).2
    · intro hk
      exact ⟨(n, g), List.mem_filter.mpr ⟨hmem, by simp [hres]⟩, (beq_iff_eq.mp hk).symm⟩
  simp only [hgangs, hgone]
  rfl

theorem markSwap_single_withdraws (hmem : (n, g) ∈ s.gangs) (hall : ∀ x ∈ s.gangs, x.1 = n → x.2 = g) (hres : g.resident = true) (hteam : g.hdr.team = false)
    (hr : rising none s.strands = true) (hun : noneUnmatched s) :
    Withdraws s (s.markSwap fun m _ => m == n) (· == n) ∧
      s.markSwap (fun m _ => m == n) = { s with cores := (s.markSwap fun m _ => m == n).cores, gangs := markedGangs s.gangs n } := by
  have hks : ∀ k ∈ laneStrands s n, ({ s with gangs := markedGangs s.gangs n } : State).unmatched k = [] := by
    intro k hk
    obtain ⟨x, hx, rfl⟩ := List.mem_map.mp hk
    exact hun x (List.mem_filter.mp hx).1
  rw [markSwap_single hmem hall hres hteam, withdrawAll_claims hks]
  refine ⟨⟨fun c => (core_foldl_dropWaits _ _ c).1, fun c => (core_foldl_dropWaits _ _ c).2.trans ?_⟩, foldl_dropWaits_state _ _⟩
  rw [List.filter_map]
  refine congrArg (List.map claimOf) (List.filter_congr fun x _ => ?_)
  exact congrArg (!·) (any_laneStrands hr n x.2.strand c)

theorem onlyGang_marked {t : State} (hmem : (n, g) ∈ s.gangs) (hall : ∀ x ∈ s.gangs, x.1 = n → x.2 = g) (ht : t.gangs = markedGangs s.gangs n) :
    OnlyGang s t n { g with swap := true } := by
  have hgang (m : Nat) : t.gang m = (s.gang m).map (·.marked n m) := by
    unfold State.gang
    rw [ht]
    exact look_map_value (fun m g => g.marked n m) s.gangs m
  have hn : s.gang n = some g := by
    cases hlook : s.gang n with
    | none => exact absurd rfl (ne_of_look_none hlook _ hmem)
    | some g' => exact congrArg some (hall (n, g') (mem_of_look hlook) rfl)
  refine ⟨?_, fun m hm => ?_⟩
  · rw [hgang, hn]
    simp [Gang.marked]
  · rw [hgang]
    simp [Gang.marked, hm]

end

/-- A CLAIM that has waited its time marks the one gang that holds blocks of its lane (12 R301). -/
theorem exec_claimStarvation {s : State} {core lane n : Nat} {g : Gang} {q : Nat × ClaimReq} (hq : (s.core core).claims.find? (fun x => x.1 == lane) = some q)
    (hwait : q.2.head + 65536 ≤ dieCycle (coreDie core) s.now) (hfull : lanePool lane < s.laneBlocks core lane + q.2.blocks)
    (hone : (s.gangs.filter fun x => x.2.core == core && x.2.resident) = [(n, g)]) (hswap : g.swap = false) (hblocks : 0 < gangBlocks s core lane n)
    (hother : (s.strand q.2.strand).map (·.gang) ≠ some n) : exec (.claimStarvation core lane) s = .next (s.markSwap fun m _ => m == n) := by
  have hresidents : s.residents core = [(n, g)] := hone
  have hkeep : (some n != (s.strand q.2.strand).map (·.gang) && decide (0 < gangBlocks s core lane n)) = true := by
    simpa [hblocks] using hother.symm
  have hholders : [(n, g)].filter (fun x => some x.1 != (s.strand q.2.strand).map (·.gang) && decide (0 < gangBlocks s core lane x.1)) = [(n, g)] :=
    List.filter_eq_self.mpr fun x hx => by rw [List.mem_singleton.mp hx]; exact hkeep
  have hx : exec (.claimStarvation core lane) s = execClaimStarvation core lane s := rfl
  rw [execClaimStarvation, hq] at hx
  dsimp only at hx
  rw [hresidents, hholders, if_neg (by simp [hswap]; omega)] at hx
  exact hx

/-- Settles O43: the copies and the exchange of banks, recovery strands and CLAIMs, each by the lemmas above. -/
theorem banksRecoveryAndClaims : Obligations.BanksRecoveryAndClaims := by
  unfold Obligations.BanksRecoveryAndClaims
  intro s
  refine ⟨fun id o st c hop hst hc hquiet => ?_, ?_, ?_, ?_⟩
  · obtain ⟨-, -, htags⟩ := hquiet
    refine ⟨fun n img hkind _ hspread => ?_, fun n img hkind _ hspread => ?_, fun model n cores hkind => ⟨fun core hcore _ => ?_, fun hnil hfree => ?_⟩⟩
    · have hx := exec_stblCopyDone hop hkind hc
      exact ⟨fun hcut => posted_unwritten hx hcut hop htags hst (by simp [hkind]), fun hcut => posted_image hx hcut hop htags hst hspread⟩
    · have hx := exec_sldCopyDone hop hkind hc
      exact ⟨fun hcut => posted_unwritten hx hcut hop htags hst (by simp [hkind]), fun hcut => posted_image hx hcut hop htags hst hspread⟩
    · have hnow : ((s.onCore core (·.notice model o.ctx n c)).setOp id { o with kind := .bankSwap model n (cores.filter (· != core)) }).core core =
          (s.core core).notice model o.ctx n c := State.core_setCore_same ..
      refine ⟨_, exec_bankSwapNotice hop hkind hc hcore, rfl, look_upd_same s.ops id (some _), fun j hj => look_upd_other s.ops (some _) hj,
        fun k hk => (State.core_setCore ..).trans (if_neg hk), ?_, fun x b hb => ?_, fun x b hb => ?_⟩
      · rw [hnow]
        exact notice_rest ..
      · rw [hnow]
        exact notice_mbits _ _ _ _ _ x hb
      · rw [hnow]
        exact notice_tbits _ _ _ _ _ x hb
    · subst hnil
      obtain ⟨fin, hcomp, hmem, hcores, hbars, -⟩ := finishOp_ends hop htags hst
      exact ⟨_, _, exec_bankSwapComplete hop hkind hc hfree, hcomp, hmem, hcores, hbars, sameRegs_withoutOp ..⟩
  · intro core slot en rest src hq hsrc hslot hfree
    exact recoveryStrand_forms hq hsrc hslot hfree
  · intro core lane q rest st hq hroom hst hcore _ hrun i p g hg hpeek
    exact claimGrant_grants hq hroom hst hcore hrun hg hpeek
  · intro core lane q hq hwait hfull n g hone hswap hblocks _ hother hall hteam hr hun
    obtain ⟨hmem, hres⟩ : (n, g) ∈ s.gangs ∧ (g.core == core && g.resident) = true :=
      List.mem_filter.mp (hone ▸ List.mem_singleton_self (n, g))
    have hres : g.resident = true := (Bool.and_eq_true_iff.mp hres).2
    obtain ⟨hwithdraws, hstate⟩ := markSwap_single_withdraws hmem hall hres hteam hr hun
    have hgangs : (s.markSwap fun m _ => m == n).gangs = markedGangs s.gangs n := by rw [hstate]
    refine ⟨_, exec_claimStarvation hq hwait hfull hone hswap hblocks hother, ?_, onlyGang_marked hmem hall hgangs, hwithdraws⟩
    rw [hgangs]
    exact hstate

end Sys2Proof.Machine
end

section
/-!
PROOFS. Requests that Lantern has tagged: the end of an operation writes their records to Lantern's object (15 R383), whichever operation it is.
-/

namespace Sys2Proof.Machine

/-- The record of an object of 1,024 elements of 4 bytes at 0x20000 of the Onyx SRAM of die 0, which may be read and written (01 R19). -/
def lanternRecord : List Byte :=
  leBytes 16 (1 + 5 * 2 ^ 6 + 16 * 2 ^ 16 + 4096 * 2 ^ 64) ++ leBytes 16 (1024 + 2 ^ 32 + 2 ^ 64 + 2 ^ 96) ++ leBytes 32 1 ++
  leBytes 16 (0x20000 + 4096 * 2 ^ 64) ++ leBytes 48 ((15 + 3 * 16) * 2 ^ 32)

/-- An MLD of an FP32 image at key 0 into tile 0, one request of which Lantern has tagged. -/
def taggedMld : Op := { kind := .mld 0 0 false 0, tags := [0] }

/-- The MLD at the head of its core's queue, with object 1 as the object Lantern writes to: die 0 holds its record, for a publish has not reached the
die yet (01 R35). -/
def taggedMldQueued : State := {
  cores := [(0, { queue := [5] })], dies := [(0, { lantern := 0x1001 })], ctxs := [(0, { otbase := 0x10000, otlen := 2 })]
  gangs := [(0, {})], strands := [(0, {})], ops := [(5, taggedMld)]
  pkg := { win := { caps := 0x10 }, pubs := [(0, { obj := 1, swapped := true, waiting := [0], oldRecord := lanternRecord })] } }

/-- Of bytes written one place after another, the first stands where no later one does. -/
theorem readByte_writeSome_first {key : Nat → Option Nat} {o k : Nat} (hk : key o = some k) (m : List Host.Cell) (b : Byte) :
    ∀ bs : List Byte, (∀ i, i < bs.length → key (o + 1 + i) ≠ some k) → readByte (writeSome m key o (b :: bs)) k = b := by
  have hkept (bs : List Byte) : ∀ (m : List Host.Cell) (o : Nat), (∀ i, i < bs.length → key (o + i) ≠ some k) →
      readByte (writeSome m key o bs) k = readByte m k := by
    induction bs with
    | nil => exact fun _ _ _ => rfl
    | cons b bs ih =>
      intro m o h
      rw [writeSome, ih _ _ fun i hi => by simpa [Nat.add_assoc, Nat.add_comm 1 i] using h (i + 1) (by simpa using hi)]
      cases hkey : key o with
      | none => rfl
      | some k' =>
        have hne : k ≠ k' := by rintro rfl; exact h 0 (by simp) hkey
        exact (readByte_writeByte m k' k b).trans (if_neg hne)
  intro bs h
  rw [writeSome, hkept bs _ _ h, hk]
  exact (readByte_writeByte m k k b).trans (if_pos rfl)

/-- A record of layout 0 without a residency bitmap is checked without a look at memory (01 R21). -/
theorem recordCheck_plain (s : State) (m : List Host.Cell) (k d ctx fuel : Nat) {r : ObjRec} (sl : Slot) (hlayout : r.layout = 0) (hmap : r.resmap = 0) :
    recordCheck { s with mem := m, free := k } d ctx fuel r sl = recordCheck s d ctx fuel r sl := by
  cases fuel with
  | zero => rfl
  | succ fuel =>
    unfold recordCheck
    simp only [hlayout, hmap]
    rfl

theorem record_of_hwRecord {s : State} {d ctx id : Nat} {r : ObjRec} (h : hwRecord s d ctx id = some r) : record s d ctx id = some r := by
  unfold hwRecord at h
  split at h
  · cases h
  · rename_i r' hr
    split at h
    · cases h
    · exact hr.trans h

/-- A record that a die holds while a publish is on its way is the same whatever memory holds (01 R35). -/
theorem hwRecord_held {s : State} {d ctx id : Nat} {r : ObjRec} {p : Nat × Pub} (hr : hwRecord s d ctx id = some r) (hlayout : r.layout = 0)
    (hmap : r.resmap = 0) (hp : (s.pkg.pubs.find? fun e => e.2.swapped && e.2.ctx == ctx && e.2.obj == id && e.2.waiting.contains d) = some p)
    (m : List Host.Cell) (k : Nat) : hwRecord { s with mem := m, free := k } d ctx id = some r := by
  have hrec : record s d ctx id = some r := record_of_hwRecord hr
  have hsame : record { s with mem := m, free := k } d ctx id = record s d ctx id := by
    unfold record recordBytes
    rw [hp]
    rfl
  have hbad : recordBad { s with mem := m, free := k } d ctx r r.current = recordBad s d ctx r r.current :=
    congrArg (fun x => if (!r.valid) = true then some 0 else x) (recordCheck_plain s m k d ctx (recordDepth s ctx) r.current hlayout hmap)
  unfold hwRecord at hr ⊢
  rw [hrec] at hr
  rw [hsame, hrec]
  dsimp only
  rw [hbad]
  exact hr

/-- Lantern's object, whose record is r, takes the record of a request (15 R383): it can be reached, and has room. -/
def State.sampleFits (s : State) (o : Op) (r : ObjRec) : Bool :=
  let d := coreDie o.core
  let obj := bits (s.die d).lantern.toNat 12 24
  let head := hwNat s d o.ctx obj 0 8
  let tail := hwNat s d o.ctx obj 8 8
  let cap := (r.extent - 64) / 64
  !(!hwReaches s d o.ctx obj 0 16 || decide (cap = 0) || decide (cap ≤ tail - head) || !hwReaches s d o.ctx obj (64 + 64 * (tail % cap)) 64)

/-- The last thing that a sample writes is the tail of Lantern's object, at its byte 8. -/
theorem writeSample_mem {s : State} {o : Op} (n : Nat) (hit : Bool) {r : ObjRec} (hfits : s.sampleFits o r = true)
    (hr : ∀ m k, hwRecord { s with mem := m, free := k } (coreDie o.core) o.ctx (bits (s.die (coreDie o.core)).lantern.toNat 12 24) = some r) :
    ∃ m, (s.writeSample o n hit).mem = writeSome m (hwAt s r) 8
      (leBytes 8 (hwNat s (coreDie o.core) o.ctx (bits (s.die (coreDie o.core)).lantern.toNat 12 24) 8 8 + 1)) := by
  have hwrite (m : List Host.Cell) (k o' : Nat) (bs : List Byte) :
      hwWrite { s with mem := m, free := k } (coreDie o.core) o.ctx (bits (s.die (coreDie o.core)).lantern.toNat 12 24) o' bs =
        { s with mem := writeSome m (hwAt s r) o' bs, free := k } := by
    unfold hwWrite
    rw [hr]
    rfl
  have hrec : record s (coreDie o.core) o.ctx (bits (s.die (coreDie o.core)).lantern.toNat 12 24) = some r := record_of_hwRecord (hr s.mem s.free)
  unfold State.writeSample
  dsimp only
  simp only [hrec]
  rw [if_neg (by simpa [State.sampleFits] using hfits), State.freeValue]
  dsimp only
  rw [hwrite, hwrite]
  exact ⟨_, rfl⟩

/-- The end of an operation touches memory only to write the records of its tagged requests. -/
theorem finishOp_mem {s : State} {id : Nat} {o : Op} (hop : s.op id = some o) : (s.finishOp id).mem = (s.writeSamples o fun _ => false).mem := by
  unfold State.finishOp
  rw [hop]
  dsimp only
  split
  · exact (State.onStrand_mem _ _ _).trans (State.onStrand_mem _ _ _)
  · exact State.onStrand_mem _ _ _

/-- The tiles of a gang once an MLD has written tile n from the bytes at addr (10 R264). -/
def Gang.loaded (g : Gang) (m : List Host.Cell) (n addr : Nat) (grid : Bool) (rm : Nat) : Gang := { g with
  tiles := (List.range 16).foldl (fun (tiles : Tab TileElem) i => (List.range 64).foldl (fun (tiles : Tab TileElem) j =>
    wr {} tiles (tileKey n i j) (mldElem m addr grid rm (g.window n) i j)) tiles) g.tiles }

/-- An MLD at the head of its core's queue, whose bytes ECC can correct, writes its tile and ends (10 R264). -/
theorem mldComplete_eq {s : State} {id n addr rm : Nat} {grid : Bool} {o : Op} (hop : s.op id = some o) (hkind : o.kind = .mld n addr grid rm)
    (hhead : (s.core o.core).queue.head? = some id) (hgood : (keysFrom addr (if grid then 16384 else 4096)).any s.uncorrectable = false) :
    exec (.mldComplete id) s = .next (((s.popQueue o id).onGang o.gang (·.loaded s.mem n addr grid rm)).finishOp id) := by
  show execMldComplete id s = _
  unfold execMldComplete onEvent
  rw [hop]
  simp only [hkind, hhead, ne_eq, not_true_eq_false, if_false, hgood, Bool.false_eq_true]
  rfl

/-- The MLD has left its core's queue, and its tile is written. -/
def mldWritten : State := (taggedMldQueued.popQueue taggedMld 5).onGang 0 (·.loaded [] 0 0 false 0)

theorem mldComplete_finishes : exec (.mldComplete 5) taggedMldQueued = .next (mldWritten.finishOp 5) :=
  mldComplete_eq (o := taggedMld) rfl rfl rfl (List.any_eq_false.mpr fun _ _ => Bool.false_ne_true)

theorem lanternRecord_held (m : List Host.Cell) (k : Nat) : hwRecord { mldWritten with mem := m, free := k } 0 0 1 = some (parseRecord lanternRecord) :=
  hwRecord_held (p := (0, { obj := 1, swapped := true, waiting := [0], oldRecord := lanternRecord })) (by decide +kernel) (by decide +kernel)
    (by decide +kernel) (by decide +kernel) m k

/-- The sample's record moves the tail of Lantern's object. -/
theorem mldComplete_writes_sample : readByte (mldWritten.finishOp 5).mem (onyxKey 0 0x20008) = 1 := by
  obtain ⟨m, hm⟩ := writeSample_mem (s := mldWritten) (o := taggedMld) 0 false (by decide +kernel) lanternRecord_held
  rw [finishOp_mem (o := taggedMld) rfl]
  show readByte (mldWritten.writeSample taggedMld 0 false).mem _ = 1
  rw [hm]
  exact readByte_writeSome_first (by decide +kernel) m 1 (leBytes 7 0) (by decide +kernel)

/-- Refutes O44: the statement lets the operation of an MLD hold tags of Lantern. As it completes, the record of the tagged request is written to Lantern's
object, where the statement has memory unchanged. -/
theorem not_regionsAndTiles : ¬ Obligations.RegionsAndTiles := by
  unfold Obligations.RegionsAndTiles
  intro h
  obtain ⟨-, -, -, -, -, -, -, hmld⟩ := h taggedMldQueued
  obtain ⟨t, g', hexec, hmem, -⟩ := hmld 5 taggedMld {} {} 0 0 false 0 rfl rfl rfl rfl (by decide) rfl (fun a _ => List.not_mem_nil)
  obtain rfl : mldWritten.finishOp 5 = t := Host.Outcome.next.inj (mldComplete_finishes.symm.trans hexec)
  have htail := mldComplete_writes_sample
  rw [hmem] at htail
  exact absurd htail (by decide)

end Sys2Proof.Machine
end

section
/-!
PROOFS. Accumulator tiles: MZ clears a tile, MRD reads rows of one into registers with their flags, MLD joins its core's matrix queue (10 R246, R257,
R263, R264, R266).
-/

namespace Sys2Proof.Machine

/-! MZ -/

/-- The gang with tile n cleared and its window set (10 R263). -/
def Gang.zeroed (g : Gang) (n : Nat) (w : BitVec 9) : Gang :=
  { g with tiles := g.tiles.filter fun x => x.1 / 1024 != n, windows := wr 0 g.windows n w }

theorem tileKey_div {m j q : Nat} (hj : j < 16) (hq : q < 64) : tileKey m j q / 1024 = m := by
  unfold tileKey
  omega

theorem Gang.elem_zeroed (g : Gang) (n : Nat) (w : BitVec 9) {m j q : Nat} (hj : j < 16) (hq : q < 64) :
    (g.zeroed n w).elem m j q = if m = n then {} else g.elem m j q := by
  have hlook := look_filter (fun k => k / 1024 != n) g.tiles (tileKey m j q)
  rw [tileKey_div hj hq] at hlook
  rw [Gang.elem, rd, Gang.zeroed, hlook]
  by_cases hm : m = n
  · simp [hm]
  · simp [hm, Gang.elem, rd]

theorem Gang.window_zeroed (g : Gang) (n : Nat) (w : BitVec 9) (m : Nat) : (g.zeroed n w).window m = if m = n then w.toInt else g.window m := by
  show (rd 0 (wr 0 g.windows n w) m).toInt = _
  rw [rd_wr]
  split <;> rfl

section
variable {z : BitVec 1} {n : BitVec 3} {w : BitVec 9} {s : State} {e : Env} {r : Run}

theorem exec_mz (h : Issues (.mz z n w) s e r) : exec (.mz z n w) s = .next (
    if e.team = false then e.raise (paid (.mz z n w) e s) 0x0C
    else e.next ((paid (.mz z n w) e s).setGang e.st.gang (e.g.zeroed n.toNat w))) := by
  rw [show exec (.mz z n w) s = execMz z n w s from rfl, execMz, issue_body _ h, onGang_of_some (paid_gang_own h)]
  simp only [Bool.not_eq_eq_eq_not, Bool.not_true]
  rfl

/-- MZ in a team clears its tile and sets its window (10 R263). -/
theorem mz_zeroes (h : Issues (.mz z n w) s e r) (hteam : e.team = true) : Effects (.mz z n w) s e r fun u st1 =>
    st1 = e.st ∧ u = { paid (.mz z n w) e s with gangs := u.gangs } ∧ OnlyGang s u e.st.gang (e.g.zeroed n.toNat w) := by
  have hexec := exec_mz h
  rw [hteam, if_neg (by decide)] at hexec
  refine h.effects hexec (fun _ => rfl) rfl ⟨rfl, rfl, State.gang_setGang_same .., fun m hm => ?_⟩
  rw [State.gang_setGang, if_neg hm, paid_gang]

end

/-! MRD -/

section
variable (e : Env) (n : BitVec 3) (q : BitVec 4) (l : BitVec 3) (h f : BitVec 1)

/-- What a thread reads of row j: an element as FP32, or two of them as BF16, with their flags (10 R266). -/
def Env.tileWord (t j : Nat) : Nat × Nat :=
  let w := e.g.window n.toNat
  if f = 0 then readElem fp32 e.rm e.fz32 (e.g.elem n.toNat (q.toNat + j) (32 * h.toNat + t)) w
  else
    let lo := readElem bf16 e.rm e.fz16 (e.g.elem n.toNat (q.toNat + j) t) w
    let hi := readElem bf16 e.rm e.fz16 (e.g.elem n.toNat (q.toNat + j) (32 + t)) w
    (lo.1 + 2 ^ 16 * hi.1, orFlags lo.2 hi.2)

/-- A thread's registers, low row first, and its flags. -/
def Env.tileRows (t : Nat) : Nat × Nat :=
  (((List.range (2 ^ l.toNat)).map fun j => (e.tileWord n q h f t j).1 * 2 ^ (32 * j)).sum,
    unionFlags ((List.range (2 ^ l.toNat)).map fun j => (e.tileWord n q h f t j).2))

end

/-- Rows that are gathered one after another add up, and their flags are united. -/
theorem foldl_gather (one : Nat → Nat × Nat) (js : List Nat) (a : Nat × Nat) :
    js.foldl (fun a j => (a.1 + (one j).1 * 2 ^ (32 * j), orFlags a.2 (one j).2)) a =
      (a.1 + (js.map fun j => (one j).1 * 2 ^ (32 * j)).sum, (js.map fun j => (one j).2).foldl orFlags a.2) := by
  induction js generalizing a with
  | nil => rfl
  | cons j js ih => rw [List.foldl_cons, ih, List.map_cons, List.sum_cons, List.map_cons, List.foldl_cons, Nat.add_assoc]

theorem foldl_tileWord (e : Env) (n : BitVec 3) (q : BitVec 4) (l : BitVec 3) (h f : BitVec 1) (t : Nat) :
    (List.range (2 ^ l.toNat)).foldl (fun a j => (a.1 + (e.tileWord n q h f t j).1 * 2 ^ (32 * j), orFlags a.2 (e.tileWord n q h f t j).2)) (0, 0) =
      e.tileRows n q l h f t := by
  rw [foldl_gather, Nat.zero_add]
  rfl

section
variable {z : BitVec 1} {d : BitVec 7} {n : BitVec 3} {q : BitVec 4} {l : BitVec 3} {h f : BitVec 1} {s : State} {e : Env} {r : Run}

theorem exec_mrd (hi : Issues (.mrd z d n q l h f) s e r) : exec (.mrd z d n q l h f) s = .next (
    if e.team = false then e.raise (spent e s) 0x0C
    else e.flagThreads e.ts d (2 ^ l.toNat) (e.tileRows n q l h f) (paid (.mrd z d n q l h f) e s)) := by
  have hput := putFlagged_eq e 0 d (2 ^ l.toNat) (e.tileRows n q l h f) (paid (.mrd z d n q l h f) e s)
  rw [Env.putResults, if_neg (by decide)] at hput
  rw [show exec (.mrd z d n q l h f) s = execMrd z d n q l h f s from rfl, execMrd, issue_body _ hi, Env.ts, ← hput,
    ← funext (foldl_tileWord e n q l h f)]
  simp only [Env.tileWord, Bool.not_eq_eq_eq_not, Bool.not_true, beq_iff_eq]
  rfl

/-- MRD in a team gives the threads their rows, and those whose flags meet an enable stop the path (10 R266, 05 R105). -/
theorem mrd_reads (hi : Issues (.mrd z d n q l h f) s e r) (hteam : e.team = true) :
    ((∀ t ∈ e.ts, trapped e.p.nfr (e.tileRows n q l h f t).2 = 0) →
      ComputesFrom (.mrd z d n q l h f) s (paid (.mrd z d n q l h f) e s) e r
        (e.p.nfr ||| BitVec.ofNat 32 (unionFlags (e.ts.map fun t => (e.tileRows n q l h f t).2)) <<< 4) fun st st1 =>
          SameAccs st st1 ∧ WritesVector st st1 e.act d.toNat (2 ^ l.toNat) fun t => (e.tileRows n q l h f t).1) ∧
    TrapsThreads (.mrd z d n q l h f) s (paid (.mrd z d n q l h f) e s) e r (fun t => (e.tileRows n q l h f t).2) fun good st1 =>
      WritesVector e.st st1 good d.toNat (2 ^ l.toNat) fun t => (e.tileRows n q l h f t).1 := by
  have hexec := exec_mrd hi
  rw [hteam, if_neg (by decide)] at hexec
  have hs := paid_strand_same (.mrd z d n q l h f) e s
  exact ⟨fun hnone => computesFrom_of_flagThreads hi hs rfl hexec hnone, fun hbad => trapsAfter_of_flagThreads hi hs rfl hexec hbad⟩

end

/-! MLD -/

section
variable {z : BitVec 1} {n : BitVec 3} {u : BitVec 6} {g : BitVec 1} {l : BitVec 4} {s : State} {e : Env} {r : Run}

/-- The bytes that MLD reads: 64-bit elements of the grid or FP32 (10 R264). -/
def mldSize (g : BitVec 1) : Nat := if g = 1 then 16384 else 4096

/-- The operation of an MLD whose source starts at key k. -/
def Env.mldOp (e : Env) (n : BitVec 3) (g : BitVec 1) (k : Nat) : Op := { kind := .mld n.toNat k (g == 1) e.rm, acc := some 2, outstanding := false }

/-- Operation `id` joins the core's matrix queue, and an MLD's beats and bytes are charged (10 R247, 14 R364). -/
def Env.queued (e : Env) (id size : Nat) (v : State) : State :=
  ((v.onCore e.core fun c => { c with queue := c.queue ++ [id] }).charge e.core e.ctx 4 16).charge e.core e.ctx 5 (size / 1024)

theorem exec_mld (h : Issues (.mld z n u g l) s e r) : exec (.mld z n u g l) s = .next (
    let v := paid (.mld z n u g l) e s
    if e.team = false then e.raise v 0x0C
    else match scratchRange e.g (e.st.sreg u.toNat).toNat (mldSize g) 128 with
    | .error f => e.raise v f.cause f.qual (e.st.sreg u.toNat).toNat
    | .ok k => e.next (e.queued (e.start (e.mldOp n g k) v).1 (mldSize g) (e.start (e.mldOp n g k) v).2)) := by
  rw [show exec (.mld z n u g l) s = execMld z n u g l s from rfl, execMld, issue_body _ h]
  simp only [Bool.not_eq_eq_eq_not, Bool.not_true, beq_iff_eq]
  rfl

theorem queued_strand (e : Env) (id size : Nat) (v : State) (k : Nat) : (e.queued id size v).strand k = v.strand k := by
  rw [Env.queued, State.charge_strand, State.charge_strand]
  rfl

theorem queued_cur (e : Env) (id size : Nat) (v : State) : (e.queued id size v).cur = v.cur := by
  rw [Env.queued, State.charge_cur, State.charge_cur]
  rfl

/-- An MLD whose source lies in the scratchpad starts, and its path goes on (10 R264). -/
theorem mld_queues {k : Nat} (h : Issues (.mld z n u g l) s e r) (hteam : e.team = true)
    (hk : scratchRange e.g (e.st.sreg u.toNat).toNat (mldSize g) 128 = .ok k) : ∃ v t st1 st', exec (.mld z n u g l) s = .next t ∧
      StartsOp (paid (.mld z n u g l) e s) v e (e.mldOp n g k) st1 ∧ Retires (e.queued s.nextId (mldSize g) v) t e r none false st1 st' := by
  have hexec := exec_mld h
  dsimp only at hexec
  rw [hteam, if_neg (by decide), hk] at hexec
  have hid : (e.start (e.mldOp n g k) (paid (.mld z n u g l) e s)).1 = s.nextId := paid_nextId ..
  dsimp only at hexec
  rw [hid] at hexec
  obtain ⟨hstart, hcur⟩ := start_starts (e.mldOp n g k) (paid_strand_same (.mld z n u g l) e s) h.path_eq
  obtain ⟨st', hret⟩ := h.retires ((queued_cur ..).trans hcur) ((queued_strand e s.nextId (mldSize g) _ e.k).trans hstart.strand)
    (by simp [Env.started]) (by simp [Env.started])
  exact ⟨_, _, _, st', hexec, hstart, hret⟩

end

/-- Settles O25: outside a team each raises 0x0C; MZ sets its gang's tile and window, MRD gives the threads their rows as any instruction with flags does,
and MLD raises its source's failure or starts and joins the queue. -/
theorem accumulatorTiles : Obligations.AccumulatorTiles := by
  unfold Obligations.AccumulatorTiles
  refine fun s e r => ⟨fun i h hteam => ⟨?_, ?_⟩, fun z n w h hteam => ?_, fun z d n q l h f hi hteam => mrd_reads hi hteam,
    fun z n u g l h hteam => ?_⟩
  · rintro (⟨z, n, w, rfl⟩ | ⟨z, n, u, g, l, rfl⟩)
    · exact stopsWhole_of_raise ((exec_mz h).trans (by rw [if_pos hteam])) (by decide)
    · exact stopsWhole_of_raise ((exec_mld h).trans (by rw [if_pos hteam])) (by decide)
  · rintro ⟨z, d, n, q, l, hh, f, rfl⟩
    exact stopsFrom_of_raise ((exec_mrd h).trans (by rw [if_pos hteam])) (spent_strand e s)
  · obtain ⟨u, t, st1, st', hexec, hret, hstrands, hst, hu, hgang⟩ := mz_zeroes h hteam
    exact ⟨u, t, st1, st', hexec, hret, hstrands, hst, hu, e.g.zeroed n.toNat w, hgang, rfl, fun m j q hj hq => e.g.elem_zeroed n.toNat w hj hq,
      e.g.window_zeroed n.toNat w⟩
  · refine ⟨fun f hf => ?_, fun k hk => mld_queues h hteam hk⟩
    have hexec := exec_mld h
    dsimp only at hexec
    rw [hteam, if_neg (by decide), show scratchRange e.g (e.st.sreg u.toNat).toNat (mldSize g) 128 = .error f from hf] at hexec
    exact stopsWhole_of_raise hexec (scratchRange_error_lt hf)

end Sys2Proof.Machine
end

section
/-!
PROOFS. Joint operations: what the acceptance of a member's entry leaves, what forming a joint operation comes to, and MMA and MMT as they wait or are
accepted (10 R246 to R248, R252 to R254; 12 R285, R307).
-/

namespace Sys2Proof.Machine

/-! What a path comes to next rests on no operation in flight (12 R284) -/

/-- The state with other operations in flight. -/
def State.withOps (s : State) (os : Tab Op) : State := { s with ops := os }

section
variable (s : State) (os : Tab Op)

theorem recordCheck_withOps (d ctx fuel : Nat) (r : ObjRec) (sl : Slot) : recordCheck (s.withOps os) d ctx fuel r sl = recordCheck s d ctx fuel r sl := by
  induction fuel generalizing r sl with
  | zero => rfl
  | succ fuel ih =>
    simp only [recordCheck, ih]
    rfl

theorem translateAt_withOps (fuel d ctx addr m : Nat) (kind : Kind) (host : Bool) (named : Option Nat) :
    translateAt fuel (s.withOps os) d ctx addr m kind host named = translateAt fuel s d ctx addr m kind host named := by
  have hbad (r : ObjRec) (sl : Slot) : recordBad (s.withOps os) d ctx r sl = recordBad s d ctx r sl := by
    rw [recordBad, recordCheck_withOps]
    rfl
  induction fuel generalizing addr m kind host named with
  | zero => rfl
  | succ fuel ih =>
    simp only [translateAt, ih, hbad]
    rfl

theorem fetchWord_withOps (core : Nat) (g : Gang) (pc : Word) : fetchWord (s.withOps os) core g pc = fetchWord s core g pc := by
  rw [fetchWord, translate, translateAt_withOps]
  rfl

theorem peek_withOps (core : Nat) (g : Gang) (n : Nat) (p : Path) : peek (s.withOps os) core g n p = peek s core g n p := by
  induction n generalizing p with
  | zero => rfl
  | succ n ih => simp only [peek, fetchWord_withOps, ih]

end

/-! A path that goes on -/

/-- t is u with path pi of strand k gone on: of the cores only accounts and counts have changed, and the lane's path only where it was this one. -/
structure GoesOn (u t : State) (k pi : Nat) : Prop where
  strands : ∀ j, j ≠ k → t.strand j = u.strand j
  cores : ∀ c, t.core c = { u.core c with energy := (t.core c).energy, charges := (t.core c).charges, evc0 := (t.core c).evc0 }
  cur : u.cur ≠ some (k, pi) → t.cur = u.cur
  package : t = { u with strands := t.strands, cores := t.cores, cur := t.cur }

section
variable {u v t : State} {k pi : Nat}

theorem GoesOn.refl (u : State) (k pi : Nat) : GoesOn u u k pi := ⟨fun _ _ => rfl, fun _ => rfl, fun _ => rfl, rfl⟩

theorem GoesOn.trans (h : GoesOn u v k pi) (h' : GoesOn v t k pi) : GoesOn u t k pi where
  strands j hj := (h'.strands j hj).trans (h.strands j hj)
  cores c := by rw [h'.cores c, h.cores c]
  cur hcur := (h'.cur (by rw [h.cur hcur]; exact hcur)).trans (h.cur hcur)
  package := by rw [h'.package, h.package]

theorem goesOn_setStrand (u : State) (k pi : Nat) (st : Strand) : GoesOn u (u.setStrand k st) k pi :=
  ⟨fun _ hj => (State.strand_setStrand ..).trans (if_neg hj), fun _ => rfl, fun _ => rfl, rfl⟩

theorem goesOn_charge (u : State) (k pi core ctx cls n : Nat) : GoesOn u (u.charge core ctx cls n) k pi where
  strands _ _ := State.charge_strand ..
  cores _ := by rw [State.charge_core]
  cur _ := State.charge_cur ..
  package := by rw [State.charge_eq]

theorem goesOn_countEvent (u : State) (k pi core : Nat) : GoesOn u (u.countEvent core 0) k pi where
  strands _ _ := rfl
  cores _ := by rw [State.countEvent_core]
  cur _ := rfl
  package := rfl

theorem goesOn_uncur (u : State) (k pi : Nat) : GoesOn u (u.uncur k pi) k pi where
  strands _ _ := by rw [State.uncur_eq]; rfl
  cores _ := by rw [State.uncur_eq]; rfl
  cur hcur := by rw [State.uncur, if_neg hcur]
  package := by rw [State.uncur_eq]

theorem finish_goesOn (e : Env) (jump : Option Word) (ends : Bool) (u : State) : GoesOn u (e.finish jump ends u) e.k e.pi := by
  unfold Env.finish
  split
  · exact .refl ..
  · dsimp only
    split_ifs
    · exact ((goesOn_setStrand ..).trans (goesOn_countEvent ..)).trans (goesOn_uncur ..)
    · exact (goesOn_setStrand ..).trans (goesOn_uncur ..)
    · exact (goesOn_setStrand ..).trans (goesOn_countEvent ..)
    · exact goesOn_setStrand ..

theorem heldEnv_path {e : Env} (h : heldEnv u k pi = some e) : e.k = k ∧ e.pi = pi := by
  unfold heldEnv at h
  split at h
  · cases h
  split at h
  · cases h
  split at h
  · next heq =>
    cases h
    rw [← (Prod.mk.inj heq).1]
    exact ⟨rfl, rfl⟩
  · cases h

/-- A held instruction that has issued moves its own path alone (12 R285). -/
theorem passHeld_goesOn (u : State) (k pi : Nat) : GoesOn u (u.passHeld k pi) k pi := by
  unfold State.passHeld
  split
  · exact .refl ..
  · rename_i e he
    obtain ⟨rfl, rfl⟩ := heldEnv_path he
    exact (goesOn_setStrand u e.k e.pi e.st).trans (((goesOn_charge ..).trans (goesOn_charge ..)).trans (finish_goesOn ..))

end

/-! Entries that are accepted -/

/-- A first entry of a joint operation, and what its member's operation reads. -/
structure Entrant where
  id : Nat
  o : Op
  m : Member4

/-- The operation once it is accepted (10 R253; log 40, DESIGN CHOICE). -/
def Entrant.taken (x : Entrant) : Op := match x.o.kind with
  | .mma t mmt a b ra rb pb tag _ => { x.o with
      kind := .mma t mmt a b ra rb pb tag true, acc := some 2, outstanding := false, data := [x.m.bufA.data, x.m.bufB.data]
      items := if x.m.bad then [{ t := 0, bad := 0xB2 }] else [] }
  | _ => x.o

/-- The entry is one of MMA or MMT. -/
def Entrant.joint (x : Entrant) : Prop := (mmaKey x.o).isSome = true

/-- t is u with the entries es accepted: each has left its core's list for its queue, and the paths of es have gone on. -/
structure Enlists (u t : State) (es : List Entrant) : Prop where
  op : ∀ x ∈ es, t.op x.id = some x.taken
  ops : ∀ j, (∀ x ∈ es, j ≠ x.id) → t.op j = u.op j
  queue : ∀ x ∈ es, (t.core x.o.core).queue = (u.core x.o.core).queue ++ [x.id]
  list : ∀ x ∈ es, (t.core x.o.core).matchList = (u.core x.o.core).matchList.filter (· != x.id)
  others : ∀ c, (∀ x ∈ es, x.o.core ≠ c) → (t.core c).queue = (u.core c).queue ∧ (t.core c).matchList = (u.core c).matchList
  banks : ∀ c, (t.core c).tbits = (u.core c).tbits ∧ (t.core c).mbits = (u.core c).mbits
  strands : ∀ k, (∀ x ∈ es, x.o.strand ≠ k) → t.strand k = u.strand k
  cur : (∀ x ∈ es, u.cur ≠ some (x.o.strand, x.o.pathOf)) → t.cur = u.cur
  package : t = { u with ops := t.ops, cores := t.cores, strands := t.strands, cur := t.cur }

/-- The entry x joins the operations accepted of its core (10 R247). -/
def State.enter (u : State) (x : Entrant) : State :=
  (u.setOp x.id x.taken).onCore x.o.core fun c => { c with matchList := c.matchList.filter (· != x.id), queue := c.queue ++ [x.id] }

section
variable {u v t : State} {x : Entrant} {es fs : List Entrant}

/-- Acceptance of an entry: it enters, its beats and bytes are charged, and its path goes on. -/
theorem acceptMember_enters (hop : u.op x.id = some x.o) (hx : x.joint) : ∃ beats bytes, acceptMember u x.id x.m =
    (((u.enter x).charge x.o.core x.o.ctx 4 beats).charge x.o.core x.o.ctx 5 bytes).passHeld x.o.strand x.o.pathOf := by
  unfold acceptMember
  rw [hop]
  dsimp only
  unfold Entrant.joint mmaKey at hx
  split at hx
  · rename_i t mmt a b ra rb pb tag acc hkind
    refine ⟨4 * pb, (x.m.read + 1023) / 1024, ?_⟩
    simp only [State.enter, Entrant.taken, hkind]
  · cases hx

theorem Enlists.refl (u : State) : Enlists u u [] where
  op x hx := by simp at hx
  ops _ _ := rfl
  queue x hx := by simp at hx
  list x hx := by simp at hx
  others _ _ := ⟨rfl, rfl⟩
  banks _ := ⟨rfl, rfl⟩
  strands _ _ := rfl
  cur _ := rfl
  package := rfl

theorem core_enter (u : State) (x : Entrant) (c : Nat) : (u.enter x).core c = if c = x.o.core then
    { u.core x.o.core with matchList := (u.core x.o.core).matchList.filter (· != x.id), queue := (u.core x.o.core).queue ++ [x.id] } else u.core c :=
  State.core_setCore ..

theorem acceptMember_enlists (hop : u.op x.id = some x.o) (hx : x.joint) : Enlists u (acceptMember u x.id x.m) [x] := by
  obtain ⟨beats, bytes, hacc⟩ := acceptMember_enters hop hx
  have hgo : GoesOn (u.enter x) (acceptMember u x.id x.m) x.o.strand x.o.pathOf := by
    rw [hacc]
    exact ((goesOn_charge ..).trans (goesOn_charge ..)).trans (passHeld_goesOn ..)
  generalize acceptMember u x.id x.m = t at hgo
  have hops (j : Nat) : t.op j = (u.enter x).op j := by rw [hgo.package]; rfl
  have hown := hgo.cores x.o.core
  rw [core_enter, if_pos rfl] at hown
  refine ⟨?_, fun j hj => ?_, ?_, ?_, fun c hc => ?_, fun c => ?_, fun k hk => ?_, fun hcur => ?_, ?_⟩
  · rw [List.forall_mem_singleton, hops]
    exact look_upd_same u.ops x.id (some x.taken)
  · rw [hops]
    exact look_upd_other u.ops (some x.taken) (hj x (List.mem_singleton_self x))
  · rw [List.forall_mem_singleton, hown]
  · rw [List.forall_mem_singleton, hown]
  · have hcore := hgo.cores c
    rw [core_enter, if_neg (hc x (List.mem_singleton_self x)).symm] at hcore
    rw [hcore]
    exact ⟨rfl, rfl⟩
  · have hcore := hgo.cores c
    rw [core_enter] at hcore
    rw [hcore]
    split
    · next h => rw [h]; exact ⟨rfl, rfl⟩
    · exact ⟨rfl, rfl⟩
  · exact hgo.strands k (hk x (List.mem_singleton_self x)).symm
  · exact hgo.cur (hcur x (List.mem_singleton_self x))
  · rw [hgo.package]
    rfl

/-- Entries of distinct cores that are accepted one after another. -/
theorem Enlists.append (h : Enlists u v es) (h' : Enlists v t fs) (hid : ∀ x ∈ es, ∀ y ∈ fs, x.id ≠ y.id)
    (hcore : ∀ x ∈ es, ∀ y ∈ fs, x.o.core ≠ y.o.core) : Enlists u t (es ++ fs) := by
  have hkept {x : Entrant} (hx : x ∈ es) := h'.others x.o.core fun y hy => (hcore x hx y hy).symm
  have hfresh {y : Entrant} (hy : y ∈ fs) := h.others y.o.core fun x hx => hcore x hx y hy
  constructor
  · refine List.forall_mem_append.mpr ⟨fun x hx => ?_, h'.op⟩
    rw [h'.ops x.id fun y hy => hid x hx y hy, h.op x hx]
  · intro j hj
    obtain ⟨hes, hfs⟩ := List.forall_mem_append.mp hj
    rw [h'.ops j hfs, h.ops j hes]
  · refine List.forall_mem_append.mpr ⟨fun x hx => ?_, fun y hy => ?_⟩
    · rw [(hkept hx).1, h.queue x hx]
    · rw [h'.queue y hy, (hfresh hy).1]
  · refine List.forall_mem_append.mpr ⟨fun x hx => ?_, fun y hy => ?_⟩
    · rw [(hkept hx).2, h.list x hx]
    · rw [h'.list y hy, (hfresh hy).2]
  · intro c hc
    obtain ⟨hes, hfs⟩ := List.forall_mem_append.mp hc
    rw [(h'.others c hfs).1, (h'.others c hfs).2]
    exact h.others c hes
  · intro c
    rw [(h'.banks c).1, (h'.banks c).2]
    exact h.banks c
  · intro k hk
    obtain ⟨hes, hfs⟩ := List.forall_mem_append.mp hk
    rw [h'.strands k hfs, h.strands k hes]
  · intro hcur
    obtain ⟨hes, hfs⟩ := List.forall_mem_append.mp hcur
    have hv := h.cur hes
    rw [h'.cur (by rwa [hv]), hv]
  · rw [h'.package, h.package]

/-- The entries es accepted one after another (10 R253). -/
def State.acceptEach (u : State) (es : List Entrant) : State := es.foldl (fun s x => acceptMember s x.id x.m) u

theorem acceptEach_append (u : State) (es fs : List Entrant) : u.acceptEach (es ++ fs) = (u.acceptEach es).acceptEach fs := List.foldl_append ..

theorem acceptEach_enlists (hop : ∀ x ∈ es, u.op x.id = some x.o ∧ x.joint) (hid : es.Pairwise fun x y => x.id ≠ y.id)
    (hcore : es.Pairwise fun x y => x.o.core ≠ y.o.core) : Enlists u (u.acceptEach es) es := by
  induction es generalizing u with
  | nil => exact .refl u
  | cons x es ih =>
    obtain ⟨hidx, hid⟩ := List.pairwise_cons.mp hid
    obtain ⟨hcorex, hcore⟩ := List.pairwise_cons.mp hcore
    obtain ⟨⟨hopx, hjx⟩, hop⟩ := List.forall_mem_cons.mp hop
    have hone := acceptMember_enlists hopx hjx
    have hrest : Enlists (acceptMember u x.id x.m) ((acceptMember u x.id x.m).acceptEach es) es := by
      refine ih (fun y hy => ⟨?_, (hop y hy).2⟩) hid hcore
      rw [hone.ops y.id fun z hz => by rw [List.mem_singleton.mp hz]; exact (hidx y hy).symm]
      exact (hop y hy).1
    exact hone.append hrest (by simpa using hidx) (by simpa using hcorex)

end

end Sys2Proof.Machine
end

section
/-!
PROOFS. MMA and MMT: an entry that waits at the match, the path whose entry is accepted, and the four first entries of a quad that form a joint
operation (10 R247, R248, R252 to R254, R265; 12 R285, R307).
-/

namespace Sys2Proof.Machine

/-! What the entry's list and its strand are once it has joined -/

section
variable (e : Env) (o : Op) (s : State)

theorem joined_op_same : (e.joined o s).op s.nextId = some o := look_upd_same s.ops s.nextId (some o)

theorem joined_op_other {j : Nat} (hj : j ≠ s.nextId) : (e.joined o s).op j = s.op j := look_upd_other s.ops (some o) hj

theorem joined_core (c : Nat) : (e.joined o s).core c = if c = e.core then
    { s.core e.core with matchList := (s.core e.core).matchList ++ [s.nextId] } else s.core c := State.core_setCore ..

theorem joined_banks (c : Nat) : ((e.joined o s).core c).tbits = (s.core c).tbits ∧ ((e.joined o s).core c).mbits = (s.core c).mbits := by
  rw [joined_core]
  split
  · next h => rw [h]; exact ⟨rfl, rfl⟩
  · exact ⟨rfl, rfl⟩

/-- The state in which the entry has joined and, where its gang is marked for swap, has left again (12 R307). -/
def Env.matching : State := if e.withdrawn then (e.joined o s).withdraw s.nextId else e.joined o s

theorem withdraw_joined : (e.joined o s).withdraw s.nextId =
    ((e.joined o s).onCore o.core fun c => { c with matchList := c.matchList.filter (· != s.nextId) }).dropOp s.nextId := by
  rw [State.withdraw, joined_op_same]

/-- An entry that joins or leaves a list changes operations and cores. -/
theorem matching_rest : e.matching o s = { begun s e with nextId := s.nextId + 1, ops := (e.matching o s).ops, cores := (e.matching o s).cores } := by
  unfold Env.matching
  split
  · rw [withdraw_joined]
    rfl
  · rfl

theorem matching_op_other {j : Nat} (hj : j ≠ s.nextId) : (e.matching o s).op j = s.op j := by
  unfold Env.matching
  split
  · rw [withdraw_joined]
    exact (look_upd_other _ none hj).trans (joined_op_other e o s hj)
  · exact joined_op_other e o s hj

theorem matching_kept (hkeep : e.withdrawn = false) : (e.matching o s).op s.nextId = some o ∧
    ((e.matching o s).core e.core).matchList = (s.core e.core).matchList ++ [s.nextId] := by
  rw [Env.matching, hkeep, if_neg Bool.false_ne_true, joined_core, if_pos rfl]
  exact ⟨joined_op_same e o s, rfl⟩

theorem matching_withdrawn (ho : o.core = e.core) (hleave : e.withdrawn = true) : (e.matching o s).op s.nextId = none ∧
    ((e.matching o s).core e.core).matchList = (s.core e.core).matchList.filter (· != s.nextId) := by
  rw [Env.matching, hleave, if_pos rfl, withdraw_joined, ho]
  refine ⟨look_upd_same _ s.nextId none, ?_⟩
  have hcore := State.core_setCore_same (e.joined o s) e.core
    { (e.joined o s).core e.core with matchList := ((e.joined o s).core e.core).matchList.filter (· != s.nextId) }
  refine (congrArg Core.matchList hcore).trans ?_
  rw [joined_core, if_pos rfl]
  simp

/-- What a path that waits with its entry leaves (10 R247, R248; 12 R285, R307). -/
theorem hold_matching {i : Instr} {r : Run} (h : Issues i s e r) : let w := e.hold (e.matching o s)
    w.strand e.k = some (e.st.setPath e.pi { e.p with pc := e.chain, hints := {}, chainLen := 0, run := none }) ∧
    (∀ k, k ≠ e.k → w.strand k = s.strand k) ∧
    w.ops = (e.matching o s).ops ∧ w.cores = (e.matching o s).cores ∧ w.cur = none ∧ w.mem = s.mem ∧ w.gangs = s.gangs := by
  intro w
  have hrest := matching_rest e o s
  have hstrand (k : Nat) : (e.matching o s).strand k = (begun s e).strand k := by rw [hrest]; rfl
  obtain ⟨hcur, -⟩ := envOf_eq h.1
  obtain ⟨hw, hown, hothers⟩ := hold_strand (u := e.matching o s) ((hstrand e.k).trans (begun_strand s e)) (by rw [hrest]; exact hcur)
  have hmem : (e.matching o s).mem = s.mem := by rw [hrest]; rfl
  have hgangs : (e.matching o s).gangs = s.gangs := by rw [hrest]; rfl
  refine ⟨?_, fun k hk => (hothers k hk).trans ((hstrand k).trans ((State.strand_setStrand ..).trans (if_neg hk))), ?_⟩
  · rw [hown, ← h.path_eq]
    rfl
  · rw [show w = _ from hw]
    exact ⟨rfl, rfl, rfl, hmem, hgangs⟩

end

/-! MMA and MMT -/

/-- What the path comes to in state t, where its entry is operation id: it waits, or its joint operation has been formed (12 R285, R307). -/
def Env.matched (e : Env) (id : Nat) (t : State) : State := match (t.op id).map Op.kind with
  | some (.mma _ _ _ _ _ _ _ _ false) => e.hold (if e.withdrawn then t.withdraw id else t)
  | _ => t

section
variable {i : Instr} {mmt : Bool} {n : BitVec 3} {u : BitVec 5} {ra rb : BitVec 1} {p : BitVec 4} {s : State} {e : Env} {r : Run}

theorem exec_joint (hi : jointForm i = some (mmt, n, u, ra, rb, p)) (h : Issues i s e r) :
    exec i s = .next (e.joint mmt n u ra rb p s (paid i e s)) := by
  cases i <;> simp only [jointForm, Option.some.injEq, reduceCtorEq, Prod.mk.injEq] at hi
  all_goals
    obtain ⟨rfl, rfl, rfl, rfl, rfl, rfl⟩ := hi
    exact issue_body _ h

theorem joint_without_team (hteam : e.team = false) (v : State) : e.joint mmt n u ra rb p s v = e.raise v 0x0C := by
  rw [Env.joint, hteam]
  rfl

/-- In a team the entry joins its core's list, and a joint operation forms where it can (10 R247, R248). -/
theorem joint_eq (hteam : e.team = true) {v : State} (hnow : v.now = s.now) : e.joint mmt n u ra rb p s v =
    e.matched s.nextId ((e.joined (e.entry mmt n u ra rb p s.now) s).formJoint (quadOf e.core)) := by
  unfold Env.joint
  simp only [hteam, hnow, beq_iff_eq]
  rfl

/-- An entry that no joint operation takes waits, or leaves at once where its gang is marked for swap (12 R285, R307). -/
theorem joint_waits (hteam : e.team = true) {v : State} (hnow : v.now = s.now)
    (hsame : (e.joined (e.entry mmt n u ra rb p s.now) s).formJoint (quadOf e.core) = e.joined (e.entry mmt n u ra rb p s.now) s) :
    e.joint mmt n u ra rb p s v = e.hold (e.matching (e.entry mmt n u ra rb p s.now) s) := by
  rw [joint_eq hteam hnow, hsame, Env.matched, joined_op_same]
  rfl

/-- An entry that a joint operation takes waits no more (12 R285). -/
theorem joint_goes_on (hteam : e.team = true) {v t : State} (hnow : v.now = s.now)
    (ht : (e.joined (e.entry mmt n u ra rb p s.now) s).formJoint (quadOf e.core) = t) {o : Op} (hop : t.op s.nextId = some o)
    {t' a b pb tag : Nat} {mmt' qa qb : Bool} (hkind : o.kind = .mma t' mmt' a b qa qb pb tag true) :
    e.joint mmt n u ra rb p s v = t := by
  rw [joint_eq hteam hnow, ht, Env.matched, hop, Option.map_some, hkind]

end

/-! The four first entries -/

/-- The first entries of the four cores of a quad are h 0 to h 3, the operations o 0 to o 3, which agree on what they are (10 R247). -/
structure Agreed (v : State) (quad : Nat) (h : Nat → Nat) (o : Nat → Op) : Prop where
  head : ∀ c, c < 4 → (v.core (quadCore quad c)).matchList.head? = some (h c)
  op : ∀ c, c < 4 → v.op (h c) = some (o c)
  key : ∃ k, ∀ c, c < 4 → mmaKey (o c) = some k

/-- The check of a member's first entry (10 R253). -/
def State.checked (s : State) (o : Op) : Except (Nat × Nat) Member4 := match o.kind, s.gang o.gang with
  | .mma _ mmt a b ra rb pb _ _, some g => memberCheck s o.core g mmt a b ra rb pb
  | _, _ => .error (0x0B, 0)

/-- A failing check's bit among those of the four members (10 R253). -/
def failingBit (c : Nat) : Except (Nat × Nat) Member4 → Nat
  | .error _ => 2 ^ c
  | .ok _ => 0

/-- A first entry whose check passes is accepted. -/
def State.enlist (s : State) (x : Nat × Except (Nat × Nat) Member4) : State := match x.2 with
  | .ok m => acceptMember s x.1 m
  | .error _ => s

section
variable {v : State} {quad : Nat} {h : Nat → Nat} {o : Nat → Op}

/-- While a list of the quad is empty, no joint operation forms. -/
theorem formJoint_of_empty {c : Nat} (hc : c < 4) (hempty : (v.core (quadCore quad c)).matchList = []) : v.formJoint quad = v := by
  have hshort : ((List.range 4).filterMap fun c => (v.core (quadCore quad c)).matchList.head?).length ≠ 4 := by
    intro hlen
    have hall := List.filterMap_length_eq_length.mp (hlen.trans List.length_range.symm) c (List.mem_range.mpr hc)
    rw [hempty] at hall
    cases hall
  unfold State.formJoint
  dsimp only
  rw [if_pos (.inl hshort)]

theorem Agreed.heads (ha : Agreed v quad h o) :
    ((List.range 4).filterMap fun c => (v.core (quadCore quad c)).matchList.head?) = (List.range 4).map h :=
  List.filterMap_eq_map_iff_forall_eq_some.mpr fun c hc => ha.head c (List.mem_range.mp hc)

theorem Agreed.ops (ha : Agreed v quad h o) : ((List.range 4).map h).filterMap v.op = (List.range 4).map o := by
  rw [List.filterMap_map]
  exact List.filterMap_eq_map_iff_forall_eq_some.mpr fun c hc => ha.op c (List.mem_range.mp hc)

theorem Agreed.all_keys (ha : Agreed v quad h o) :
    (((List.range 4).map o).all fun x => mmaKey x == mmaKey (((List.range 4).map o).getD 0 x)) = true := by
  obtain ⟨k, hk⟩ := ha.key
  rw [List.all_map, List.all_eq_true]
  intro c hc
  have hfirst : ((List.range 4).map o).getD 0 (o c) = o 0 := rfl
  rw [Function.comp_apply, hfirst, hk c (List.mem_range.mp hc), hk 0 (by decide), beq_self_eq_true]

/-- While an entry waits for a buffer, no joint operation forms (log 93, DEDUCED). -/
theorem Agreed.formJoint_of_waits (ha : Agreed v quad h o) {c : Nat} (hc : c < 4) (hwaits : reuseWaits v (o c) = true) : v.formJoint quad = v := by
  have hany : ((List.range 4).map o).any (reuseWaits v) = true := List.any_eq_true.mpr ⟨o c, List.mem_map_of_mem (List.mem_range.mpr hc), hwaits⟩
  unfold State.formJoint
  dsimp only
  rw [ha.heads, ha.ops, if_neg (by simp), ha.all_keys, hany]
  rfl

/-- Where no entry waits for a buffer, the checks decide. -/
theorem Agreed.formJoint_decides (ha : Agreed v quad h o) (hready : ((List.range 4).map o).any (reuseWaits v) = false) :
    let checks := ((List.range 4).map o).map v.checked
    ∃ t, v.formJoint quad = if (checks.mapIdx failingBit).foldl (· + ·) 0 = 0 then (((List.range 4).map h).zip checks).foldl State.enlist v else t := by
  unfold State.formJoint
  dsimp only
  rw [ha.heads, ha.ops, if_neg (by simp), ha.all_keys, hready]
  exact ⟨_, rfl⟩

/-- Where no entry waits for a buffer and the operands of all four pass, all four are accepted (10 R253, R254). -/
theorem Agreed.formJoint_enlists (ha : Agreed v quad h o) {m : Nat → Member4} (hready : ∀ c, c < 4 → reuseWaits v (o c) = false)
    (hpass : ∀ c, c < 4 → v.checked (o c) = .ok (m c)) : v.formJoint quad = v.acceptEach ((List.range 4).map fun c => ⟨h c, o c, m c⟩) := by
  have hnone : ((List.range 4).map o).any (reuseWaits v) = false := by
    rw [List.any_map, List.any_eq_false]
    intro c hc
    rw [Function.comp_apply, hready c (List.mem_range.mp hc)]
    exact Bool.false_ne_true
  have hchecks : ((List.range 4).map o).map v.checked = (List.range 4).map fun c => .ok (m c) := by
    rw [List.map_map]
    exact List.map_congr_left fun c hc => hpass c (List.mem_range.mp hc)
  obtain ⟨t, ht⟩ := ha.formJoint_decides hnone
  have hfailing : (((List.range 4).map fun c => (.ok (m c) : Except (Nat × Nat) Member4)).mapIdx failingBit).foldl (· + ·) 0 = 0 := rfl
  rw [ht, hchecks, if_pos hfailing]
  rfl

end

end Sys2Proof.Machine
end

section
/-!
PROOFS. Joint operations that are accepted: the path that issued the last entry goes on in its run, and the four operations have left the match lists for
their queues (10 R247, R253, R254; 12 R285).
-/

namespace Sys2Proof.Machine

/-! The path that issues -/

/-- In u the path that issues i in s stands at its chain, in its run. -/
structure StandsAt (u : State) (i : Instr) (s : State) (e : Env) : Prop where
  strand : u.strand e.k = some e.st
  gang : u.gang e.st.gang = some e.g
  cur : u.cur = some (e.k, e.pi)
  banks : (u.core e.core).tbits = (s.core e.core).tbits ∧ (u.core e.core).mbits = (s.core e.core).mbits
  word : peek u e.core e.g 8 e.p = (some i, e.p)

/-- What the rest of a path that goes on has become in t. -/
def WentOn (t : State) (e : Env) (r : Run) : Prop :=
  ∃ st', t.strand e.k = some st' ∧ st'.path e.pi = e.pathAfter r none false e.p ∧ t.cur = if e.runEnds r false then none else some (e.k, e.pi)

/-- A run that has begun begins no other way while the banks are as they were (09 R211, R220). -/
theorem Path.begun_begun (p : Path) {c c' : Core} (ctx : Nat) (ht : c'.tbits = c.tbits) (hm : c'.mbits = c.mbits) :
    (p.begun c ctx).begun c' ctx = p.begun c ctx := by
  cases hrun : p.run with
  | none => simp [Path.begun, hrun]
  | some r => by_cases hr : r.words = 0 <;> simp [Path.begun, hrun, hr, ht, hm]

theorem Strand.setPath_path (st : Strand) (pi : Nat) : st.setPath pi (st.path pi) = st := by
  by_cases h : pi = 1 <;> simp [Strand.setPath, Strand.path, h]

theorem Issues.begun_path {i : Instr} {s : State} {e : Env} {r : Run} (h : Issues i s e r) {c : Core} (ht : c.tbits = (s.core e.core).tbits)
    (hm : c.mbits = (s.core e.core).mbits) : e.p.begun c e.g.task.ctx = e.p := by
  obtain ⟨-, ⟨st, -, -, hst⟩, hp, -⟩ := envOf_eq h.1
  have hpath : e.p = (st.path e.pi).begun (s.core e.core) e.g.task.ctx := by rw [hp, hst, Strand.path_setPath]
  rw [hpath, Path.begun_begun _ _ ht hm]

section
variable {i : Instr} {s u w : State} {e : Env} {r : Run}

theorem StandsAt.congr (hu : StandsAt u i s e) (hstrand : w.strand e.k = u.strand e.k) (hcur : w.cur = u.cur)
    (hbanks : (w.core e.core).tbits = (u.core e.core).tbits ∧ (w.core e.core).mbits = (u.core e.core).mbits)
    (hw : w = { u with ops := w.ops, cores := w.cores, strands := w.strands, cur := w.cur }) : StandsAt w i s e where
  strand := hstrand.trans hu.strand
  gang := by rw [hw]; exact hu.gang
  cur := hcur.trans hu.cur
  banks := ⟨hbanks.1.trans hu.banks.1, hbanks.2.trans hu.banks.2⟩
  word := by
    have hrest : w = (u.withOps w.ops).remanned w.cores w.strands := by
      rw [hcur] at hw
      exact hw
    rw [hrest, peek_remanned, peek_withOps]
    exact hu.word

theorem standsAt_joined (h : Issues i s e r) (o : Op) (hword : peek (e.joined o s) e.core e.g 8 e.p = (some i, e.p)) : StandsAt (e.joined o s) i s e := by
  obtain ⟨hcur, -⟩ := envOf_eq h.1
  exact ⟨begun_strand s e, h.gang, hcur, joined_banks e o s e.core, hword⟩

theorem Issues.envAt_eq (h : Issues i s e r) : envAt e.k e.pi i e.st e.g = e := by
  obtain ⟨-, -, hp, -, hi, hact⟩ := envOf_eq h.1
  rw [envAt, ← hp, ← hact, ← hi]

theorem StandsAt.comingTo_eq (hu : StandsAt u i s e) (h : Issues i s e r) : comingTo u e.k e.pi e.st e.g = (e, true) := by
  have hword : peek u (coreOf e.k) e.g 8 (e.st.path e.pi) = (some i, e.p) := h.path_eq ▸ hu.word
  have hbegun : e.p.begun (u.core (coreOf e.k)) e.g.task.ctx = e.p := h.begun_path hu.banks.1 hu.banks.2
  have hsame : e.st.setPath e.pi e.p = e.st := by rw [h.path_eq, Strand.setPath_path]
  unfold comingTo
  rw [hword]
  dsimp only
  rw [hbegun, hsame, Option.getD_some, h.envAt_eq]
  rfl

theorem StandsAt.heldEnv_eq (hu : StandsAt u i s e) (h : Issues i s e r) : heldEnv u e.k e.pi = some e := by
  unfold heldEnv
  rw [hu.strand]
  dsimp only
  rw [hu.gang]
  dsimp only
  rw [hu.comingTo_eq h]

/-- The path that issues goes on in its run once what it issued has been accepted (12 R285). -/
theorem StandsAt.goes_on (hu : StandsAt u i s e) (h : Issues i s e r) : WentOn (u.passHeld e.k e.pi) e r := by
  obtain ⟨-, -, hp, hrun, -⟩ := envOf_eq h.1
  have hpass : u.passHeld e.k e.pi = e.finish none false (e.pay (u.setStrand e.k e.st)) := by
    rw [State.passHeld, hu.heldEnv_eq h]
  have hret := finish_retires (u := e.pay (u.setStrand e.k e.st)) (e := e) (r := r) none false (st1 := e.st)
    (by rw [pay_state]; exact hu.cur) (by rw [pay_state]; exact State.strand_setStrand_same ..) (hp ▸ hrun) rfl
  rw [hpass]
  exact ⟨_, hret.strand, hp ▸ hret.path, hret.lane⟩

/-- The issuing path's entry is accepted. -/
theorem StandsAt.accepted_alone {x : Entrant} (hu : StandsAt u i s e) (h : Issues i s e r) (hop : u.op x.id = some x.o) (hx : x.joint)
    (hstrand : x.o.strand = e.k) (hpath : x.o.pathOf = e.pi) : WentOn (acceptMember u x.id x.m) e r := by
  obtain ⟨beats, bytes, hacc⟩ := acceptMember_enters hop hx
  rw [hacc, hstrand, hpath]
  refine StandsAt.goes_on (s := s) (hu.congr ?_ ?_ ?_ ?_) h
  · rw [State.charge_strand, State.charge_strand]
    rfl
  · rw [State.charge_cur, State.charge_cur]
    rfl
  · rw [State.charge_core, State.charge_core, core_enter]
    split
    · next hc => rw [hc]; exact ⟨rfl, rfl⟩
    · exact ⟨rfl, rfl⟩
  · rw [State.charge_eq, State.charge_eq]
    rfl

/-- Entries of distinct cores are accepted, the issuing path's among them: those before and after it are of other strands (10 R253, 12 R285). -/
theorem StandsAt.accepted_among {es : List Entrant} {x : Entrant} (hu : StandsAt u i s e) (h : Issues i s e r)
    (hop : ∀ y ∈ es, u.op y.id = some y.o ∧ y.joint) (hid : es.Pairwise fun y z => y.id ≠ z.id)
    (hcore : es.Pairwise fun y z => y.o.core ≠ z.o.core) (hx : x ∈ es) (hstrand : x.o.strand = e.k) (hpath : x.o.pathOf = e.pi)
    (hothers : ∀ y ∈ es, y.o.core ≠ x.o.core → y.o.strand ≠ e.k) : WentOn (u.acceptEach es) e r := by
  obtain ⟨before, after, rfl⟩ := List.append_of_mem hx
  obtain ⟨hop1, hop⟩ := List.forall_mem_append.mp hop
  obtain ⟨⟨hopx, hjx⟩, hop2⟩ := List.forall_mem_cons.mp hop
  obtain ⟨hid1, hid, hids⟩ := List.pairwise_append.mp hid
  obtain ⟨hidx, hid2⟩ := List.pairwise_cons.mp hid
  obtain ⟨hcore1, hcore, hcores⟩ := List.pairwise_append.mp hcore
  obtain ⟨hcorex, hcore2⟩ := List.pairwise_cons.mp hcore
  have hfirst : ∀ y ∈ before, y.o.strand ≠ e.k := fun y hy =>
    hothers y (List.mem_append_left _ hy) (hcores y hy x List.mem_cons_self)
  have hlast : ∀ y ∈ after, y.o.strand ≠ e.k := fun y hy =>
    hothers y (List.mem_append_right _ (List.mem_cons_of_mem _ hy)) (hcorex y hy).symm
  have hA1 := acceptEach_enlists hop1 hid1 hcore1
  have hcur1 : (u.acceptEach before).cur = u.cur := hA1.cur fun y hy hc => by
    rw [hu.cur] at hc
    exact hfirst y hy (Prod.mk.inj (Option.some.inj hc)).1.symm
  have hu1 : StandsAt (u.acceptEach before) i s e := hu.congr (hA1.strands e.k hfirst) hcur1 (hA1.banks e.core) hA1.package
  have hopx1 : (u.acceptEach before).op x.id = some x.o := (hA1.ops x.id fun y hy => (hids y hy x List.mem_cons_self).symm).trans hopx
  obtain ⟨st', hst', hpath', hcur'⟩ := hu1.accepted_alone h hopx1 hjx hstrand hpath
  have hAx := acceptMember_enlists hopx1 hjx
  have hop2' : ∀ y ∈ after, (acceptMember (u.acceptEach before) x.id x.m).op y.id = some y.o ∧ y.joint := by
    refine fun y hy => ⟨?_, (hop2 y hy).2⟩
    rw [hAx.ops y.id (by simpa using (hidx y hy).symm), hA1.ops y.id fun z hz => (hids z hz y (List.mem_cons_of_mem _ hy)).symm]
    exact (hop2 y hy).1
  have hA2 := acceptEach_enlists hop2' hid2 hcore2
  rw [acceptEach_append]
  refine ⟨st', (hA2.strands e.k hlast).trans hst', hpath', (hA2.cur fun y hy hc => ?_).trans hcur'⟩
  rw [hcur'] at hc
  split at hc
  · cases hc
  · exact hlast y hy (Prod.mk.inj (Option.some.inj hc)).1.symm

end

/-! The statement -/

theorem quadCore_inj {quad c c' : Nat} (h : quadCore quad c = quadCore quad c') : c = c' := by
  unfold quadCore at h
  omega

/-- An entry that reuses a buffer waits for the operations of its core (log 93, DEDUCED). -/
theorem reuseWaits_iff {v : State} {o : Op} {t a b pb tag : Nat} {mmt qa qb acc : Bool} (hkind : o.kind = .mma t mmt a b qa qb pb tag acc) :
    reuseWaits v o = true ↔ (qa = true ∨ qb = true) ∧ uncommitted v o.core := by
  unfold reuseWaits uncommitted
  rw [hkind, Bool.and_eq_true, Bool.or_eq_true, List.any_eq_true]
  refine and_congr_right fun _ => exists_congr fun id => and_congr_right fun _ => ?_
  cases v.op id <;> simp

theorem opPath_pathOf {e : Env} {o : Op} (ho : o.path = e.opPath) (hpi : e.pi = 0 ∨ (e.pi = 1 ∧ e.st.divided = true)) : o.pathOf = e.pi := by
  rw [Op.pathOf, ho, Env.opPath]
  obtain hpi | ⟨hpi, hdiv⟩ := hpi
  · rw [hpi]
    cases e.st.divided <;> rfl
  · rw [hdiv, hpi]
    rfl

/-- The first entries of the four cores of a quad, as the statement gives them (10 R247). -/
structure FirstEntries (v : State) (quad : Nat) (h : Nat → Nat) (o : Nat → Op) (tile : Nat) (mmt : Bool) (a b : Nat → Nat) (qa qb : Nat → Bool)
    (pb tag : Nat) : Prop where
  agreed : Agreed v quad h o
  core : ∀ c, c < 4 → (o c).core = quadCore quad c
  kind : ∀ c, c < 4 → (o c).kind = .mma tile mmt (a c) (b c) (qa c) (qb c) pb tag false

section
variable {v : State} {quad tile pb tag : Nat} {h : Nat → Nat} {o : Nat → Op} {mmt : Bool} {a b : Nat → Nat} {qa qb : Nat → Bool} {m : Nat → Member4}

theorem firstEntries_of (hheads : ∀ c, c < 4 → (v.core (quadCore quad c)).matchList.head? = some (h c) ∧ v.op (h c) = some (o c) ∧
    (o c).core = quadCore quad c ∧ (o c).kind = .mma tile mmt (a c) (b c) (qa c) (qb c) pb tag false) :
    FirstEntries v quad h o tile mmt a b qa qb pb tag := by
  simp only [forall_and] at hheads
  obtain ⟨hhead, hop, hcore, hkind⟩ := hheads
  exact ⟨⟨hhead, hop, (tile, mmt, pb, tag), fun c hc => by rw [mmaKey, hkind c hc]⟩, hcore, hkind⟩

/-- The entries of the four cores. -/
def entrants (h : Nat → Nat) (o : Nat → Op) (m : Nat → Member4) : List Entrant := (List.range 4).map fun c => ⟨h c, o c, m c⟩

theorem forall_entrants {P : Entrant → Prop} : (∀ x ∈ entrants h o m, P x) ↔ ∀ c, c < 4 → P ⟨h c, o c, m c⟩ := by
  simp [entrants]

theorem pairwise_entrants {R : Entrant → Entrant → Prop} (hR : ∀ c c', c < 4 → c' < 4 → c ≠ c' → R ⟨h c, o c, m c⟩ ⟨h c', o c', m c'⟩) :
    (entrants h o m).Pairwise R :=
  List.pairwise_map.mpr (List.nodup_range.imp_of_mem fun hc hc' hne => hR _ _ (List.mem_range.mp hc) (List.mem_range.mp hc') hne)

variable (hf : FirstEntries v quad h o tile mmt a b qa qb pb tag)
include hf

theorem FirstEntries.formJoint_of_waits {c : Nat} (hc : c < 4) (hreuse : qa c = true ∨ qb c = true) (hun : uncommitted v (quadCore quad c)) :
    v.formJoint quad = v :=
  hf.agreed.formJoint_of_waits hc ((reuseWaits_iff (hf.kind c hc)).mpr ⟨hreuse, (hf.core c hc).symm ▸ hun⟩)

theorem FirstEntries.taken {c : Nat} (hc : c < 4) : (⟨h c, o c, m c⟩ : Entrant).taken = { o c with
    kind := .mma tile mmt (a c) (b c) (qa c) (qb c) pb tag true, acc := some 2, outstanding := false
    data := [(m c).bufA.data, (m c).bufB.data], items := if (m c).bad then [{ t := 0, bad := 0xB2 }] else [] } := by
  unfold Entrant.taken
  rw [hf.kind c hc]

theorem FirstEntries.entrants_ready : ∀ x ∈ entrants h o m, v.op x.id = some x.o ∧ x.joint := by
  refine forall_entrants.mpr fun c hc => ⟨hf.agreed.op c hc, ?_⟩
  rw [Entrant.joint, mmaKey, hf.kind c hc]
  rfl

theorem FirstEntries.entrants_cores : (entrants h o m).Pairwise fun x y => x.o.core ≠ y.o.core :=
  pairwise_entrants fun c c' hc hc' hne heq => hne (quadCore_inj ((hf.core c hc).symm.trans (heq.trans (hf.core c' hc'))))

theorem FirstEntries.formJoint_enlists {g : Nat → Gang} (hgang : ∀ c, c < 4 → v.gang (o c).gang = some (g c))
    (hready : ∀ c, c < 4 → ¬ ((qa c = true ∨ qb c = true) ∧ uncommitted v (quadCore quad c)))
    (hpass : ∀ c, c < 4 → memberCheck v (quadCore quad c) (g c) mmt (a c) (b c) (qa c) (qb c) pb = .ok (m c)) :
    v.formJoint quad = v.acceptEach (entrants h o m) := by
  refine hf.agreed.formJoint_enlists (fun c hc => ?_) fun c hc => ?_
  · rw [Bool.eq_false_iff, Ne, reuseWaits_iff (hf.kind c hc), hf.core c hc]
    exact hready c hc
  · rw [State.checked, hf.kind c hc, hgang c hc, ← hpass c hc, ← hf.core c hc]

end

section
variable {i : Instr} {mmt : Bool} {n : BitVec 3} {u : BitVec 5} {ra rb : BitVec 1} {p : BitVec 4} {s : State} {e : Env} {r : Run}

theorem joint_holds (hi : jointForm i = some (mmt, n, u, ra, rb, p)) (h : Issues i s e r) (hteam : e.team = true)
    (hsame : (e.joined (e.entry mmt n u ra rb p s.now) s).formJoint (quadOf e.core) = e.joined (e.entry mmt n u ra rb p s.now) s) :
    exec i s = .next (e.hold (e.matching (e.entry mmt n u ra rb p s.now) s)) := by
  rw [exec_joint hi h, joint_waits hteam (by rw [paid_eq]; rfl) hsame]

/-- The four first entries are accepted, the issuing path's among them (10 R247, R253, R254; 12 R285). -/
theorem joint_accepts (hi : jointForm i = some (mmt, n, u, ra, rb, p)) (h : Issues i s e r) (hteam : e.team = true)
    (hpi : e.pi = 0 ∨ (e.pi = 1 ∧ e.st.divided = true)) {v : State} (hv : e.joined (e.entry mmt n u ra rb p s.now) s = v)
    {ids : Nat → Nat} {o : Nat → Op} {tile pb tag : Nat} {mmt' : Bool} {a b : Nat → Nat} {qa qb : Nat → Bool} {m : Nat → Member4}
    (hf : FirstEntries v (quadOf e.core) ids o tile mmt' a b qa qb pb tag)
    (hform : v.formJoint (quadOf e.core) = v.acceptEach (entrants ids o m))
    (hothers : ∀ c, c < 4 → quadCore (quadOf e.core) c ≠ e.core → (o c).strand ≠ e.k)
    (hinj : ∀ c c', c < 4 → c' < 4 → ids c = ids c' → c = c') (hown : ∃ c, c < 4 ∧ quadCore (quadOf e.core) c = e.core ∧ ids c = s.nextId)
    (hword : peek v e.core e.g 8 e.p = (some i, e.p)) :
    exec i s = .next (v.acceptEach (entrants ids o m)) ∧ WentOn (v.acceptEach (entrants ids o m)) e r ∧
      Enlists v (v.acceptEach (entrants ids o m)) (entrants ids o m) := by
  subst hv
  obtain ⟨c0, hc0, hcore0, hid0⟩ := hown
  have hmine : o c0 = e.entry mmt n u ra rb p s.now :=
    Option.some.inj ((hf.agreed.op c0 hc0).symm.trans (hid0 ▸ joined_op_same e _ s))
  have hids : (entrants ids o m).Pairwise fun x y => x.id ≠ y.id := pairwise_entrants fun c c' hc hc' hne heq => hne (hinj c c' hc hc' heq)
  have henlists := acceptEach_enlists (hf.entrants_ready (m := m)) hids hf.entrants_cores
  have hmem : (⟨ids c0, o c0, m c0⟩ : Entrant) ∈ entrants ids o m := List.mem_map_of_mem (List.mem_range.mpr hc0)
  have hop := henlists.op _ hmem
  rw [hf.taken hc0] at hop
  refine ⟨?_, ?_, henlists⟩
  · rw [exec_joint hi h, joint_goes_on hteam (by rw [paid_eq]; rfl) hform (hid0 ▸ hop) rfl]
  · refine (standsAt_joined h _ hword).accepted_among h hf.entrants_ready hids hf.entrants_cores hmem (by rw [hmine]; rfl) ?_ ?_
    · exact opPath_pathOf (by rw [hmine]; rfl) hpi
    · refine forall_entrants.mpr fun c hc hne => hothers c hc fun heq => hne ?_
      rw [hf.core c hc, hf.core c0 hc0, heq, hcore0]

end

/-- Settles O26: an entry without a joint operation waits as `hold_matching` says, and one whose joint operation forms is accepted with the
other three. -/
theorem jointOperations : Obligations.JointOperations := by
  unfold Obligations.JointOperations
  intro i mmt n u ra rb p s e r hi h mine v w core heads waits
  refine ⟨fun hteam => ?_, fun hteam hempty => ?_, fun hteam ids o a b qa qb pb tag hheads hwaits => ?_,
    fun hteam hpi ids o g a b qa qb pb tag m hheads hmembers hinj hown hword => ?_⟩
  · exact stopsWhole_of_raise ((exec_joint hi h).trans (by rw [joint_without_team hteam])) (by decide)
  · obtain ⟨c, hc, hne, hnil⟩ := hempty
    have hlist : (v.core (core c)).matchList = [] := by rw [joined_core, if_neg hne, hnil]
    obtain ⟨hown, hothers, hops, hcores, hcur, hmem, hgangs⟩ := hold_matching e mine s h
    have hop (j : Nat) : w.op j = (e.matching mine s).op j := congrArg (look · j) hops
    have hcore (c : Nat) : w.core c = (e.matching mine s).core c := congrArg (rd ({} : Core) · c) hcores
    refine ⟨joint_holds hi h hteam (formJoint_of_empty hc hlist), fun hkeep => ?_, fun hleave => ?_, hcur, hothers, hown, fun j hj => ?_, hmem, hgangs⟩
    · rw [hop, hcore]
      exact matching_kept e mine s hkeep
    · rw [hop, hcore]
      exact matching_withdrawn e mine s rfl hleave
    · rw [hop, matching_op_other e mine s hj]
  · obtain ⟨c, hc, hreuse, hun⟩ := hwaits
    exact joint_holds hi h hteam ((firstEntries_of hheads).formJoint_of_waits hc hreuse hun)
  · have hf := firstEntries_of hheads
    simp only [forall_and] at hmembers
    obtain ⟨hgang, hstrand, hready, hpass⟩ := hmembers
    obtain ⟨hexec, ⟨st', hst', hpath, hcur⟩, henlists⟩ :=
      joint_accepts hi h hteam hpi rfl hf (hf.formJoint_enlists hgang hready hpass) hstrand hinj hown hword
    refine ⟨_, st', hexec, hst', hpath, hcur, fun c hc => ?_, fun j hj => henlists.ops j (forall_entrants.mpr hj), ?_, ?_⟩
    · have hmem : (⟨ids c, o c, m c⟩ : Entrant) ∈ entrants ids o m := List.mem_map_of_mem (List.mem_range.mpr hc)
      rw [← hf.taken hc, show core c = (o c).core from (hf.core c hc).symm]
      exact ⟨henlists.op _ hmem, henlists.queue _ hmem, henlists.list _ hmem⟩
    · rw [henlists.package]
      rfl
    · rw [henlists.package]
      rfl

end Sys2Proof.Machine
end
